-- ==== Sys2Proof/Word.lean ====
section
/-! DEFINITION. The words of the device: bits, bytes and the 64-bit word of a core (R154). -/

namespace Sys2Proof

/-- A byte of memory. -/
abbrev Byte := BitVec 8
/-- A register of a register block (R32). -/
abbrev Word32 := BitVec 32
/-- A core register, a word of a record or of a descriptor. -/
abbrev Word := BitVec 64
/-- An accumulator ACC0 to ACC3 (R158). -/
abbrev AccWord := BitVec 96

end Sys2Proof
end

