-- ==== Sys2Proof/Syntax.lean ====
section
/-! DEFINITION. The commands the block takes, one constructor for each row of spec/opcode_table.json, and their operands.
A core instruction carries the number of the core that executes it and the fields of its format (R185, R186). -/

namespace Sys2Proof

/-- A front-end lane FE0 to FE63 (R12). -/
abbrev Lane := Fin 64
/-- A slice stream (R51). -/
abbrev Stream := Fin 4
/-- A partition number PN (R4). -/
abbrev Pn := Fin 2048
/-- A core number (R13). -/
abbrev CoreNo := Fin 162
/-- A physical pair number PP (R13). -/
abbrev PairNo := Fin 81
/-- A logical pair number LP (R14). -/
abbrev LpNo := Fin 64
/-- A physical cluster (R12). -/
abbrev Clus := Fin 9
/-- A logical cluster (R14). -/
abbrev LClus := Fin 8
/-- A decision slot (R140). -/
abbrev SlotNo := Fin 1024
/-- A readout subchannel (R302). -/
abbrev Scn := Fin 32768
/-- A readout transaction tag (R311). -/
abbrev Tag := Fin 8192
/-- A compression engine with its record engine (R343, R380). -/
abbrev EngineNo := Fin 16
/-- A power domain (R416). -/
abbrev Domain := Fin 131
/-- A G register (R154). -/
abbrev Gr := Fin 32
/-- An accumulator (R158). -/
abbrev AccNo := Fin 4

/-- Where a register access or doorbell comes from: the PF, or a partition's side, its VF or its cores (R38). -/
inductive Src where
  | pf | vf (pn : Pn)
deriving DecidableEq, Repr

/-- The issuer of a command: the manager, or a partition (R303, R368). -/
inductive Issuer where
  | mgr | part (pn : Pn)
deriving DecidableEq, Repr

/-- The partition that a command of an owner acts for: the manager's names it in PN, a partition's acts for itself (R303). -/
def Issuer.acts : Issuer → Pn → Pn
  | .mgr, field => field
  | .part pn, _ => pn

/-- A received TIL character (R42, R43): a data byte, a K character by its number, or no valid character. -/
inductive TilChar where
  | data (d : Byte) | k (code : Byte) | err
deriving DecidableEq, Repr

/-- The addressing fields of a load or store (R186, R203): base register, AM, MS and bits [11:0], which hold OFS12 or, with
AM = 0b10 or 0b11, RB in [11:7]. -/
structure MemOp where
  ra : Gr
  am : BitVec 2
  ms : BitVec 2
  ofs : BitVec 12
deriving DecidableEq, Repr

/-- The widths of a load (R203). -/
inductive LdSize where
  | b | bu | h | hu | w | wu | d
deriving DecidableEq, Repr

/-- The fields of a MACD instruction (R228): X pointer, Y pointer, ACC, MSX, MSY, XINC and YINC. -/
structure MacdOp where
  rd : Gr
  ra : Gr
  acc : AccNo
  msx : BitVec 2
  msy : BitVec 2
  xinc : BitVec 16
  yinc : BitVec 16
deriving DecidableEq, Repr

/-- What arrives at a pair's input port (R271): a line for the L1I, a line for the L1D, a value from outside the pair. -/
inductive DataIn where
  | fillI (line : BitVec 29) | fillD (line : BitVec 29) | value (v : Word)
deriving DecidableEq, Repr

/-- An agent without a cache that writes normal cacheable memory (R252). -/
inductive WriteAgent where
  | clusterStop (c : Clus) | pcie | other
deriving DecidableEq, Repr

/-- The kind of a lockstep mismatch (R270, R299): KIND 1 to 4 of PAI_MIS. -/
inductive MisKind where
  | gr | other | store | request
deriving DecidableEq, Repr

/-- The PN and SCN fields of a subchannel command word (R303); a partition's own PN takes the place of the first. -/
structure ScRef where
  pn : Pn
  scn : Scn
deriving DecidableEq, Repr

/-- What a completion of a readout transaction carries (R314): tag, generation, epoch. -/
structure Completion where
  tag : Tag
  gen : Fin 8
  epoch : Byte
deriving DecidableEq, Repr

/-- A buffer descriptor read from host memory (R319). -/
structure BufDesc where
  w0 : Word
  w1 : Word
deriving DecidableEq, Repr

/-- A received WRR packet (R325, R326): the header's fields, with its IP version, IP source address and UDP ports. -/
structure WrrAck where
  ver : BitVec 4
  ty : BitVec 4
  epoch : BitVec 8
  pn : Pn
  scn : Scn
  inst : BitVec 32
  cum : BitVec 32
  sack : BitVec 64
  ip6 : Bool
  sip : BitVec 128
  sport : BitVec 16
  dport : BitVec 16
deriving DecidableEq, Repr

/-- The share registers of a partition (R404). -/
inductive ShareReg where
  | qsd | qrd | qhbm | qcw
deriving DecidableEq, Repr

/-- The vote a VOTE_WRITE goes to (R420): a domain's vote register or a partition's pair vote. -/
inductive VoteTarget where
  | dom (d : Domain) | pvote (pn : Pn)
deriving DecidableEq, Repr

/-- What a boot finds that is not part of the device's state: the fault codes (R432) of the units that fail power-on self-test
(R428), and whether the boot flash can be read (R448) and SESSION be written (R381). -/
structure BootInput where
  faults : List (BitVec 16)
  flashOk : Bool
  sessionOk : Bool
deriving DecidableEq, Repr

/-- The queue a Ridgepole message arrives in (R160). -/
inductive MsgDest where
  | part (pn : Pn) | firmware
deriving DecidableEq, Repr

/-- What the error-correcting code of a looked-up cache entry finds (R113). -/
inductive Ecc where
  | ok | corrected | uncorrectable
deriving DecidableEq, Repr


/-- The commands of the block: one constructor for each row of the opcode table, with the row's operands. -/
inductive Instr where
  /-- REGISTER_WRITE (R7). -/
  | registerWrite (src : Src) (off : BitVec 26) (wide : Bool) (v : BitVec 64)
  /-- READ_CLEAR (R7). -/
  | readClear (src : Src) (off : BitVec 26) (wide : Bool)
  /-- HOST_BAR2_READ (R34). -/
  | hostBar2Read (addr : BitVec 35) (len : BitVec 13)
  /-- HOST_BAR2_WRITE (R34). -/
  | hostBar2Write (addr : BitVec 35) (data : List (BitVec 8))
  /-- HOST_BAR_ERROR_ACCESS (R36). -/
  | hostBarErrorAccess (src : Src) (off : BitVec 26) (write : Bool) (len : BitVec 4)
  /-- STOP_LINK_FAILURE (R25). -/
  | stopLinkFailure (pos : Fin 26)
  /-- PLL_LOCK (R39). -/
  | pllLock (period : BitVec 32)
  /-- MCLK_LOST (R41). -/
  | mclkLost
  /-- RELOCK (R41). -/
  | relock (near : Bool) (period : BitVec 32)
  /-- HOLDOVER_END (R41). -/
  | holdoverEnd
  /-- MCLK_PERIOD_DEPART (R472). -/
  | mclkPeriodDepart (period : BitVec 32)
  /-- TIL_WORD (R43). -/
  | tilWord (c0 c1 c2 c3 : TilChar)
  /-- TIL_ALIGN (R44). -/
  | tilAlign
  /-- TIL_ALIGN_LOSS (R44). -/
  | tilAlignLoss
  /-- TSLOAD (R47). -/
  | tsload (d0 d1 d2 d3 : BitVec 24) (inRow : Bool)
  /-- FE_CMD (R48). -/
  | feCmd (arg : BitVec 16)
  /-- MARK (R48). -/
  | mark (arg : BitVec 16)
  /-- TIMESET (R457). -/
  | timeset (param : BitVec 8)
  /-- STREAM_ENABLE (R149). -/
  | streamEnable (n : Stream)
  /-- STREAM_STOP (R149). -/
  | streamStop (n : Stream)
  /-- STOP_END (R149). -/
  | stopEnd (n : Stream)
  /-- FSTART (R68). -/
  | fstart (l : Lane) (base : BitVec 56)
  /-- COMPACT_HIT (R69). -/
  | compactHit (l : Lane) (w : BitVec 64)
  /-- SAMPLE_BLOCK (R70). -/
  | sampleBlock (l : Lane) (w : BitVec 64)
  /-- FEND (R72). -/
  | fend (l : Lane) (w : BitVec 64)
  /-- IDLE_BLOCK (R67). -/
  | idleBlock (l : Lane)
  /-- RESERVED_CONTROL_BLOCK (R67). -/
  | reservedControlBlock (l : Lane) (ty : BitVec 8)
  /-- INVALID_SYNC_HEADER (R76). -/
  | invalidSyncHeader (l : Lane)
  /-- RESPONSE_FRAME (R83). -/
  | responseFrame (l : Lane) (hdr : BitVec 64) (data : List (BitVec 64)) (cend : BitVec 64)
  /-- RESPONSE_RELEASE (R83). -/
  | responseRelease (l : Lane)
  /-- CMD_BLOCK_SEND (R80). -/
  | cmdBlockSend
  /-- SWCMD (R81). -/
  | swcmd (arg : BitVec 16)
  /-- SWCMD_DROP (R81). -/
  | swcmdDrop
  /-- TXCTL_GO (R82). -/
  | txctlGo (l : Lane)
  /-- CONTROL_FRAME_END (R82). -/
  | controlFrameEnd (l : Lane)
  /-- FEL_CTL_WRITE (R92). -/
  | felCtlWrite (l : Lane) (v : BitVec 32)
  /-- LANE_RESTART (R90). -/
  | laneRestart (l : Lane)
  /-- CDR_LOCK (R84). -/
  | cdrLock (l : Lane)
  /-- CDR_TIMEOUT (R84). -/
  | cdrTimeout (l : Lane)
  /-- BLOCK_LOCK (R84). -/
  | blockLock (l : Lane)
  /-- BLOCK_LOCK_TIMEOUT (R84). -/
  | blockLockTimeout (l : Lane)
  /-- TRAINING_TIMEOUT (R84). -/
  | trainingTimeout (l : Lane)
  /-- ATTEMPT_RETRY (R84). -/
  | attemptRetry (l : Lane)
  /-- TRAIN_REQUEST (R86). -/
  | trainRequest (l : Lane)
  /-- TRAIN_ECHO (R86). -/
  | trainEcho (l : Lane) (w : BitVec 64) (rtt : BitVec 20)
  /-- LANE_LOSS (R87). -/
  | laneLoss (l : Lane)
  /-- LOST_RETRAIN (R84). -/
  | lostRetrain (l : Lane)
  /-- ANALOG_CHECKS_DONE (R89). -/
  | analogChecksDone (l : Lane) (result : BitVec 4) (eyeH eyeV : BitVec 8)
  /-- HIT_LOOKUP (R100). -/
  | hitLookup (l : Lane) (ecc : Ecc)
  /-- DESCRIPTOR_FILL (R111). -/
  | descriptorFill (b : Fin 32) (slot : Fin 16) (unc : Bool)
  /-- FILL_REFETCH (R112). -/
  | fillRefetch (b : Fin 32) (slot : Fin 16)
  /-- CTB_CTL_WRITE (R94). -/
  | ctbCtlWrite (v : BitVec 32)
  /-- INVALIDATE_CN (R116). -/
  | invalidateCn
  /-- INVALIDATE_RANGE (R116). -/
  | invalidateRange
  /-- INVALIDATE_ALL (R116). -/
  | invalidateAll
  /-- INVALIDATE_COMPLETE (R117). -/
  | invalidateComplete
  /-- SLICE_MARK (R124). -/
  | sliceMark (e : Fin 4)
  /-- SLICE_SEAL (R54). -/
  | sliceSeal (n : Stream)
  /-- SEAL_FLIT_INJECT (R24). -/
  | sealFlitInject
  /-- REGION_SUM_MERGE (R132). -/
  | regionSumMerge (n : Stream)
  /-- NOTICE_DELIVERY (R136). -/
  | noticeDelivery (pn : Pn)
  /-- HIT_COPY (R138). -/
  | hitCopy (pn : Pn) (e : Fin 4)
  /-- SUB_CTL_WRITE (R134). -/
  | subCtlWrite (pn : Pn) (v : BitVec 32)
  /-- SLOT_CTL_WRITE (R140). -/
  | slotCtlWrite (slot : SlotNo) (v : BitVec 32)
  /-- SLOT_CAPTURE (R141). -/
  | slotCapture (n : Stream)
  /-- DECIDE_PACKET_INJECT (R24). -/
  | decidePacketInject (c : Clus)
  /-- DECIDE_ARRIVAL (R142). -/
  | decideArrival
  /-- CUTOFF (R143). -/
  | cutoff (n : Stream)
  /-- DECISION_WORD (R146). -/
  | decisionWord (n : Stream)
  /-- EVENT_DELIVERY (R171). -/
  | eventDelivery (k : CoreNo)
  /-- GUYLINE_FAULT (R272). -/
  | guylineFault (pp : PairNo)
  /-- STIMER_MATCH (R160). -/
  | stimerMatch (k : CoreNo)
  /-- DEADLINE_WARNING (R173). -/
  | deadlineWarning (k : CoreNo)
  /-- WINDOW_SWITCH (R180). -/
  | windowSwitch (lp : LpNo)
  /-- MAJOR_FRAME_BOUNDARY (R179). -/
  | majorFrameBoundary (lp : LpNo)
  /-- ILLEGAL_INSTR (R188). -/
  | illegalInstr (k : CoreNo) (w : BitVec 32)
  /-- ADD (R192). -/
  | add (k : CoreNo) (rd ra rb : Gr)
  /-- ADDF (R192). -/
  | addf (k : CoreNo) (rd ra rb : Gr)
  /-- SUB (R192). -/
  | sub (k : CoreNo) (rd ra rb : Gr)
  /-- SUBF (R192). -/
  | subf (k : CoreNo) (rd ra rb : Gr)
  /-- ADDS (R192). -/
  | adds (k : CoreNo) (rd ra rb : Gr)
  /-- SUBS (R192). -/
  | subs (k : CoreNo) (rd ra rb : Gr)
  /-- ADDT (R194). -/
  | addt (k : CoreNo) (rd ra rb : Gr)
  /-- SUBT (R194). -/
  | subt (k : CoreNo) (rd ra rb : Gr)
  /-- ABS (R192). -/
  | abs (k : CoreNo) (rd ra : Gr)
  /-- ABSS (R192). -/
  | abss (k : CoreNo) (rd ra : Gr)
  /-- MIN (R192). -/
  | min (k : CoreNo) (rd ra rb : Gr)
  /-- MAX (R192). -/
  | max (k : CoreNo) (rd ra rb : Gr)
  /-- MINU (R192). -/
  | minu (k : CoreNo) (rd ra rb : Gr)
  /-- MAXU (R192). -/
  | maxu (k : CoreNo) (rd ra rb : Gr)
  /-- ADC (R192). -/
  | adc (k : CoreNo) (rd ra rb : Gr)
  /-- SBC (R192). -/
  | sbc (k : CoreNo) (rd ra rb : Gr)
  /-- AND (R192). -/
  | and (k : CoreNo) (rd ra rb : Gr)
  /-- OR (R192). -/
  | or (k : CoreNo) (rd ra rb : Gr)
  /-- XOR (R192). -/
  | xor (k : CoreNo) (rd ra rb : Gr)
  /-- ANDN (R192). -/
  | andn (k : CoreNo) (rd ra rb : Gr)
  /-- ORN (R192). -/
  | orn (k : CoreNo) (rd ra rb : Gr)
  /-- XNOR (R192). -/
  | xnor (k : CoreNo) (rd ra rb : Gr)
  /-- CLZ (R192). -/
  | clz (k : CoreNo) (rd ra : Gr)
  /-- CTZ (R192). -/
  | ctz (k : CoreNo) (rd ra : Gr)
  /-- POPC (R192). -/
  | popc (k : CoreNo) (rd ra : Gr)
  /-- SLL (R197). -/
  | sll (k : CoreNo) (rd ra rb : Gr)
  /-- SRL (R197). -/
  | srl (k : CoreNo) (rd ra rb : Gr)
  /-- SRA (R197). -/
  | sra (k : CoreNo) (rd ra rb : Gr)
  /-- ROR (R197). -/
  | ror (k : CoreNo) (rd ra rb : Gr)
  /-- SLT (R192). -/
  | slt (k : CoreNo) (rd ra rb : Gr)
  /-- SLTU (R192). -/
  | sltu (k : CoreNo) (rd ra rb : Gr)
  /-- SEXTB (R192). -/
  | sextb (k : CoreNo) (rd ra : Gr)
  /-- SEXTH (R192). -/
  | sexth (k : CoreNo) (rd ra : Gr)
  /-- SEXTW (R192). -/
  | sextw (k : CoreNo) (rd ra : Gr)
  /-- ZEXTB (R192). -/
  | zextb (k : CoreNo) (rd ra : Gr)
  /-- ZEXTH (R192). -/
  | zexth (k : CoreNo) (rd ra : Gr)
  /-- ZEXTW (R192). -/
  | zextw (k : CoreNo) (rd ra : Gr)
  /-- CSEL (R199). -/
  | csel (k : CoreNo) (rd ra rb : Gr) (cond : BitVec 4)
  /-- ADDI (R196). -/
  | addi (k : CoreNo) (rd ra : Gr) (imm : BitVec 16)
  /-- ADDIF (R196). -/
  | addif (k : CoreNo) (rd ra : Gr) (imm : BitVec 16)
  /-- ANDI (R196). -/
  | andi (k : CoreNo) (rd ra : Gr) (imm : BitVec 16)
  /-- ORI (R196). -/
  | ori (k : CoreNo) (rd ra : Gr) (imm : BitVec 16)
  /-- XORI (R196). -/
  | xori (k : CoreNo) (rd ra : Gr) (imm : BitVec 16)
  /-- LUI (R196). -/
  | lui (k : CoreNo) (rd : Gr) (imm : BitVec 16)
  /-- CMPI (R196). -/
  | cmpi (k : CoreNo) (ra : Gr) (imm : BitVec 16)
  /-- SLTI (R196). -/
  | slti (k : CoreNo) (rd ra : Gr) (imm : BitVec 16)
  /-- SLTIU (R196). -/
  | sltiu (k : CoreNo) (rd ra : Gr) (imm : BitVec 16)
  /-- SHI_SLL (R197). -/
  | shiSll (k : CoreNo) (rd ra : Gr) (sh : BitVec 6)
  /-- SHI_SRL (R197). -/
  | shiSrl (k : CoreNo) (rd ra : Gr) (sh : BitVec 6)
  /-- SHI_SRA (R197). -/
  | shiSra (k : CoreNo) (rd ra : Gr) (sh : BitVec 6)
  /-- SHI_ROR (R197). -/
  | shiRor (k : CoreNo) (rd ra : Gr) (sh : BitVec 6)
  /-- ADDIW (R198). -/
  | addiw (k : CoreNo) (rd ra : Gr) (imm : BitVec 32)
  /-- INSHW (R198). -/
  | inshw (k : CoreNo) (rd ra : Gr) (imm : BitVec 32)
  /-- ANDIW (R198). -/
  | andiw (k : CoreNo) (rd ra : Gr) (imm : BitVec 32)
  /-- ORIW (R198). -/
  | oriw (k : CoreNo) (rd ra : Gr) (imm : BitVec 32)
  /-- XORIW (R198). -/
  | xoriw (k : CoreNo) (rd ra : Gr) (imm : BitVec 32)
  /-- CMPIW (R198). -/
  | cmpiw (k : CoreNo) (ra : Gr) (imm : BitVec 32)
  /-- BR (R200). -/
  | br (k : CoreNo) (ofs : BitVec 26)
  /-- BL (R200). -/
  | bl (k : CoreNo) (ofs : BitVec 26)
  /-- BCC (R200). -/
  | bcc (k : CoreNo) (cond : BitVec 4) (ofs : BitVec 22)
  /-- CBZ (R200). -/
  | cbz (k : CoreNo) (ra : Gr) (ofs : BitVec 21)
  /-- CBNZ (R200). -/
  | cbnz (k : CoreNo) (ra : Gr) (ofs : BitVec 21)
  /-- JR (R201). -/
  | jr (k : CoreNo) (ra : Gr)
  /-- JLR (R201). -/
  | jlr (k : CoreNo) (ra : Gr)
  /-- LOOP (R162). -/
  | loop (k : CoreNo) (rc : Gr) (uofs : BitVec 16)
  /-- LOOPI (R162). -/
  | loopi (k : CoreNo) (count : BitVec 14) (uofs : BitVec 12)
  /-- LB (R203). -/
  | lb (k : CoreNo) (r : Gr) (m : MemOp)
  /-- LBU (R203). -/
  | lbu (k : CoreNo) (r : Gr) (m : MemOp)
  /-- LH (R203). -/
  | lh (k : CoreNo) (r : Gr) (m : MemOp)
  /-- LHU (R203). -/
  | lhu (k : CoreNo) (r : Gr) (m : MemOp)
  /-- LW (R203). -/
  | lw (k : CoreNo) (r : Gr) (m : MemOp)
  /-- LWU (R203). -/
  | lwu (k : CoreNo) (r : Gr) (m : MemOp)
  /-- LD (R203). -/
  | ld (k : CoreNo) (r : Gr) (m : MemOp)
  /-- SB (R203). -/
  | sb (k : CoreNo) (r : Gr) (m : MemOp)
  /-- SH (R203). -/
  | sh (k : CoreNo) (r : Gr) (m : MemOp)
  /-- SW (R203). -/
  | sw (k : CoreNo) (r : Gr) (m : MemOp)
  /-- SD (R203). -/
  | sd (k : CoreNo) (r : Gr) (m : MemOp)
  /-- AMOSWAP (R207). -/
  | amoswap (k : CoreNo) (sz : Bool) (rd ra rb : Gr)
  /-- AMOADD (R207). -/
  | amoadd (k : CoreNo) (sz : Bool) (rd ra rb : Gr)
  /-- AMOAND (R207). -/
  | amoand (k : CoreNo) (sz : Bool) (rd ra rb : Gr)
  /-- AMOOR (R207). -/
  | amoor (k : CoreNo) (sz : Bool) (rd ra rb : Gr)
  /-- CAS (R207). -/
  | cas (k : CoreNo) (sz : Bool) (rd ra rb : Gr)
  /-- ZLINE (R210). -/
  | zline (k : CoreNo) (ra : Gr) (imm : BitVec 16)
  /-- CLEAN (R210). -/
  | clean (k : CoreNo) (ra : Gr) (imm : BitVec 16)
  /-- INVAL (R210). -/
  | inval (k : CoreNo) (ra : Gr) (imm : BitVec 16)
  /-- FLUSH (R210). -/
  | flush (k : CoreNo) (ra : Gr) (imm : BitVec 16)
  /-- IINV (R210). -/
  | iinv (k : CoreNo) (ra : Gr) (imm : BitVec 16)
  /-- FENCE_C (R212). -/
  | fenceC (k : CoreNo)
  /-- FENCE_L (R212). -/
  | fenceL (k : CoreNo)
  /-- FENCE_S (R212). -/
  | fenceS (k : CoreNo)
  /-- MUL (R218). -/
  | mul (k : CoreNo) (rd ra rb : Gr)
  /-- MULS (R218). -/
  | muls (k : CoreNo) (rd ra rb : Gr)
  /-- MULT (R218). -/
  | mult (k : CoreNo) (rd ra rb : Gr)
  /-- MULH (R218). -/
  | mulh (k : CoreNo) (rd ra rb : Gr)
  /-- MULHU (R218). -/
  | mulhu (k : CoreNo) (rd ra rb : Gr)
  /-- MULHSU (R218). -/
  | mulhsu (k : CoreNo) (rd ra rb : Gr)
  /-- DIV (R220). -/
  | div (k : CoreNo) (rd ra rb : Gr)
  /-- DIVU (R220). -/
  | divu (k : CoreNo) (rd ra rb : Gr)
  /-- REM (R220). -/
  | rem (k : CoreNo) (rd ra rb : Gr)
  /-- REMU (R220). -/
  | remu (k : CoreNo) (rd ra rb : Gr)
  /-- ACLR (R222). -/
  | aclr (k : CoreNo) (ad : AccNo)
  /-- ALD (R222). -/
  | ald (k : CoreNo) (ad : AccNo) (ra : Gr)
  /-- AMOV (R222). -/
  | amov (k : CoreNo) (ad asrc : AccNo)
  /-- AADD (R222). -/
  | aadd (k : CoreNo) (ad : AccNo) (ra : Gr)
  /-- AADDS (R222). -/
  | aadds (k : CoreNo) (ad : AccNo) (ra : Gr)
  /-- ASUB (R222). -/
  | asub (k : CoreNo) (ad : AccNo) (ra : Gr)
  /-- ASUBS (R222). -/
  | asubs (k : CoreNo) (ad : AccNo) (ra : Gr)
  /-- AADDA (R222). -/
  | aadda (k : CoreNo) (ad asrc : AccNo)
  /-- AADDAS (R222). -/
  | aaddas (k : CoreNo) (ad asrc : AccNo)
  /-- ASRA (R222). -/
  | asra (k : CoreNo) (ad : AccNo) (ra : Gr)
  /-- ASLL (R222). -/
  | asll (k : CoreNo) (ad : AccNo) (ra : Gr)
  /-- ASLLS (R222). -/
  | aslls (k : CoreNo) (ad : AccNo) (ra : Gr)
  /-- AEXT (R223). -/
  | aext (k : CoreNo) (rd ra : Gr) (ad : AccNo) (ext : BitVec 5)
  /-- MAC_H (R225). -/
  | macH (k : CoreNo) (ad : AccNo) (ra rb : Gr)
  /-- MAC_HS (R225). -/
  | macHs (k : CoreNo) (ad : AccNo) (ra rb : Gr)
  /-- MSU_H (R225). -/
  | msuH (k : CoreNo) (ad : AccNo) (ra rb : Gr)
  /-- MSU_HS (R225). -/
  | msuHs (k : CoreNo) (ad : AccNo) (ra rb : Gr)
  /-- MAC_H2 (R225). -/
  | macH2 (k : CoreNo) (ad : AccNo) (ra rb : Gr)
  /-- MAC_H2S (R225). -/
  | macH2s (k : CoreNo) (ad : AccNo) (ra rb : Gr)
  /-- MAC_H4 (R225). -/
  | macH4 (k : CoreNo) (ad : AccNo) (ra rb : Gr)
  /-- MAC_H4S (R225). -/
  | macH4s (k : CoreNo) (ad : AccNo) (ra rb : Gr)
  /-- MAC_W (R225). -/
  | macW (k : CoreNo) (ad : AccNo) (ra rb : Gr)
  /-- MAC_WS (R225). -/
  | macWs (k : CoreNo) (ad : AccNo) (ra rb : Gr)
  /-- MSU_W (R225). -/
  | msuW (k : CoreNo) (ad : AccNo) (ra rb : Gr)
  /-- MSU_WS (R225). -/
  | msuWs (k : CoreNo) (ad : AccNo) (ra rb : Gr)
  /-- MAC_D (R225). -/
  | macD (k : CoreNo) (ad : AccNo) (ra rb : Gr)
  /-- MAC_DS (R225). -/
  | macDs (k : CoreNo) (ad : AccNo) (ra rb : Gr)
  /-- MACD_H4 (R228). -/
  | macdH4 (k : CoreNo) (m : MacdOp)
  /-- MACD_H4S (R228). -/
  | macdH4s (k : CoreNo) (m : MacdOp)
  /-- MSUD_H4 (R228). -/
  | msudH4 (k : CoreNo) (m : MacdOp)
  /-- MSUD_H4S (R228). -/
  | msudH4s (k : CoreNo) (m : MacdOp)
  /-- MACD_H1 (R228). -/
  | macdH1 (k : CoreNo) (m : MacdOp)
  /-- MACD_H1S (R228). -/
  | macdH1s (k : CoreNo) (m : MacdOp)
  /-- MACD_W2 (R228). -/
  | macdW2 (k : CoreNo) (m : MacdOp)
  /-- MACD_W2S (R228). -/
  | macdW2s (k : CoreNo) (m : MacdOp)
  /-- MACI (R227). -/
  | maci (k : CoreNo) (ad : AccNo) (ra : Gr) (imm : BitVec 32)
  /-- MACIS (R227). -/
  | macis (k : CoreNo) (ad : AccNo) (ra : Gr) (imm : BitVec 32)
  /-- SLGET (R232). -/
  | slget (k : CoreNo) (rd : Gr) (wait : Bool)
  /-- SLGET_WAKE (R232). -/
  | slgetWake (k : CoreNo)
  /-- DECIDE (R234). -/
  | decide (k : CoreNo) (rd ra rb : Gr)
  /-- TSNOW (R236). -/
  | tsnow (k : CoreNo) (rd : Gr)
  /-- DLREM (R236). -/
  | dlrem (k : CoreNo) (rd : Gr)
  /-- CSRR (R237). -/
  | csrr (k : CoreNo) (rd : Gr) (csr : BitVec 12)
  /-- CSRW (R237). -/
  | csrw (k : CoreNo) (csr : BitVec 12) (ra : Gr)
  /-- CSRRW (R237). -/
  | csrrw (k : CoreNo) (rd : Gr) (csr : BitVec 12) (ra : Gr)
  /-- ECALL (R169). -/
  | ecall (k : CoreNo)
  /-- BREAK (R237). -/
  | brk (k : CoreNo)
  /-- TRET (R172). -/
  | tret (k : CoreNo)
  /-- WFI (R239). -/
  | wfi (k : CoreNo)
  /-- WFI_WAKE (R239). -/
  | wfiWake (k : CoreNo)
  /-- DATA_INPUT (R271). -/
  | dataInput (k : CoreNo) (inp : DataIn)
  /-- STORE_DRAIN (R257). -/
  | storeDrain (k : CoreNo)
  /-- DEVICE_STORE_TIMEOUT (R263). -/
  | deviceStoreTimeout (k : CoreNo)
  /-- DEVICE_LOAD_TIMEOUT (R264). -/
  | deviceLoadTimeout (k : CoreNo) (m : MemOp) (sz : LdSize)
  /-- GETS (R251). -/
  | gets (k : CoreNo) (line : BitVec 29)
  /-- GETM (R251). -/
  | getm (k : CoreNo) (line : BitVec 29)
  /-- PUTM (R251). -/
  | putm (k : CoreNo) (line : BitVec 29)
  /-- NON_CACHING_WRITE (R252). -/
  | nonCachingWrite (agent : WriteAgent) (addr : BitVec 35) (data : List (BitVec 8))
  /-- COHERENCE_PROTOCOL_ERROR (R254). -/
  | coherenceProtocolError (c : Clus)
  /-- L1CFG_WRITE (R247). -/
  | l1cfgWrite (k : CoreNo) (v : BitVec 32)
  /-- ILBASE_WRITE (R245). -/
  | ilbaseWrite (k : CoreNo) (hi : Bool) (v : BitVec 32)
  /-- L1CFG_CHANGE_DONE (R247). -/
  | l1cfgChangeDone (k : CoreNo)
  /-- HOLD_ADD_LOAD (R250). -/
  | holdAddLoad (c : Clus)
  /-- HOLD_ADD (R250). -/
  | holdAdd (c : Clus)
  /-- HOLD_REMOVE (R250). -/
  | holdRemove (c : Clus)
  /-- HOLD_COMMAND_DONE (R250). -/
  | holdCommandDone (c : Clus)
  /-- MISMATCH (R270). -/
  | mismatch (pp : PairNo) (kind : MisKind) (reg : BitVec 12)
  /-- RETRY_ATTEMPT (R275). -/
  | retryAttempt (pp : PairNo) (again : Bool) (kind : MisKind) (reg : BitVec 12)
  /-- GROUP_COMMIT (R274). -/
  | groupCommit (k : CoreNo)
  /-- ONE_COPY_ERROR (R277). -/
  | oneCopyError (pp : PairNo) (both : Bool)
  /-- LOG_INTERVAL_APPLY (R279). -/
  | logIntervalApply (lp : LpNo)
  /-- MIRROR_FLUSH (R281). -/
  | mirrorFlush (lp : LpNo)
  /-- CONTEXT_WRITEBACK (R281). -/
  | contextWriteback (c : Clus)
  /-- TAKEOVER (R282). -/
  | takeover (lp : LpNo)
  /-- TAKEOVER_RESUME (R282). -/
  | takeoverResume (lp : LpNo)
  /-- SPLIT (R290). -/
  | split (lp : LpNo)
  /-- JOIN (R290). -/
  | join (lp : LpNo)
  /-- DEAD_AGENT (R287). -/
  | deadAgent (lc : LClus)
  /-- FAILOVER (R298). -/
  | failover (lc : LClus)
  /-- FAILOVER_RESUME (R288). -/
  | failoverResume (lc : LClus)
  /-- ROTATION_STEP (R293). -/
  | rotationStep (lc : LClus)
  /-- ROTATION_STEP_NOW (R298). -/
  | rotationStepNow
  /-- ROTATION_TEST_DONE (R293). -/
  | rotationTestDone (pp : PairNo) (misr : BitVec 64) (steps : BitVec 32)
  /-- ROTATION_BLOCKED (R294). -/
  | rotationBlocked (lc : LClus)
  /-- HALT (R296). -/
  | halt (pp : PairNo)
  /-- RESUME (R296). -/
  | resume (pp : PairNo)
  /-- STEP (R296). -/
  | step (pp : PairNo)
  /-- INJ_ONE (R299). -/
  | injOne (pp : PairNo)
  /-- INJ_HARD (R299). -/
  | injHard (pp : PairNo)
  /-- TRACE_CTL_WRITE (R297). -/
  | traceCtlWrite (pp : PairNo) (v : BitVec 32)
  /-- CLU_CTL_WRITE (R280). -/
  | cluCtlWrite (lc : LClus) (v : BitVec 32)
  /-- SC_ASSIGN (R304). -/
  | scAssign (pn : Pn) (scn : Scn)
  /-- SC_RELEASE (R304). -/
  | scRelease (scn : Scn)
  /-- PG_LOAD (R308). -/
  | pgLoad (who : Issuer) (hi : BitVec 24) (lo : BitVec 32)
  /-- SC_LOAD (R306). -/
  | scLoad (who : Issuer) (sc : ScRef)
  /-- SC_ENABLE (R304). -/
  | scEnable (who : Issuer) (sc : ScRef)
  /-- SC_DISABLE (R304). -/
  | scDisable (who : Issuer) (sc : ScRef)
  /-- SC_RESET (R304). -/
  | scReset (who : Issuer) (sc : ScRef)
  /-- REC_ACK (R339). -/
  | recAck
  /-- CHS_COMMAND_DONE (R304). -/
  | chsCommandDone (who : Issuer)
  /-- TRANSACTION_CREATE (R310). -/
  | transactionCreate
  /-- GATHER_START (R343). -/
  | gatherStart (tag : Tag)
  /-- GATHER_COMPLETE (R312). -/
  | gatherComplete (c : Completion) (unc : Bool)
  /-- SEAL_COMPLETE (R350). -/
  | sealComplete (c : Completion)
  /-- ENGINE_FAILURE (R352). -/
  | engineFailure (e : EngineNo) (cause : BitVec 4)
  /-- RECORD_DELIVER (R321). -/
  | recordDeliver (scn : Scn) (bufs : List BufDesc)
  /-- BUFFER_DOORBELL (R322). -/
  | bufferDoorbell (src : Src) (w : BitVec 64)
  /-- CONSUMER_DOORBELL (R322). -/
  | consumerDoorbell (src : Src) (w : BitVec 64)
  /-- PCIE_LINK_DOWN (R323). -/
  | pcieLinkDown
  /-- BUS_MASTER_DISABLE (R323). -/
  | busMasterDisable (pn : Pn)
  /-- WRR_ACK (R326). -/
  | wrrAck (port : Fin 8) (ack : WrrAck)
  /-- RTO_EXPIRY (R327). -/
  | rtoExpiry (scn : Scn) (psn : BitVec 32)
  /-- PROBE (R327). -/
  | probe (scn : Scn)
  /-- PCS_ALIGNMENT_LOSS (R328). -/
  | pcsAlignmentLoss (port : Fin 8)
  /-- PCS_ALIGNMENT_RETURN (R328). -/
  | pcsAlignmentReturn (port : Fin 8)
  /-- LINK_HOLD_EXPIRY (R328). -/
  | linkHoldExpiry (scn : Scn)
  /-- POP (R334). -/
  | pop (src : Src) (pn : Pn)
  /-- CLRSUM (R335). -/
  | clrsum (src : Src) (pn : Pn)
  /-- CHS_CTL_WRITE (R340). -/
  | chsCtlWrite (v : BitVec 32)
  /-- WRR_CTL_WRITE (R341). -/
  | wrrCtlWrite (p : Fin 2) (v : BitVec 32)
  /-- CMP_CTL_WRITE (R358). -/
  | cmpCtlWrite (e : EngineNo) (v : BitVec 32)
  /-- ENGINE_TEST_DONE (R356). -/
  | engineTestDone (e : EngineNo) (misr : BitVec 64) (steps : BitVec 32)
  /-- ENGINE_ROTATION (R435). -/
  | engineRotation
  /-- POWER_FAIL (R337). -/
  | powerFail
  /-- KEY_GEN (R370). -/
  | keyGen (who : Issuer) (keyid : Fin 16)
  /-- KX_BEGIN (R379). -/
  | kxBegin (who : Issuer) (keyid : Fin 16)
  /-- KEY_IMPORT (R379). -/
  | keyImport (who : Issuer) (keyid : Fin 16)
  /-- KEY_DESTROY (R377). -/
  | keyDestroy (who : Issuer) (pn : Pn) (keyid : Fin 16)
  /-- ATTEST (R384). -/
  | attest (who : Issuer) (pn : Pn) (scope : Bool)
  /-- TOKEN_INSTALL (R385). -/
  | tokenInstall (pn : Pn)
  /-- TOKEN_REVOKE (R386). -/
  | tokenRevoke (who : Issuer) (pn : Pn)
  /-- ID_READ (R372). -/
  | idRead (who : Issuer)
  /-- CERT_INSTALL (R363). -/
  | certInstall
  /-- LC_CHALLENGE (R361). -/
  | lcChallenge
  /-- LC_ADVANCE (R360). -/
  | lcAdvance (tgt : BitVec 4) (confirm : BitVec 8)
  /-- SVN_COMMIT (R367). -/
  | svnCommit
  /-- SEC_COMMAND_DONE (R370). -/
  | secCommandDone
  /-- TOKEN_LAPSE (R386). -/
  | tokenLapse (pn : Pn)
  /-- RNG_HEALTH_FAILURE (R375). -/
  | rngHealthFailure
  /-- CREATE (R392). -/
  | create (pn : Pn)
  /-- RUN (R392). -/
  | run (pn : Pn)
  /-- QUIESCE (R394). -/
  | quiesce (pn : Pn)
  /-- RESET (R395). -/
  | reset (pn : Pn)
  /-- REMOVE (R396). -/
  | remove (pn : Pn)
  /-- PG_ASSIGN (R399). -/
  | pgAssign (pn : Pn)
  /-- PG_RELEASE (R400). -/
  | pgRelease (pn : Pn)
  /-- TLBINV (R401). -/
  | tlbinv (pn : Pn)
  /-- PARTITION_COMMAND_DONE (R393). -/
  | partitionCommandDone (pn : Pn)
  /-- SHARE_WRITE (R404). -/
  | shareWrite (pn : Pn) (reg : ShareReg) (v : BitVec 32)
  /-- ARBITRATION_EPOCH (R403). -/
  | arbitrationEpoch
  /-- STAGE_DATA_ACCESS (R415). -/
  | stageDataAccess (pn : Pn) (wr : Option (BitVec 32))
  /-- VF_FLR (R410). -/
  | vfFlr (pn : Pn)
  /-- PF_FLR (R411). -/
  | pfFlr
  /-- VOTE_WRITE (R420). -/
  | voteWrite (target : VoteTarget) (v : BitVec 32)
  /-- ENTRY_REQUEST (R423). -/
  | entryRequest (d : Domain)
  /-- POINT_OF_NO_RETURN (R423). -/
  | pointOfNoReturn (d : Domain)
  /-- ENTRY_COMPLETE (R423). -/
  | entryComplete (d : Domain)
  /-- EXIT_COMPLETE (R417). -/
  | exitComplete (d : Domain)
  /-- WAKE_EVENT (R424). -/
  | wakeEvent (d : Domain) (source : Fin 5)
  /-- EARLY_EXIT (R422). -/
  | earlyExit (pp : PairNo)
  /-- UNIT_TEST (R439). -/
  | unitTest (tgt : BitVec 8)
  /-- ROT_ENG (R439). -/
  | rotEng
  /-- ANALOG (R439). -/
  | analog (tgt : BitVec 8)
  /-- ABORT (R439). -/
  | abort
  /-- TEST_COMPLETE (R436). -/
  | testComplete (misr : BitVec 64) (steps : BitVec 32)
  /-- TEST_OVERRUN (R437). -/
  | testOverrun
  /-- ANALOG_MONITOR_TRIP (R434). -/
  | analogMonitorTrip (tgt : BitVec 8) (check : BitVec 4) (pass : Bool)
  /-- NON_REDUNDANT_FAULT (R431). -/
  | nonRedundantFault (code : BitVec 16)
  /-- POWER_ON_RESET (R446). -/
  | powerOnReset (p : BootInput)
  /-- WARMN_ASSERT (R443). -/
  | warmnAssert (p : BootInput)
  /-- PCIE_FUNDAMENTAL_RESET (R442). -/
  | pcieFundamentalReset
  /-- WARM_RESET (R443). -/
  | warmReset (param : BitVec 8) (p : BootInput)
  /-- CLU_RESET (R445). -/
  | cluReset (param : BitVec 8)
  /-- PAIR_RESET (R445). -/
  | pairReset (param : BitVec 8)
  /-- FLASH_ERASE (R457). -/
  | flashErase (param : BitVec 8)
  /-- FLASH_WRITE (R457). -/
  | flashWrite (param : BitVec 8)
  /-- BOOT_SELECT (R457). -/
  | bootSelect (param : BitVec 8)
  /-- LOG_CLEAR (R458). -/
  | logClear (param : BitVec 8)
  /-- RETIRED_CLEAR (R457). -/
  | retiredClear (param : BitVec 8)
  /-- MAILBOX_COMMAND_DONE (R457). -/
  | mailboxCommandDone
  /-- STORE (R452). -/
  | store
  /-- RELOAD (R452). -/
  | reload
  /-- NVS_COMMAND_DONE (R452). -/
  | nvsCommandDone (failed : Bool)
  /-- SHADOW_WRITE (R452). -/
  | shadowWrite (hi : Bool) (wr : Option (BitVec 32))
  /-- THERM (R459). -/
  | therm (tmax : BitVec 16)
  /-- STATUS (R460). -/
  | status
  /-- FAULT (R460). -/
  | fault
  /-- TEMP (R460). -/
  | temp
  /-- TSENS_LO (R460). -/
  | tsensLo
  /-- TSENS_HI (R460). -/
  | tsensHi
  /-- POWER (R460). -/
  | power
  /-- IDENT (R460). -/
  | ident
  /-- LOG (R460). -/
  | log
  /-- SMBUS_WARM_RESET (R460). -/
  | smbusWarmReset (data : BitVec 16) (p : BootInput)
  /-- SMBUS_UNKNOWN_COMMAND (R460). -/
  | smbusUnknownCommand (code : BitVec 8)
  /-- SMBUS_CLOCK_TIMEOUT (R460). -/
  | smbusClockTimeout
  /-- RAIL_DIP (R468). -/
  | railDip (rail : Fin 10)
  /-- VID_STEP (R466). -/
  | vidStep (up : Bool)
  /-- SSC_WRITE (R473). -/
  | sscWrite (v : BitVec 32)
  /-- SPREAD_CHANGE_DONE (R473). -/
  | spreadChangeDone
  /-- THERMAL_TRIP (R489). -/
  | thermalTrip (sensor : Fin 24)
  /-- SBG_OWN_WRITE (R485). -/
  | sbgOwnWrite (g : Fin 2) (v : BitVec 32)
  /-- BYPASS (R487). -/
  | bypass
  /-- IDCODE (R487). -/
  | idcode
  /-- SAMPLE_PRELOAD (R487). -/
  | samplePreload (cells : BitVec 64)
  /-- EXTEST (R487). -/
  | extest (cells : BitVec 64)
  /-- EXTEST_PULSE (R487). -/
  | extestPulse (cells : BitVec 64)
  /-- EXTEST_TRAIN (R487). -/
  | extestTrain (cells : BitVec 64)
  /-- CLAMP (R487). -/
  | clamp
  /-- HIGHZ (R487). -/
  | highz
  /-- PAUSE_FRAME_RECEIVED (R330). -/
  | pauseFrameReceived (port : Fin 8) (quanta : BitVec 16)
  /-- RIDGEPOLE_MESSAGE_ARRIVAL (R160). -/
  | ridgepoleMessageArrival (dest : MsgDest)
deriving DecidableEq, Repr

end Sys2Proof
end

