-- ==== Sys2Proof/Decode.lean ====
section
/-! DEFINITION. The command that a word of the opcode table spells. No row of the table gives its command any bits: a command
is a register access, an event at a ball, on a link or on a ring, or an instruction that a core has fetched, and its operands
are those of Syntax.lean. So no word spells a command. The words of core instructions (R184 to R188) are read by
Machine/ClavorCode.lean. -/

namespace Sys2Proof

/-- The command that `nbits` bits `w` of the opcode table spell: none, since the table gives no row bits. -/
def decodeTableWord (_nbits _w : Nat) : Option Instr := none

end Sys2Proof
end

