-- ==== Sys2Proof/Config.lean ====
section
/-! DEFINITION. What the spec leaves open, as constants with no body: nothing can be proved of their values.
A claim about the machine therefore holds for every value of them. -/

namespace Sys2Proof.Config

/-- A value the spec does not state, drawn by number (assumption 2). -/
opaque freeWord : Nat → Word
/-- A value the spec does not state, 32 bits wide. -/
opaque freeWord32 : Nat → Word32
/-- Bytes the spec does not state, by draw number and position. -/
opaque freeByte : Nat → Nat → Byte
/-- A truth value the spec does not state. -/
opaque freeBool : Nat → Bool

/-- Pages of the record store that a reservation takes, by draw number, where they are as many as it needs and free. -/
opaque freePages : Nat → List Nat

/-- The device is a ZP-2048-F (R1, R2): a fuse. -/
opaque speedF : Bool

/-- The code images that a registration with loading names, by draw number: partition and base virtual address, or none
where the region is no locked-code image (R383; the registers do not carry them). -/
opaque codeImage : Nat → Option (Nat × Nat)

/-- The expected MISR value of a test target, in the test ROM (R436). -/
opaque expectedMisr : Nat → Word
/-- The expected step count of a target whose count the spec does not state (R435, R439). -/
opaque expectedSteps : Nat → Nat

/-! Fuses (R359, R362, R364, R366) and what the ROM holds. -/

/-- The identity number (R362). -/
opaque idn : Word
/-- The identity key's private scalar (R363). -/
opaque identKey : List Byte
/-- SEC_SVN: the fused minimum SVNs. -/
opaque svnFuse : Word32
/-- SEC_ROOTREV: the revoked Walath roots. -/
opaque rootRev : BitVec 4
/-- ELC_AVS.BOOT: the fused VID code (R466). -/
opaque avsBoot : BitVec 8
/-- The straps SMB_ADDR2 to SMB_ADDR0 (R486). -/
opaque straps : BitVec 3
/-- The boot flash holds 16 MiB and this many sectors of 64 KiB more (R447). -/
opaque flashExtra : Nat
/-- What a byte of the boot flash held when the device was made. -/
opaque flashByte : Nat → Byte
/-- The digest of root public key `r` in the ROM (R361, R365). -/
opaque rootDigest : Nat → List Byte
/-- SHA-384 of the Kindling ROM (R366). -/
opaque romDigest : List Byte

/-- The 64 bytes of a key-table entry: session KEK, PN, KEYID, slot version, key (R376; the form is internal). -/
opaque ktabEntry : List Byte → Nat → Nat → Nat → List Byte → List Byte

end Sys2Proof.Config
end

