-- ==== Sys2Proof/Machine/Bits.lean ====
section
/-! DEFINITION. Bit fields, sign extension, byte order and the CRC-32C, over natural numbers (00: bit 0 is the least
significant bit, multi-byte values in memory are little-endian; R73). -/

namespace Sys2Proof.Machine

/-- `w` bits of `v` from bit `lo` on. -/
def bits (v lo w : Nat) : Nat := v / 2 ^ lo % 2 ^ w

/-- Bit `i` of `v`. -/
def bit (v i : Nat) : Bool := v / 2 ^ i % 2 == 1

/-- `v` with `w` bits from `lo` on replaced by the low `w` bits of `x`. -/
def putBits (v lo w x : Nat) : Nat :=
  v % 2 ^ lo + x % 2 ^ w * 2 ^ lo + v / 2 ^ (lo + w) * 2 ^ (lo + w)

/-- `v` with bit `i` set. -/
def setBit (v i : Nat) : Nat := putBits v i 1 1
/-- `v` with bit `i` cleared. -/
def clrBit (v i : Nat) : Nat := putBits v i 1 0

/-- One for true. -/
def b2n (b : Bool) : Nat := if b then 1 else 0

/-- The quotient rounded up. -/
def ceilDiv (a b : Nat) : Nat := (a + b - 1) / b

/-- The two's-complement value of the low `w` bits of `v`. -/
def sext (w v : Nat) : Int :=
  let x := v % 2 ^ w
  if 2 * x < 2 ^ w then (x : Int) else (x : Int) - (2 ^ w : Nat)

/-- The low `w` bits of an integer. -/
def wrap (w : Nat) (x : Int) : Nat := (x % ((2 ^ w : Nat) : Int)).toNat

/-- The `n` bytes of `v`, lowest first. -/
def leBytes : Nat → Nat → List Byte
  | 0, _ => []
  | n + 1, v => BitVec.ofNat 8 v :: leBytes n (v / 256)

/-- The number whose bytes, lowest first, are given. -/
def ofLe : List Byte → Nat
  | [] => 0
  | b :: bs => b.toNat + 256 * ofLe bs

/-- One bit of the reflected CRC-32C register (R73: polynomial 0x1EDC_6F41, reflected 0x82F6_3B78). -/
def crcBit (c : Nat) : Nat := if c % 2 = 1 then Nat.xor (c / 2) 0x82F63B78 else c / 2

/-- `n` bits of the CRC register. -/
def crcBits : Nat → Nat → Nat
  | 0, c => c
  | n + 1, c => crcBits n (crcBit c)

/-- The CRC register after one byte. -/
def crcByte (c : Nat) (b : Byte) : Nat := crcBits 8 (Nat.xor c b.toNat)

/-- The CRC register after some bytes. -/
def crcRun : Nat → List Byte → Nat
  | c, [] => c
  | c, b :: bs => crcRun (crcByte c b) bs

/-- The CRC register before the first byte. -/
def crcInit : Nat := 0xFFFFFFFF
/-- The CRC of what a register has taken. -/
def crcFinal (c : Nat) : Nat := Nat.xor c 0xFFFFFFFF
/-- CRC-32C of a byte string (R73). -/
def crc32c (bs : List Byte) : Nat := crcFinal (crcRun crcInit bs)

/-- The step of the 16-bit LFSR of R244: x¹⁶ + x¹⁵ + x¹³ + x⁴ + 1. -/
def lfsrStep (v : Nat) : Nat :=
  let fb := (b2n (bit v 15) + b2n (bit v 14) + b2n (bit v 12) + b2n (bit v 3)) % 2
  (v * 2 + fb) % 65536

/-- The first element that a test picks, with its position from `i` on. -/
def firstIdx {α : Type} (p : α → Bool) : Nat → List α → Option (Nat × α)
  | _, [] => none
  | i, x :: xs => if p x then some (i, x) else firstIdx p (i + 1) xs

/-- `xs` with element `i` replaced. -/
def setIdx {α : Type} : List α → Nat → α → List α
  | [], _, _ => []
  | _ :: xs, 0, v => v :: xs
  | x :: xs, i + 1, v => x :: setIdx xs i v

/-- The sum of the natural numbers of a list. -/
def sumN : List Nat → Nat
  | [] => 0
  | x :: xs => x + sumN xs

/-- The bitwise exclusive or of a list. -/
def xorN : List Nat → Nat
  | [] => 0
  | x :: xs => Nat.xor x (xorN xs)

/-- The greatest of a list, 0 for none. -/
def maxN : List Nat → Nat
  | [] => 0
  | x :: xs => max x (maxN xs)

end Sys2Proof.Machine
end

