-- ==== Sys2Proof/Machine/Tab.lean ====
section
/-! DEFINITION. Tables: lists of (key, value) pairs with strictly rising keys. Sparse memory, the register store and every
numbered set of records are such lists, in one canonical form: no entry equals what an unlisted key reads as. -/

namespace Sys2Proof.Machine

/-- A table from numbers to values. -/
abbrev Tab (α : Type) := List (Nat × α)

/-- The entry at a key. -/
def tabFind {α : Type} : Tab α → Nat → Option α
  | [], _ => none
  | (k, v) :: m, i => if i = k then some v else if i < k then none else tabFind m i

/-- The value at a key, `d` where the key is not listed. -/
def tabGet {α : Type} (d : α) (m : Tab α) (i : Nat) : α := (tabFind m i).getD d

/-- The table with an entry put in. -/
def tabIns {α : Type} : Tab α → Nat → α → Tab α
  | [], i, x => [(i, x)]
  | (k, v) :: m, i, x =>
    if i = k then (k, x) :: m else if i < k then (i, x) :: (k, v) :: m else (k, v) :: tabIns m i x

/-- The table with the entry at a key taken out. -/
def tabDel {α : Type} : Tab α → Nat → Tab α
  | [], _ => []
  | (k, v) :: m, i => if i = k then m else if i < k then (k, v) :: m else (k, v) :: tabDel m i

/-- The table with the value `x` at a key, in canonical form for the default `d`. -/
def tabPut {α : Type} [DecidableEq α] (d : α) (m : Tab α) (i : Nat) (x : α) : Tab α :=
  if x = d then tabDel m i else tabIns m i x

/-- The table without the entries at keys from `lo` up to but not including `hi`. -/
def tabDrop {α : Type} (m : Tab α) (lo hi : Nat) : Tab α := m.filter (fun e => e.1 < lo || hi ≤ e.1)

/-- The keys rise strictly. -/
def tabSorted {α : Type} : Tab α → Bool
  | [] => true
  | (k, _) :: m => m.all (fun e => k < e.1) && tabSorted m

/-- No entry holds the value `d` of its key. -/
def tabClean {α : Type} [DecidableEq α] (d : Nat → α) (m : Tab α) : Bool := m.all (fun e => !decide (e.2 = d e.1))

/-- The canonical form of a table with default values `d`. -/
def tabWf {α : Type} [DecidableEq α] (d : Nat → α) (m : Tab α) : Bool := tabSorted m && tabClean d m

end Sys2Proof.Machine
end

