-- ==== Sys2Proof/Machine/State.lean ====
section
/-! DEFINITION. The state of the block as plain data: every register, queue, buffer, counter, mode and pin the spec gives
it (INVENTORY.md, '## State'), and the queue of commands that wait, first in, first out. -/

namespace Sys2Proof.Machine

/-- What stops the model. No meaning stops: the spec gives every command an effect (NOTES.md, '## Stops'). -/
inductive Fault where
  /-- Raised by no meaning; kept for the host's interface. Safe. -/
  | stuck
deriving DecidableEq, Repr

/-- Why a command has no meaning. -/
inductive Refusal where
  /-- The command has no meaning yet; its arm of exec answers so. Safe: nothing is claimed of the command. -/
  | notModelled (mnemonic : String)
deriving DecidableEq, Repr

/-- Why the device holds itself in reset (R25, R431, R470, R360): a fault, or waiting for PORn. -/
inductive Hold where
  | fault | power | lifeCycle
deriving DecidableEq, Repr

/-- What leaves the device at its balls and links, one constructor per kind. -/
inductive Out where
  /-- A DOL word on DOL-A (first flag) and DOL-B (second) (R146, R147): character 0, K28.1 (0x3C) or K28.5 (0xBC), and data bits
  [23:0]. A lane whose flag is false holds electrical idle. -/
  | dol (a b : Bool) (k : Byte) (w : BitVec 24)
  /-- A block sent on a front-end lane (R79): control (true) or data, with its payload. -/
  | fe (lane : Nat) (ctl : Bool) (w : Word)
  /-- An MSI-X message of the PF or of a VF (R408). -/
  | msixPf (vec : Nat) | msixVf (pn vec : Nat)
  /-- Read data returned to a host. -/
  | hostData (bs : List Byte)
  /-- A register value returned to a host or to a partition. -/
  | regData (v : Word32)
  /-- Posted writes to host memory, with the Relaxed Ordering attribute or without it (R321). -/
  | pcie (pn : Nat) (ro : Bool) (addr : Nat) (bs : List Byte)
  /-- A read of host memory through a VF (R319): address and bytes. -/
  | pcieRead (pn : Nat) (addr n : Nat)
  /-- A WRR packet on a port (R324): sub-port, subchannel, PSN, bytes of the record carried. -/
  | wrr (port scn psn : Nat) (bs : List Byte)
  /-- A WRR PROBE (R327). -/
  | probe (port scn inst : Nat)
  /-- An SMBus answer, or no acknowledge (R460). -/
  | smbus (bs : List Byte) | smbusNack
  /-- Bits shifted out of the JTAG TAP (R487). -/
  | jtag (bs : List Bool)
  /-- A RT flit on the Ridgepole (R24): 0 seal, 1 DECIDE packet, 2 failover control; the stop and the direction taken,
  two directions for a seal flit. -/
  | flit (kind stop : Nat) (clockwise counter : Bool)
  /-- A trace record of a pair (R297). -/
  | trace (pp : Nat) (pc : Nat)
deriving DecidableEq, Repr

/-! ## Timebase and streams -/

/-- The timebase beside its registers (R40 to R47). -/
structure Timebase where
  /-- the tick counter, below 2^60 -/
  tick : Nat := 0
  /-- holdover edges counted since MCLK was lost, 0 to 256 (R41) -/
  holdEdges : Nat := 0
  /-- the MCLK period measured when the PLL last locked, in fs (R472) -/
  lockPeriod : Nat := 0
  /-- loads of the tick counter that wait: tick edges left, value, and true when it comes from TIMESET (R47, R457) -/
  loads : List (Nat × Nat × Bool) := []
  /-- the tick to which the last TIL command belongs (R80, R81) -/
  cmdTick : Option Nat := none
  /-- consecutive TIL words with a valid K character, consecutive word errors (R44) -/
  tilGood : Nat := 0
  tilBad : Nat := 0
  /-- femtoseconds of tick edges since the last full hour -/
  hour : Nat := 0
  /-- V of a TIMESET that runs (R457) -/
  setV : Option Nat := none
  /-- the tick in whose word slot the last DECISION word was sent (R146, R147) -/
  dolTick : Option Nat := none
deriving DecidableEq, Repr

/-- What a slot contributes to one slice: its configuration at the capture tick and its result (R141, R142). -/
structure SlotCap where
  slot : Nat
  pn : Nat
  veto : Bool
  tmask : Nat
  dacc : Bool
  dtt : Nat
  prescale : Nat
  done : Option Nat
deriving DecidableEq, Repr

/-- The chunks of one slice from one engine (R125, R126). -/
structure Chain where
  /-- chunk indices, oldest first -/
  chunks : List Nat := []
  /-- record bytes stored in the last chunk -/
  used : Nat := 0
  /-- record bytes of the block not yet written -/
  buf : List Byte := []
  /-- record bytes stored in all, for hit copying: the stored records, oldest first -/
  recs : List (List Word) := []
deriving DecidableEq, Repr

/-- A slice of a stream from its first hit until its word slot has passed and it is unpinned (R123 to R145). -/
structure SliceRec where
  absent : Nat := 0
  corr : Bool := false
  late : Bool := false
  lbloss : Bool := false
  hold : Bool := false
  nhit : Nat := 0
  chains : Tab Chain := []
  /-- region sums: region to (COUNT, SUM) (R132) -/
  sums : Tab (Nat × Int) := []
  sealed : Bool := false
  merged : Bool := false
  /-- hit parts still to be copied: (PN, engine) (R138) -/
  caps : Option (List SlotCap) := none
  /-- partitions whose notice was refused (R139) -/
  refused : List Nat := []
  /-- ACC, TT, DEF once decided (R145) -/
  decided : Option (Bool × Nat × Bool) := none
  /-- its seal's number, counted over the seals of all streams (R134) -/
  serial : Nat := 0
  /-- registers its cut-off counted in, with their values before and after: what R495 takes back -/
  counted : List (Nat × Nat × Nat) := []
deriving DecidableEq, Repr

/-- A slice stream beside its registers (R51, R123, R149). Slices are numbered by k of R52. -/
structure StreamSt where
  /-- the first slice after the enable -/
  first : Nat := 0
  /-- the oldest slice not sealed, not captured, not decided, not sent -/
  next : Nat := 0
  cap : Nat := 0
  cut : Nat := 0
  out : Nat := 0
  /-- E_last of a stop in progress -/
  stopEnd : Option Nat := none
  /-- slices in progress, by k -/
  recs : Tab SliceRec := []
deriving DecidableEq, Repr

/-- The kinds of marks (R124). -/
inductive MarkKind where
  | corrupt | unresolved | far | absence
deriving DecidableEq, Repr

/-- A mark (R124). -/
structure Mark where
  lane : Nat
  kind : MarkKind
  lo : Nat
  hi : Nat
deriving DecidableEq, Repr

/-- An overflow entry: a lane mask and a tick range (R124). -/
structure OvfMark where
  lanes : Nat
  lo : Nat
  hi : Nat
deriving DecidableEq, Repr

/-- An absence register (R497): the loss instant in sixteenths of a tick, and the tick edge that ends the absence. -/
structure AbsReg where
  start : Int
  stop : Option Nat
deriving DecidableEq, Repr

/-- A slice engine beside its registers (R123 to R130, R497). -/
structure EngSt where
  nextChunk : Nat := 0
  /-- marks on their way to the engine -/
  inMarks : List Mark := []
  pend : List Mark := []
  ovf : Tab OvfMark := []
  absReg : Tab AbsReg := []
deriving DecidableEq, Repr

/-- A delivering subscription as the seal finds it: a mask of the engines that admit no copy for it (R405), and whether
every entry of its queue is occupied (R139). -/
structure SealSub where
  pn : Nat
  refused : Nat
  full : Bool
deriving DecidableEq, Repr

/-- A seal flit (R24, R136). -/
structure SealFlit where
  stream : Nat
  k : Nat
  fin : Nat
  hold : Bool
  corr : Bool
  lbloss : Bool
  absent : Nat
  serial : Nat
  subs : List SealSub
deriving DecidableEq, Repr

/-- A DECIDE message (R142): partition, epoch, SN, type word. -/
structure DecMsg where
  pn : Nat
  epoch : Nat
  sn : Nat
  ty : Nat
deriving DecidableEq, Repr

/-- An occupied entry of a slice delivery queue (R139). -/
structure QEntry where
  slot : Nat
  sn : Nat
  words : List Word
  /-- the agent that took it: 2 × LP + HALF -/
  takenBy : Option Nat
deriving DecidableEq, Repr

/-- A subscription beside its registers (R133 to R139). -/
structure SubSt where
  entries : List QEntry := []
  /-- seal flits from which a notice is still to be formed, with the subscription as the seal found it -/
  flits : List (SealFlit × SealSub) := []
  /-- hit parts still to be copied: (k of the slice, slot, engine) -/
  copies : List (Nat × Nat × Nat) := []
  /-- refused since the last notice delivered -/
  nref : Nat := 0
  /-- the serial of the first seal after its enable (R134) -/
  since : Nat := 0
deriving DecidableEq, Repr

/-- A pinned slice (R130): stream, slice number k, directory index, chunks per engine, creations and gathers due. -/
structure PinRec where
  stream : Nat
  k : Nat
  dir : Nat
  chunks : Tab (List Nat)
  created : Bool
  due : Nat
deriving DecidableEq, Repr

/-- A notice an agent holds or last took (R139, R173, R236). -/
structure Taken where
  pn : Nat
  sn : Nat
  stream : Nat
  /-- cut-off tick of its slice -/
  cutoff : Nat
  held : Bool
  warned : Bool
deriving DecidableEq, Repr

/-! ## Front-end lanes and the channel processor -/

/-- A hit on its way: arrival lane, compact hit word, timestamp, kept samples (R69, R106). -/
structure Hit where
  lane : Nat
  word : Word
  ts : Nat
  samples : List (BitVec 16)
deriving DecidableEq, Repr

/-- An open hit frame (R67 to R76). -/
structure Frame where
  base : Nat
  hits : Nat
  crc : Nat
  /-- false: the timebase was in NOLOCK or FREE at the FSTART -/
  timed : Bool
  /-- ticks of the hits passed on, lowest and highest -/
  span : Option (Nat × Nat)
  /-- its hits that wait in the lane entry queue, the youngest of it -/
  queued : Nat := 0
  /-- the hit whose sample blocks are still due, with the number due and the samples kept so far -/
  cur : Option (Word × Nat × List (BitVec 16))
deriving DecidableEq, Repr

/-- A command that belongs to a tick (R80). -/
structure FeCmd where
  tick : Nat
  arg : Nat
deriving DecidableEq, Repr

/-- A front-end lane beside its registers (R65 to R92). -/
structure LaneSt where
  frame : Option Frame := none
  discard : Bool := false
  refSeq : Bool := false
  /-- hits in the lane entry queue, oldest first; a hit that leaves it is passed on to the channel processor -/
  entryq : List Hit := []
  cmdq : List FeCmd := []
  /-- CMD blocks sent in the current tick: its tick -/
  cmdSent : Option Nat := none
  /-- data blocks of the control frame in transmission that have been sent -/
  txSent : Nat := 0
  /-- FEL_TXDLY.DLY as it acts in the current tick -/
  dly : Nat := 0
  /-- round-trip times of the last consecutive echoes, newest first, at most 16; none where one could not be timed (R86) -/
  rtts : List (Option Nat) := []
  /-- a failed attempt waits for its retry -/
  retry : Bool := false
  /-- the last 64 sync headers, newest first, true where invalid; the invalid ones of the last 125 µs, newest first, by tick, none
  where NOLOCK has hidden their time -/
  hdrs : List Bool := []
  badTicks : List (Option Nat) := []
  /-- analog checks running after entry into FAILED -/
  checking : Bool := false
deriving DecidableEq, Repr

/-- A waiting software command (R81): argument, lane mask, tick of its write, tick it belongs to. -/
structure SwCmd where
  arg : Nat
  mask : Nat
  written : Nat
  tick : Nat
deriving DecidableEq, Repr

/-- An entry of the descriptor cache (R108): CN, image of the descriptor, poisoned. -/
structure DescEntry where
  cn : Nat
  image : BitVec 512
  poisoned : Bool
deriving DecidableEq, Repr

/-- A fill in flight (R110, R112). -/
structure Fill where
  cn : Nat
  /-- the hit that took the slot, and those that joined -/
  hit : Hit
  joined : List Hit
  fetches : Nat
  /-- a failed fetch waits for the next one -/
  waiting : Bool
  stale : Bool
  /-- its place in the order in which the bank took fill slots (R114) -/
  born : Nat := 0
  /-- its entry with the cause of CTB_BADCN, held back behind an older fill of its channel (R114) -/
  ready : Option (DescEntry × Nat) := none
deriving DecidableEq, Repr

/-- A bank of the descriptor cache (R108, R110). -/
structure Bank where
  /-- entries by set × 8 + way -/
  entries : Tab DescEntry := []
  lfsr : Nat := 0xACE1
  fills : Tab Fill := []
  /-- fill slots taken since the cache was emptied -/
  taken : Nat := 0
  /-- hits that wait for a fill slot, oldest first -/
  waiting : List Hit := []
deriving DecidableEq, Repr

/-- A running invalidate command: first and last CN (R116). -/
structure InvCmd where
  lo : Nat
  hi : Nat
deriving DecidableEq, Repr

/-! ## Cores and clusters -/

/-- The privilege modes (R153). -/
inductive Mode where
  | user | supervisor | monitor
deriving DecidableEq, Repr

/-- The context of a partition on a pair: the architectural state of R154 but for local memory. -/
structure Arch where
  /-- G1 to G31 -/
  g : Tab Word := []
  acc : Tab AccWord := []
  pc : BitVec 48 := 0
  mode : Mode := .monitor
  /-- control registers by number; an unlisted one holds its reset value (R160) -/
  csr : Tab Word := []
  /-- the page-table entries of the locked translations, by entry number (R177) -/
  tlb : Tab Word := []
deriving DecidableEq, Repr

/-- The memory types (R240). -/
inductive MemTy where
  | loc | cacheable | uncached | device
deriving DecidableEq, Repr

/-- What a queued store does when it takes effect (R210, R257). -/
inductive StoreOp where
  | data | zline | clean | inval | flush
deriving DecidableEq, Repr

/-- A store in the pre-commit queue or the store buffer (R257, R265): its bytes from `pa` on, none where a merged entry
writes nothing. -/
structure Store where
  op : StoreOp
  ty : MemTy
  pa : Nat
  va : Nat
  bytes : List (Option Byte)
  mode : Mode
  pn : Nat
  epoch : Nat
deriving DecidableEq, Repr

/-- A pending STORE_ERROR (R265). -/
structure StoreErr where
  va : Nat
  mode : Mode
  pn : Nat
  epoch : Nat
deriving DecidableEq, Repr

/-- What a core does between instructions. -/
inductive CoreWait where
  | run | wfi | slget (rd : Nat) | halted | fenced
  /-- it executes one instruction and halts (R296, R299) -/
  | oneStep
deriving DecidableEq, Repr

/-- A value sampled at a pair's input port (R271): a word, or the bytes of a line that fills an L1. -/
inductive Sample where
  | word (v : Word)
  | line (line : Nat) (bs : List Byte)
deriving DecidableEq, Repr

/-- A retirement group that has not committed (R273, R274). -/
structure Group where
  /-- the retry checkpoint at its start -/
  check : Arch
  /-- instructions in it, 16 once it is closed -/
  n : Nat := 0
  /-- its entries in the pre-commit queue -/
  stores : Nat := 0
  /-- its values in the replay buffer, oldest first -/
  inputs : List Sample := []
  /-- the group of an SLGET: the context before it and its RD (R279) -/
  sl : Option (Arch × Nat) := none
deriving DecidableEq, Repr

/-- A line of an L1: its way, and for the L1D whether it is Modified (R251). -/
structure L1Line where
  way : Nat
  m : Bool
deriving DecidableEq, Repr

/-- A running change of MEM_Ck_L1CFG or MEM_Ck_ILBASE: the register value to apply (R245, R247). -/
structure L1Change where
  cfg : Nat
  reload : Bool
  /-- the core whose store asked for it, if one did: the store is not acknowledged yet (R247) -/
  by_ : Option Nat := none
deriving DecidableEq, Repr

/-- An L1D miss whose fill is in flight (R251, R253). -/
structure MissReq where
  /-- its line comes Modified -/
  m : Bool
  /-- it waits for HBM: the L2 did not hold the line -/
  hbm : Bool
  /-- the arbitration epoch of the request (R406) -/
  epoch : Nat
deriving DecidableEq, Repr

/-- A core; the main core of a lockstep pair holds the state of the pair. -/
structure CoreSt where
  arch : Arch := {}
  /-- local memory: offset in the bank to byte (R246) -/
  lmx : Tab Byte := []
  lmy : Tab Byte := []
  /-- cached lines by line address -/
  l1d : Tab L1Line := []
  l1i : Tab L1Line := []
  dlfsr : Nat := 0xACE1
  ilfsr : Nat := 0xACE1
  preq : List Store := []
  sb : List Store := []
  errs : List StoreErr := []
  /-- SNs of the pending DEADLINEs, oldest first (R173) -/
  dlines : List Nat := []
  wait : CoreWait := .run
  change : Option L1Change := none
  /-- values sampled for the group that opens next (R271) -/
  inbuf : List Sample := []
  /-- L1D misses whose fill is in flight: line to its request (R251, R253) -/
  reqs : Tab MissReq := []
  /-- unlocked translation entries: entry number, 16 to 63, to VPN and page-table entry (R177) -/
  utlb : Tab (Nat × Word) := []
  /-- PART (R160) -/
  pn : Nat := 0
  epoch : Nat := 0
  /-- retirement groups not committed, oldest first; the last one is open while it holds fewer than 16 instructions -/
  groups : List Group := []
  /-- the attempt of the running retry, 0 without one (R275) -/
  attempt : Nat := 0
  /-- PAI_INJ.ONE waits for the next register write (R299) -/
  injOne : Bool := false
deriving DecidableEq, Repr

/-- A context with its local memory (R180), or a slice checkpoint (R279): of an SLGET with the context before it and its
RD (R288). -/
structure Image where
  arch : Arch := {}
  lmx : Tab Byte := []
  lmy : Tab Byte := []
  sl : Option (Arch × Nat) := none
  /-- the partition it runs, and its pending DEADLINEs -/
  pn : Nat := 0
  dlines : List Nat := []
  /-- MEM_Ck_L1CFG and the locked-code base under which it ran (R180) -/
  cfg : Option (Nat × Nat) := none
deriving DecidableEq, Repr

/-- A closed log interval that waits to be applied (R279): its stores, oldest first, and its register image. -/
structure Interval where
  log : List (Nat × Byte)
  n : Nat
  /-- the local memory that a window switch has put in place -/
  lm : Option (Tab Byte × Tab Byte) := none
  arch : Arch
  sl : Option (Arch × Nat)
  pn : Nat
deriving DecidableEq, Repr

/-- A logical pair beside its registers (R178 to R180, R279 to R293). -/
structure LpSt where
  /-- the partition of the current window, if it runs one -/
  cur : Option Nat := none
  /-- contexts saved at switches, by half × 2048 + PN, as the cluster's memory holds them and as HBM does (R281) -/
  ctx : Tab Image := []
  hbmCtx : Tab Image := []
  /-- the last complete slice checkpoint in the mirror area, if there is one -/
  mirror : Option Image := none
  /-- local-memory stores streamed since that checkpoint: byte offset (0x8000 on for LMY) and byte, oldest first -/
  log : List (Nat × Byte) := []
  /-- stores streamed in the open interval (R279) -/
  logN : Nat := 0
  /-- the next entry of the log in the mirror area, and the register slot of the last slice checkpoint: true for slot B (R280) -/
  logPos : Nat := 0
  slotB : Bool := true
  closed : Option Interval := none
  /-- the last flushed SLGET checkpoint, as HBM holds it (R281, R288) -/
  flushed : Option Image := none
  /-- the reserve pair that takes over, the cut-off of the notice held at the declaration (R282, R284) -/
  tk : Option Nat := none
  tkCut : Option Nat := none
  /-- the tick from which the windows of the bank in force run; before it the pair runs IDLE (R179) -/
  wfrom : Nat := 0
  /-- the tested pair that waits to be exchanged in (R293, R294) -/
  exch : Option Nat := none
  /-- the tick from which the target has had its second -/
  exchFrom : Nat := 0
  /-- a pair or cluster reset has stopped it; it resumes at its next window switch (R445) -/
  resetting : Bool := false
deriving DecidableEq, Repr

/-- A power domain beside its registers (R416 to R427). -/
structure DomSt where
  /-- the state being entered and the state before the entry -/
  aim : Nat := 0
  prev : Nat := 0
  /-- wake events latched, in arrival order, and events of disabled sources that wait (R425, R426) -/
  latch : List Nat := []
  waiting : List Nat := []
deriving DecidableEq, Repr

/-- The kinds of tests BST_CMD runs (R439). -/
inductive TestKind where
  | unit | engine | analog
  /-- the periodic rotation test of an engine unit (R435) -/
  | rotation
deriving DecidableEq, Repr

/-- A line of an L2 with its directory entry (R248, R251). -/
structure L2Line where
  way : Nat
  data : List Byte
  dirty : Bool
  /-- local core indices 0 to 17 that hold a copy, as a bit vector -/
  sharers : Nat
  owner : Option Nat
  poisoned : Bool
deriving DecidableEq, Repr

/-- A held region (R249, R250): first line, lines, registered with loading, partition whose ring it is. -/
structure HeldRegion where
  line : Nat
  lines : Nat
  loaded : Bool
  ring : Option Nat
deriving DecidableEq, Repr

/-- A cluster, by its physical number. -/
structure ClusterSt where
  l2 : Tab L2Line := []
  lfsr : Nat := 0xACE1
  held : List HeldRegion := []
  /-- a hold command running: OP and region (R250) -/
  holdCmd : Option (Nat × HeldRegion) := none
  /-- DECIDE messages waiting at the cluster stop, oldest first (R24) -/
  decq : List DecMsg := []
  /-- the logical pair that the cluster stop served last (R233) -/
  served : Option Nat := none
  /-- the next byte of the trace buffer of its logical cluster (R297) -/
  trcPos : Nat := 0
deriving DecidableEq, Repr

/-- The channel processor. -/
structure ChanSt where
  banks : Tab Bank := []
  inv : Option InvCmd := none
deriving DecidableEq, Repr

/-- The decision fabric and the Ridgepole stops: seal flits waiting at SYS, DECIDE messages on the ring. -/
structure FabricSt where
  seals : List SealFlit := []
  ring : List DecMsg := []
  /-- seals so far, of all streams (R134) -/
  sealed : Nat := 0
deriving DecidableEq, Repr

/-- The error log's ring and read pointers beside its registers, mailbox, MRAM, flash (R447 to R460). -/
structure MgmtSt where
  log : Tab (Word × Word) := []
  /-- messages in the firmware message queue (R160) -/
  fwMsgs : Nat := 0
  /-- the tick of the last failed analog check of a PLL (R434) -/
  anaFail : Tab Nat := []
  /-- entries not yet read over SMBus (R460) -/
  smbUnread : Nat := 0
  /-- the status a running mailbox command will report (R457) -/
  mbxSt : Nat := 0
  /-- the logical cluster that a running CLU_RESET or PAIR_RESET resets (R444) -/
  mbxCl : Option Nat := none
  /-- partitions whose command or function-level reset has ended, oldest first, and its overflow (R459) -/
  pevtq : List Nat := []
  pevtOvf : Bool := false
  /-- THERMTRIPn is asserted, with the sensor (R489); the pin FAULTn (R431, R446) -/
  thermTrip : Option Nat := none
  faultn : Bool := false
  /-- boot flash: bytes programmed, and 64 KiB sectors erased since the device was made (R447) -/
  flash : Tab Byte := []
  erased : List Nat := []
deriving DecidableEq, Repr

/-- A bank of the settings store: SEQ and records (R450); none where its header or CRC fails. -/
abbrev NvsBank := Option (Nat × List Word)

/-- The settings store: MRAM contents and the shadow (R449 to R454). -/
structure NvsSt where
  bankA : NvsBank := none
  bankB : NvsBank := none
  /-- the valid bank pointer: BANK (true for B) and SEQ -/
  ptr : Option (Bool × Nat) := none
  session : Nat := 0
  /-- flush seal: COUNT, SESSION and CRC-32C; the words of the journal-flush region it seals (R337) -/
  sealed : Option (Nat × Nat × Nat) := none
  flush : List Word := []
  /-- the retired-unit list, test-target numbers -/
  retired : List Nat := []
  /-- BOOTPREF, one bit for each TYPE -/
  pref : Nat := 0
  /-- wear counters: bank A, bank B, control area, journal-flush region -/
  wearA : Nat := 0
  wearB : Nat := 0
  wearC : Nat := 0
  wearJ : Nat := 0
  cert : List Byte := []
  /-- the shadow's records, by index -/
  shadow : Tab Word := []
  /-- the running command: true STORE with the image it took, false RELOAD -/
  cmd : Option (Bool × List Word) := none
  /-- power failed during a STORE (R453) -/
  torn : Bool := false
deriving DecidableEq, Repr

/-- The PF's PCI Express side (R388, R408). -/
structure PfSt where
  /-- MSI-X Enable, Function Mask, Bus Master Enable of the configuration space (assumption 9) -/
  msixEn : Bool := true
  fmask : Bool := false
  busMaster : Bool := true
  /-- table words by offset; PBA bits -/
  tbl : Tab Word32 := []
  pba : Nat := 0
  /-- VF Enable of the SR-IOV capability (assumption 9) -/
  vfEnable : Bool := true
  /-- NumVFs of the SR-IOV capability (R388, assumption 9) -/
  numVfs : Nat := 2048
deriving DecidableEq, Repr

/-- An accepted slice in the creation queue (R310): stream, k, end tick, and the partitions still to be served. -/
structure CreateReq where
  stream : Nat
  k : Nat
  fin : Nat
  left : List Nat
deriving DecidableEq, Repr

/-- A partition beside its registers: the configuration space and MSI-X table of its VF (R388, R389, R408), its shares in
force (R404), its staging words (R415), its measurement (R383), its trace tokens' holder (R385). -/
structure PartSt where
  msixEn : Bool := true
  fmask : Bool := false
  busMaster : Bool := true
  tbl : Tab Word32 := []
  pba : Nat := 0
  /-- PRT_QSD, PRT_QRD, PRT_QHBM and PRT_QCW as they were taken at the last arbitration epoch (R403, R404) -/
  qsd : Nat := 0x00100001
  qrd : Nat := 1
  qhbm : Nat := 0x30100001
  qcw : Nat := 0x10
  /-- RUNNING at the last arbitration epoch -/
  inArb : Bool := false
  stage : Tab Word32 := []
  /-- the status a running channel-subsystem command or partition command will report -/
  chsSt : Nat := 0
  cmdSt : Nat := 0
  /-- the partition command running: OP and PRT_ARG as the command took it (R393) -/
  cmd : Option (Nat × Nat) := none
  /-- a function-level reset runs (R410): 1 its quiesce, 2 its reset; else 0 -/
  flr : Nat := 0
  /-- TMR, CMR and the counts of extensions (R383) -/
  tmr : List Byte := []
  cmr : List Byte := []
  ncode : Nat := 0
  nprog : Nat := 0
  /-- messages in its Ridgepole message queue (R160) -/
  msgs : Nat := 0
deriving DecidableEq, Repr

/-! ## Readout -/

/-- The phases of a transaction (R312); `stored` is SEAL with the record in the record store, waiting for its turn. -/
inductive Phase where
  | queued | gather | sealing | stored | deliver | waitack
deriving DecidableEq, Repr

/-- A readout transaction that is not DONE (R310 to R318). -/
structure Txn where
  pn : Nat
  epoch : Nat
  gen : Nat
  scn : Nat
  stream : Nat
  k : Nat
  fin : Nat
  rseq : Nat
  /-- its place in the order of creation -/
  order : Nat
  phase : Phase := .queued
  /-- its slice's pin still counts it (R130) -/
  pinned : Bool := true
  /-- the engine it is assigned to, or that sealed it -/
  engine : Option Nat := none
  /-- it is run again after an engine failure (R316) -/
  rerun : Bool := false
  /-- its place in the order of assignment to engines -/
  asgn : Nat := 0
  /-- the readout unit whose engine failed on it: it is run again on another (R316, R356) -/
  avoid : Option Nat := none
  /-- record-store pages reserved or held, in the order of the record's bytes (R301, R349) -/
  pages : List Nat := []
  /-- the uncompressed payload and the hits in it -/
  body : List Byte := []
  nhit : Nat := 0
  /-- words 0, 2 and 3 of its directory entry at the gather -/
  dir : List Nat := []
  /-- the key its record engine has loaded (R380) -/
  key : List Byte := []
  /-- the bytes of its record in the record store; its stored payload -/
  recLen : Nat := 0
  slen : Nat := 0
  /-- its completion entry, by free-running index (R321) -/
  cq : Option Nat := none
deriving DecidableEq, Repr

/-- A WRR packet sent and not acknowledged, or waiting to be sent (R326, R327). -/
structure WrrPkt where
  psn : Nat
  tag : Nat
  ofs : Nat
  bytes : List Byte
  first : Bool
  last : Bool
  resends : Nat := 0
deriving DecidableEq, Repr

/-- What waits for its turn on a subchannel (R313): a transaction by its tag, or one lost after its creation whose completion
entry is still to be written: cause, generation, tag, k of the slice, record sequence (R321). -/
inductive Turn where
  | txn (tag : Nat)
  | lost (cause gen tag k rseq : Nat)
deriving DecidableEq, Repr

/-- A loss tag (R335, R336): its partition, and stream and SN of the oldest unacknowledged loss record. -/
structure LossTag where
  pn : Nat
  stream : Nat
  sn : Nat
deriving DecidableEq, Repr

/-- A subchannel (R302): owner and state, ring indices (free-running), WRR window, record sequence. -/
structure Subch where
  owner : Option Nat := none
  /-- 0 UNASSIGNED, 1 DISABLED, 2 ENABLED, 3 DOWN, 4 ERROR -/
  state : Nat := 0
  loaded : Bool := false
  lastSt : Nat := 0
  turns : List Turn := []
  brPi : Nat := 0
  brCi : Nat := 0
  cqPi : Nat := 0
  cqCi : Nat := 0
  inst : Nat := 0
  psn : Nat := 0
  window : List WrrPkt := []
  txq : List WrrPkt := []
  probeInst : Option Nat := none
  /-- the producer index at which the posted buffers were found too few for the next record (R353) -/
  short : Option Nat := none
  rseq : Nat := 0
  session : Nat := 0
deriving DecidableEq, Repr

/-- The channel subsystem beside its registers. -/
structure ReadSt where
  subch : Tab Subch := []
  txns : Tab Txn := []
  /-- generations of the tags (R311) -/
  gens : Tab Nat := []
  /-- the partition that last took a tag at a generation, by 8 × tag + generation (R314, R397) -/
  holders : Tab Nat := []
  lossTags : Tab LossTag := []
  /-- transactions created so far; assignments to engines so far -/
  created : Nat := 0
  assigned : Nat := 0
  /-- program slots that hold a loaded program -/
  progs : List Nat := []
  /-- the status the manager's running command will report -/
  cmdSt : Nat := 0
  /-- quanta of the last PAUSE frame honoured, by sub-port (R330) -/
  pause : Tab Nat := []
  /-- the first tick edge after PWRFAILn was seen asserted (R337) -/
  powerFail : Option Nat := none
deriving DecidableEq, Repr

/-! ## Security -/

/-- A key slot (R376, R379): OFFERED with the ephemeral private key of its offer and the epoch it was made at; LOADED with
its key. -/
inductive KeySlot where
  | empty | offered (eph : List Byte) (epoch : Nat) | loaded (key : List Byte)
deriving DecidableEq, Repr

/-- A trace token in force (R385, R386): the partition's epoch at its installation, and the token. -/
structure Token where
  epoch : Nat
  body : List Byte
deriving DecidableEq, Repr

/-- A command that the security controller runs or holds (R368): its word's fields, the argument bytes as read at its
start, none where the address failed (R369), and the output address. -/
structure SecRun where
  op : Nat
  pn : Nat
  keyid : Nat
  scope : Bool
  confirm : Nat
  tgt : Nat
  arg : Option (List Byte)
  out : Nat
  epoch : Nat
deriving DecidableEq, Repr

/-- The random bit generator, a CTR_DRBG with AES-256 (R373): key, counter, and one more than the requests since it was seeded; 0
before. -/
structure Drbg where
  key : List Byte := List.replicate 32 0
  v : List Byte := List.replicate 16 0
  count : Nat := 0
deriving DecidableEq, Repr

/-- The security controller beside its registers. -/
structure SecSt where
  /-- the session KEK (R376) -/
  kek : List Byte := []
  /-- key slots by 16 × PN + KEYID -/
  keys : Tab KeySlot := []
  /-- slot versions (R376) -/
  vers : Tab Nat := []
  /-- measurement registers MR0 to MR3 (R366) -/
  mr : Tab (List Byte) := []
  tokens : Tab Token := []
  /-- one more than the last token serial installed in this session, by PN (R385) -/
  serials : Tab Nat := []
  challenge : Option (List Byte) := none
  drbg : Drbg := {}
  /-- EMPTY slots whose offer a reset has voided: a KEY_IMPORT there is refused with ST_EPOCH (R371) -/
  voided : List Nat := []
  /-- the fused identity key where a transition has changed it (R363, R360) -/
  ident : Option (List Byte) := none
  /-- SVNs of the images booted, TYPE 1 to 3 -/
  svns : List Nat := []
  /-- SESSION could not advance (R381) -/
  worn : Bool := false
  /-- commands running, by issuer: 0 the manager, 1 + PN a partition; the one served (R368) -/
  runs : Tab SecRun := []
  serving : Option Nat := none
  /-- the last command served was the manager's; the partition served last -/
  afterMgr : Bool := false
  lastPn : Nat := 2047
deriving DecidableEq, Repr

/-- The arbitration among partitions (R403): grant units a partition may still take in the round that runs, by
2048 × arbiter + PN, less what its grants took beyond them; arbitration epochs so far. -/
structure ArbSt where
  credit : Tab Int := []
  epochs : Nat := 0
deriving DecidableEq, Repr

/-- The instruction in the JTAG TAP (R487). -/
inductive TapIns where
  | idcode | bypass | sample | extest | extestPulse | extestTrain | clamp | highz
deriving DecidableEq, Repr

/-- The JTAG TAP: its instruction, which says what drives the balls, and the boundary register's update cells. -/
structure JtagSt where
  ins : TapIns := .idcode
  cells : BitVec 64 := 0
deriving DecidableEq, Repr

structure State where
  /-- the commands that wait, first in, first out -/
  pending : List Instr
  /-- draws of free values so far: the model's own field (assumption 2) -/
  free : Nat
  /-- every register of R37 by its BAR0 offset; an unlisted one holds its reset value -/
  regs : Tab Word32
  /-- HBM, 32 GiB (R27); an unlisted byte is 0 -/
  hbm : List Host.Cell
  /-- HBM lines that carry poison, rising (R255) -/
  poison : List Nat
  /-- what has left the device, newest first -/
  outs : List Out
  hold : Option Hold
  /-- PORn is asserted -/
  por : Bool
  time : Timebase
  streams : Tab StreamSt
  engines : Tab EngSt
  subs : Tab SubSt
  fabric : FabricSt
  pins : List PinRec
  lanes : Tab LaneSt
  swcmd : Option SwCmd
  chan : ChanSt
  cores : Tab CoreSt
  clusters : Tab ClusterSt
  /-- notices by agent and partition: (2 × LP + HALF) × 2048 + PN -/
  taken : Tab Taken
  mgmt : MgmtSt
  pf : PfSt
  parts : Tab PartSt
  /-- owner of each 2 MiB page of HBM that is assigned (R399) -/
  owners : Tab Nat
  /-- the creation queue, oldest first (R310) -/
  creq : List CreateReq
  /-- logical pairs, by LP -/
  lps : Tab LpSt
  /-- power domains, by their numbers (R416) -/
  doms : Tab DomSt
  nvs : NvsSt
  /-- the test that BST runs, with its target (R439) -/
  test : Option (TestKind × Nat)
  /-- hours since the last pass of each engine unit (R441) -/
  ages : Tab Nat
  readout : ReadSt
  sec : SecSt
  arb : ArbSt
  jtag : JtagSt
deriving DecidableEq, Repr

/-- The state right after reset: every register at its reset value, nothing in memory, no boot stage run. -/
def State.reset : State :=
  { pending := [], free := 0, regs := [], hbm := [], poison := [], outs := [], hold := none, por := false,
    time := {}, streams := [], engines := [], subs := [], fabric := {}, pins := [], lanes := [], swcmd := none,
    chan := {}, cores := [], clusters := [], taken := [], mgmt := {}, pf := {}, parts := [], owners := [], creq := [],
    lps := [], doms := [], nvs := {}, test := none, ages := [], readout := {}, sec := {}, arb := {}, jtag := {} }

end Sys2Proof.Machine
end

