-- ==== Sys2Proof/Machine/Fields.lean ====
section
/-! DEFINITION. The state with one of its fields replaced. -/

namespace Sys2Proof.Machine

/-- The state with `pending` replaced. -/
def State.withPending (s : State) (x : List Instr) : State := { s with pending := x }
/-- The state with `free` replaced. -/
def State.withFree (s : State) (x : Nat) : State := { s with free := x }
/-- The state with `regs` replaced. -/
def State.withRegs (s : State) (x : Tab Word32) : State := { s with regs := x }
/-- The state with `hbm` replaced. -/
def State.withHbm (s : State) (x : List Host.Cell) : State := { s with hbm := x }
/-- The state with `poison` replaced. -/
def State.withPoison (s : State) (x : List Nat) : State := { s with poison := x }
/-- The state with `outs` replaced. -/
def State.withOuts (s : State) (x : List Out) : State := { s with outs := x }
/-- The state with `hold` replaced. -/
def State.withHold (s : State) (x : Option Hold) : State := { s with hold := x }
/-- The state with `por` replaced. -/
def State.withPor (s : State) (x : Bool) : State := { s with por := x }
/-- The state with `time` replaced. -/
def State.withTime (s : State) (x : Timebase) : State := { s with time := x }
/-- The state with `streams` replaced. -/
def State.withStreams (s : State) (x : Tab StreamSt) : State := { s with streams := x }
/-- The state with `engines` replaced. -/
def State.withEngines (s : State) (x : Tab EngSt) : State := { s with engines := x }
/-- The state with `subs` replaced. -/
def State.withSubs (s : State) (x : Tab SubSt) : State := { s with subs := x }
/-- The state with `fabric` replaced. -/
def State.withFabric (s : State) (x : FabricSt) : State := { s with fabric := x }
/-- The state with `pins` replaced. -/
def State.withPins (s : State) (x : List PinRec) : State := { s with pins := x }
/-- The state with `lanes` replaced. -/
def State.withLanes (s : State) (x : Tab LaneSt) : State := { s with lanes := x }
/-- The state with `swcmd` replaced. -/
def State.withSwcmd (s : State) (x : Option SwCmd) : State := { s with swcmd := x }
/-- The state with `chan` replaced. -/
def State.withChan (s : State) (x : ChanSt) : State := { s with chan := x }
/-- The state with `cores` replaced. -/
def State.withCores (s : State) (x : Tab CoreSt) : State := { s with cores := x }
/-- The state with `clusters` replaced. -/
def State.withClusters (s : State) (x : Tab ClusterSt) : State := { s with clusters := x }
/-- The state with `taken` replaced. -/
def State.withTaken (s : State) (x : Tab Taken) : State := { s with taken := x }
/-- The state with `mgmt` replaced. -/
def State.withMgmt (s : State) (x : MgmtSt) : State := { s with mgmt := x }
/-- The state with `pf` replaced. -/
def State.withPf (s : State) (x : PfSt) : State := { s with pf := x }
/-- The state with `parts` replaced. -/
def State.withParts (s : State) (x : Tab PartSt) : State := { s with parts := x }
/-- The state with `owners` replaced. -/
def State.withOwners (s : State) (x : Tab Nat) : State := { s with owners := x }
/-- The state with `creq` replaced. -/
def State.withCreq (s : State) (x : List CreateReq) : State := { s with creq := x }
/-- The state with `lps` replaced. -/
def State.withLps (s : State) (x : Tab LpSt) : State := { s with lps := x }
/-- The state with `doms` replaced. -/
def State.withDoms (s : State) (x : Tab DomSt) : State := { s with doms := x }
/-- The state with `nvs` replaced. -/
def State.withNvs (s : State) (x : NvsSt) : State := { s with nvs := x }
/-- The state with `test` replaced. -/
def State.withTest (s : State) (x : Option (TestKind × Nat)) : State := { s with test := x }
/-- The state with `ages` replaced. -/
def State.withAges (s : State) (x : Tab Nat) : State := { s with ages := x }
/-- The state with `readout` replaced. -/
def State.withReadout (s : State) (x : ReadSt) : State := { s with readout := x }
/-- The state with `sec` replaced. -/
def State.withSec (s : State) (x : SecSt) : State := { s with sec := x }
/-- The state with `arb` replaced. -/
def State.withArb (s : State) (x : ArbSt) : State := { s with arb := x }
/-- The state with `jtag` replaced. -/
def State.withJtag (s : State) (x : JtagSt) : State := { s with jtag := x }

end Sys2Proof.Machine
end

