-- ==== Sys2Proof/Machine/RegMap.lean ====
section
/-! DEFINITION. The register map: the address of every register by its name (R37, R38: the PF BAR0 offset),
and for every register its reset value and its fields with their access types and reserved encodings,
as the register tables of the chapters give them (R91, R120, R148, R150, R151, R267, R298, R299, R340, R341, R358, R387,
R415, R440, R441, R461, R462, R492). -/

namespace Sys2Proof.Machine

/-- The access types of R7. `na`: the view has no access to the field (R415). -/
inductive Acc where
  | rw | ro | w1c | wo | rc | rwl | na
deriving DecidableEq, Repr

/-- A field: lowest bit, width, access of the manager view and of the partition view (R38), reserved encodings as
ranges of values (R9). -/
structure Fld where
  lo : Nat
  w : Nat
  acc : Acc
  accP : Acc
  res : List (Nat × Nat)
deriving DecidableEq, Repr

/-- A field with one access type for both views. -/
def fld (lo w : Nat) (a : Acc) (res : List (Nat × Nat)) : Fld := ⟨lo, w, a, a, res⟩
/-- A field of the partition window whose two views differ. -/
def fldP (lo w : Nat) (a p : Acc) (res : List (Nat × Nat)) : Fld := ⟨lo, w, a, p, res⟩

/-- `n` registers of one form, `stride` bytes apart from `off` on, with their reset value. -/
structure RegRow where
  off : Nat
  n : Nat
  stride : Nat
  rst : Nat
  flds : List Fld
deriving DecidableEq, Repr

/-- Registers at `base + i * s1 + inner + j * s2 + off` for `i < n1`, `j < n2`. -/
structure Region where
  base : Nat
  n1 : Nat
  s1 : Nat
  inner : Nat
  n2 : Nat
  s2 : Nat
  rows : List RegRow
deriving DecidableEq, Repr

-- The names.

def MGT_ST : Nat := 0x0
def MGT_BOOT : Nat := 0x4
def MGT_MBX_CMD : Nat := 0x8
def MGT_MBX_ST : Nat := 0xc
def MGT_MBX_ARG_LO : Nat := 0x10
def MGT_MBX_ARG_HI : Nat := 0x14
def MGT_MBX_ARG2 : Nat := 0x18
def MGT_EVT : Nat := 0x20
def MGT_EVTEN : Nat := 0x24
def MGT_EVTVEC0 : Nat := 0x28
def MGT_EVTVEC1 : Nat := 0x2c
def MGT_EVTVEC2 : Nat := 0x30
def MGT_PEVTQ : Nat := 0x34
def MGT_LOG_CNT : Nat := 0x40
def MGT_LOG_SEL : Nat := 0x44
def MGT_LOG_W (i : Nat) : Nat := 0x0 + 0x48 + i * 4
def MGT_LOG_LOST : Nat := 0x58
def MGT_TEMP : Nat := 0x60
def MGT_POWER : Nat := 0x64
def MGT_TALARM : Nat := 0x68
def MGT_SMB_CFG : Nat := 0x70
def MGT_SMB_ERR : Nat := 0x74
def MGT_RETIRED : Nat := 0x78
def MGT_FWEVT : Nat := 0x7c
def ELC_ST : Nat := 0x10000
def ELC_SSC : Nat := 0x10004
def ELC_AVS : Nat := 0x10008
def ELC_STRAP : Nat := 0x1000c
def ELC_SBG_OWN (i : Nat) : Nat := 0x10000 + 0x10 + i * 4
def ELC_GPIO_OUT : Nat := 0x10020
def ELC_GPIO_OE : Nat := 0x10024
def ELC_GPIO_IN : Nat := 0x10028
def ELC_GPIO_FILT : Nat := 0x1002c
def ELC_PAD : Nat := 0x10030
def ELC_CLKOBS : Nat := 0x10034
def ELC_FEEQ (n : Nat) : Nat := 0x10100 + n * 4
def ELC_ETHEQ (m : Nat) : Nat := 0x10300 + m * 4
def TIM_STATE : Nat := 0x20000
def TIM_MCLK_PERIOD : Nat := 0x20004
def TIM_TICK_LO : Nat := 0x20008
def TIM_TICK_HI : Nat := 0x2000c
def TIM_TIL_CFG : Nat := 0x20010
def TIM_TIL_ERR : Nat := 0x20014
def TIM_TS_MATCH : Nat := 0x20018
def TIM_TS_MISMATCH : Nat := 0x2001c
def TIM_MARK_OVF : Nat := 0x20020
def TIM_MARK_CNT : Nat := 0x20024
def TIM_DOL_CTL : Nat := 0x20030
def TIM_DOL_WORDS : Nat := 0x20034
def TIM_STR_CTL (n : Nat) : Nat := 0x20100 + n * 0x80
def TIM_STR_ST (n : Nat) : Nat := 0x20100 + n * 0x80 + 0x4
def TIM_STR_O_LO (n : Nat) : Nat := 0x20100 + n * 0x80 + 0x8
def TIM_STR_O_HI (n : Nat) : Nat := 0x20100 + n * 0x80 + 0xc
def TIM_STR_W (n : Nat) : Nat := 0x20100 + n * 0x80 + 0x10
def TIM_STR_SKEW (n : Nat) : Nat := 0x20100 + n * 0x80 + 0x14
def TIM_STR_D (n : Nat) : Nat := 0x20100 + n * 0x80 + 0x18
def TIM_FLOOR (n : Nat) : Nat := 0x20100 + n * 0x80 + 0x1c
def TIM_STR_LANES_LO (n : Nat) : Nat := 0x20100 + n * 0x80 + 0x20
def TIM_STR_LANES_HI (n : Nat) : Nat := 0x20100 + n * 0x80 + 0x24
def TIM_STR_SN_LO (n : Nat) : Nat := 0x20100 + n * 0x80 + 0x28
def TIM_STR_SN_HI (n : Nat) : Nat := 0x20100 + n * 0x80 + 0x2c
def TIM_STR_DIR_LO (n : Nat) : Nat := 0x20100 + n * 0x80 + 0x30
def TIM_STR_DIR_HI (n : Nat) : Nat := 0x20100 + n * 0x80 + 0x34
def TIM_STR_RSUM_LO (n : Nat) : Nat := 0x20100 + n * 0x80 + 0x38
def TIM_STR_RSUM_HI (n : Nat) : Nat := 0x20100 + n * 0x80 + 0x3c
def TIM_STR_DEPTH (n : Nat) : Nat := 0x20100 + n * 0x80 + 0x40
def TIM_STR_RET (n : Nat) : Nat := 0x20100 + n * 0x80 + 0x44
def TIM_MARK_LO (k : Nat) : Nat := 0x20400 + k * 0x10
def TIM_MARK_HI (k : Nat) : Nat := 0x20400 + k * 0x10 + 0x4
def TIM_MARK_ARG (k : Nat) : Nat := 0x20400 + k * 0x10 + 0x8
def SEC_LC : Nat := 0x30000
def SEC_ST : Nat := 0x30004
def SEC_ID_LO : Nat := 0x30008
def SEC_ID_HI : Nat := 0x3000c
def SEC_SESSION : Nat := 0x30010
def SEC_SVN : Nat := 0x30014
def SEC_ROOTREV : Nat := 0x30018
def SEC_RNG : Nat := 0x3001c
def SEC_KTAB_LO : Nat := 0x30020
def SEC_KTAB_HI : Nat := 0x30024
def SEC_CMD_LO : Nat := 0x30030
def SEC_CMD_HI : Nat := 0x30034
def SEC_ARG_LO : Nat := 0x30038
def SEC_ARG_HI : Nat := 0x3003c
def SEC_OUT_LO : Nat := 0x30040
def SEC_OUT_HI : Nat := 0x30044
def SEC_CMD_ST : Nat := 0x30048
def SEC_TOKENS : Nat := 0x3004c
def SEC_AUTHFAIL : Nat := 0x30050
def SEC_KEYFAIL : Nat := 0x30054
def SEC_PERMFAIL : Nat := 0x30058
def SEC_MR (m w : Nat) : Nat := 0x30100 + m * 0x40 + w * 4
def SEC_RE_RECS_LO (k : Nat) : Nat := 0x30400 + k * 8
def SEC_RE_RECS_HI (k : Nat) : Nat := 0x30400 + k * 8 + 0x4
def NVS_CMD : Nat := 0x40000
def NVS_ST : Nat := 0x40004
def NVS_SHLEN : Nat := 0x40008
def NVS_SHIDX : Nat := 0x4000c
def NVS_SHDATA_LO : Nat := 0x40010
def NVS_SHDATA_HI : Nat := 0x40014
def NVS_SEQ_LO : Nat := 0x40018
def NVS_SEQ_HI : Nat := 0x4001c
def NVS_WEAR_A : Nat := 0x40020
def NVS_WEAR_B : Nat := 0x40024
def NVS_WEAR_C : Nat := 0x40028
def NVS_WEAR_J : Nat := 0x4002c
def NVS_APPLY : Nat := 0x40030
def PWR_ST : Nat := 0x50000
def PWR_RACE : Nat := 0x50004
def PWR_D_VOTE (d : Nat) : Nat := 0x51000 + d * 0x10
def PWR_D_ST (d : Nat) : Nat := 0x51000 + d * 0x10 + 0x4
def PWR_D_WAKEEN (d : Nat) : Nat := 0x51000 + d * 0x10 + 0x8
def PWR_D_RACE (d : Nat) : Nat := 0x51000 + d * 0x10 + 0xc
def PWR_PVOTE (p : Nat) : Nat := 0x58000 + p * 4
def BST_CTL : Nat := 0x60000
def BST_CMD : Nat := 0x60004
def BST_CMD_ST : Nat := 0x60008
def BST_RES : Nat := 0x6000c
def BST_SIG_LO : Nat := 0x60010
def BST_SIG_HI : Nat := 0x60014
def BST_STEPS : Nat := 0x60018
def BST_XSTEPS : Nat := 0x6001c
def BST_POR : Nat := 0x60020
def BST_FAULT : Nat := 0x60024
def BST_ANA : Nat := 0x60028
def BST_ERT : Nat := 0x6002c
def BST_TCNT : Nat := 0x60030
def MEM_ST : Nat := 0x80000
def MEM_HBM_CFG : Nat := 0x80004
def MEM_HBM_ECC_CORR : Nat := 0x80008
def MEM_HBM_ECC_UNC : Nat := 0x8000c
def MEM_HBM_W0 : Nat := 0x80010
def MEM_HBM_TRD : Nat := 0x80014
def MEM_MONUC (i : Nat) : Nat := 0x80000 + 0x20 + i * 4
def MEM_CL_L2CTL (c : Nat) : Nat := 0x81000 + c * 0x100
def MEM_CL_ST (c : Nat) : Nat := 0x81000 + c * 0x100 + 0x4
def MEM_CL_HOLD_LO (c : Nat) : Nat := 0x81000 + c * 0x100 + 0x8
def MEM_CL_HOLD_HI (c : Nat) : Nat := 0x81000 + c * 0x100 + 0xc
def MEM_CL_HOLD_SIZE (c : Nat) : Nat := 0x81000 + c * 0x100 + 0x10
def MEM_CL_HOLD_CMD (c : Nat) : Nat := 0x81000 + c * 0x100 + 0x14
def MEM_CL_HOLD_ST (c : Nat) : Nat := 0x81000 + c * 0x100 + 0x18
def MEM_CL_HELD (c : Nat) : Nat := 0x81000 + c * 0x100 + 0x1c
def MEM_CL_L2MISS_LO (c : Nat) : Nat := 0x81000 + c * 0x100 + 0x20
def MEM_CL_L2MISS_HI (c : Nat) : Nat := 0x81000 + c * 0x100 + 0x24
def MEM_CL_L2ECC (c : Nat) : Nat := 0x81000 + c * 0x100 + 0x28
def MEM_CL_COHERR (c : Nat) : Nat := 0x81000 + c * 0x100 + 0x2c
def MEM_C_L1CFG (k : Nat) : Nat := 0x88000 + k * 0x40
def MEM_C_ST (k : Nat) : Nat := 0x88000 + k * 0x40 + 0x4
def MEM_C_ILBASE_LO (k : Nat) : Nat := 0x88000 + k * 0x40 + 0x8
def MEM_C_ILBASE_HI (k : Nat) : Nat := 0x88000 + k * 0x40 + 0xc
def MEM_C_SEED (k : Nat) : Nat := 0x88000 + k * 0x40 + 0x10
def MEM_C_SERR_LO (k : Nat) : Nat := 0x88000 + k * 0x40 + 0x14
def MEM_C_SERR_HI (k : Nat) : Nat := 0x88000 + k * 0x40 + 0x18
def MEM_C_SECNT (k : Nat) : Nat := 0x88000 + k * 0x40 + 0x1c
def MEM_C_WRST (k : Nat) : Nat := 0x88000 + k * 0x40 + 0x20
def MEM_C_ECC (k : Nat) : Nat := 0x88000 + k * 0x40 + 0x24
def MEM_C_SBPEAK (k : Nat) : Nat := 0x88000 + k * 0x40 + 0x28
def MEM_C_SERR_PN (k : Nat) : Nat := 0x88000 + k * 0x40 + 0x2c
def FEL_SWCMD : Nat := 0xf0000
def FEL_SWCMD_ST : Nat := 0xf0004
def FEL_SWCMD_MASK_LO : Nat := 0xf0008
def FEL_SWCMD_MASK_HI : Nat := 0xf000c
def FEL_UP_LO : Nat := 0xf0010
def FEL_UP_HI : Nat := 0xf0014
def FEL_EVT_LO : Nat := 0xf0018
def FEL_EVT_HI : Nat := 0xf001c
def FEL_AHEAD : Nat := 0xf0020
def FEL_CTL (n : Nat) : Nat := 0x100000 + n * 0x1000
def FEL_STAT (n : Nat) : Nat := 0x100000 + n * 0x1000 + 0x4
def FEL_CFG (n : Nat) : Nat := 0x100000 + n * 0x1000 + 0x8
def FEL_TXDLY (n : Nat) : Nat := 0x100000 + n * 0x1000 + 0xc
def FEL_RTT (n : Nat) : Nat := 0x100000 + n * 0x1000 + 0x10
def FEL_DIAG (n : Nat) : Nat := 0x100000 + n * 0x1000 + 0x14
def FEL_FSEQ (n : Nat) : Nat := 0x100000 + n * 0x1000 + 0x18
def FEL_ERR_SYNC (n : Nat) : Nat := 0x100000 + n * 0x1000 + 0x20
def FEL_ERR_CRC (n : Nat) : Nat := 0x100000 + n * 0x1000 + 0x24
def FEL_ERR_FRAME (n : Nat) : Nat := 0x100000 + n * 0x1000 + 0x28
def FEL_ERR_TIME (n : Nat) : Nat := 0x100000 + n * 0x1000 + 0x2c
def FEL_SEQ_GAP (n : Nat) : Nat := 0x100000 + n * 0x1000 + 0x30
def FEL_TRUNC (n : Nat) : Nat := 0x100000 + n * 0x1000 + 0x34
def FEL_ERR_RSVD (n : Nat) : Nat := 0x100000 + n * 0x1000 + 0x38
def FEL_LOSS (n : Nat) : Nat := 0x100000 + n * 0x1000 + 0x3c
def FEL_NOTIME (n : Nat) : Nat := 0x100000 + n * 0x1000 + 0x40
def FEL_RX_OVF (n : Nat) : Nat := 0x100000 + n * 0x1000 + 0x44
def FEL_HITS_LO (n : Nat) : Nat := 0x100000 + n * 0x1000 + 0x48
def FEL_HITS_HI (n : Nat) : Nat := 0x100000 + n * 0x1000 + 0x4c
def FEL_FRAMES (n : Nat) : Nat := 0x100000 + n * 0x1000 + 0x50
def FEL_TXCTL (n : Nat) : Nat := 0x100000 + n * 0x1000 + 0x100
def FEL_TXSTAT (n : Nat) : Nat := 0x100000 + n * 0x1000 + 0x104
def FEL_TXHDR (n : Nat) : Nat := 0x100000 + n * 0x1000 + 0x108
def FEL_TXBUF (n : Nat) (i : Nat) : Nat := 0x100000 + n * 0x1000 + 0x200 + i * 4
def FEL_RXSTAT (n : Nat) : Nat := 0x100000 + n * 0x1000 + 0x300
def FEL_RXINFO (n : Nat) : Nat := 0x100000 + n * 0x1000 + 0x304
def FEL_RXCTL (n : Nat) : Nat := 0x100000 + n * 0x1000 + 0x308
def FEL_RXBUF (n : Nat) (i : Nat) : Nat := 0x100000 + n * 0x1000 + 0x400 + i * 4
def CTB_CTL : Nat := 0x140000
def CTB_ST : Nat := 0x140004
def CTB_BASE_LO : Nat := 0x140008
def CTB_BASE_HI : Nat := 0x14000c
def CTB_NCHAN : Nat := 0x140010
def CTB_NREG : Nat := 0x140014
def CTB_INV_LO : Nat := 0x140020
def CTB_INV_HI : Nat := 0x140024
def CTB_INV_CMD : Nat := 0x140028
def CTB_INV_ST : Nat := 0x14002c
def CTB_INV_TICK_LO : Nat := 0x140030
def CTB_INV_TICK_HI : Nat := 0x140034
def CTB_BADCN : Nat := 0x140038
def CTB_ERR_CN : Nat := 0x140040
def CTB_ERR_DESC : Nat := 0x140044
def CTB_ERR_LANE : Nat := 0x140048
def CTB_ERR_REGION : Nat := 0x14004c
def CTB_UNRES : Nat := 0x140050
def CTB_UNUSED : Nat := 0x140054
def CTB_OFF : Nat := 0x140058
def CTB_ECC_CORR : Nat := 0x14005c
def CTB_ACC_LO : Nat := 0x140060
def CTB_ACC_HI : Nat := 0x140064
def CTB_FLG_LO : Nat := 0x140068
def CTB_FLG_HI : Nat := 0x14006c
def CTB_SUP_LO : Nat := 0x140070
def CTB_SUP_HI : Nat := 0x140074
def CTB_MISS_LO : Nat := 0x140078
def CTB_MISS_HI : Nat := 0x14007c
def CTB_BANK (i : Nat) : Nat := 0x140000 + 0x100 + i * 4
def SLC_LB_LO (e : Nat) : Nat := 0x160000 + e * 0x10000
def SLC_LB_HI (e : Nat) : Nat := 0x160000 + e * 0x10000 + 0x4
def SLC_LB_SIZE (e : Nat) : Nat := 0x160000 + e * 0x10000 + 0x8
def SLC_ST (e : Nat) : Nat := 0x160000 + e * 0x10000 + 0xc
def SLC_RETMIN (e : Nat) : Nat := 0x160000 + e * 0x10000 + 0x10
def SLC_NOSTREAM (e : Nat) : Nat := 0x160000 + e * 0x10000 + 0x20
def SLC_EARLY (e : Nat) : Nat := 0x160000 + e * 0x10000 + 0x24
def SLC_LATE (e : Nat) : Nat := 0x160000 + e * 0x10000 + 0x28
def SLC_FAR (e : Nat) : Nat := 0x160000 + e * 0x10000 + 0x2c
def SLC_LB_FULL (e : Nat) : Nat := 0x160000 + e * 0x10000 + 0x30
def SLC_MARK_LOST (e : Nat) : Nat := 0x160000 + e * 0x10000 + 0x34
def SLC_STORED_LO (e : Nat) : Nat := 0x160000 + e * 0x10000 + 0x40
def SLC_STORED_HI (e : Nat) : Nat := 0x160000 + e * 0x10000 + 0x44
def SLC_MARKQ (e : Nat) : Nat := 0x160000 + e * 0x10000 + 0x48
def SLC_SUB_CTL (pn : Nat) : Nat := 0x168000 + (pn % 4) * 0x10000 + (pn / 4) * 0x40
def SLC_SUB_ST (pn : Nat) : Nat := 0x168000 + (pn % 4) * 0x10000 + (pn / 4) * 0x40 + 0x4
def SLC_SUB_RING_LO (pn : Nat) : Nat := 0x168000 + (pn % 4) * 0x10000 + (pn / 4) * 0x40 + 0x8
def SLC_SUB_RING_HI (pn : Nat) : Nat := 0x168000 + (pn % 4) * 0x10000 + (pn / 4) * 0x40 + 0xc
def SLC_SUB_RGN (pn : Nat) : Nat := 0x168000 + (pn % 4) * 0x10000 + (pn / 4) * 0x40 + 0x10
def SLC_SUB_HQ (pn : Nat) : Nat := 0x168000 + (pn % 4) * 0x10000 + (pn / 4) * 0x40 + 0x14
def SLC_SUB_TDLV (pn : Nat) : Nat := 0x168000 + (pn % 4) * 0x10000 + (pn / 4) * 0x40 + 0x18
def SLC_SUB_THIT (pn : Nat) : Nat := 0x168000 + (pn % 4) * 0x10000 + (pn / 4) * 0x40 + 0x1c
def SLC_SUB_NREF (pn : Nat) : Nat := 0x168000 + (pn % 4) * 0x10000 + (pn / 4) * 0x40 + 0x20
def SLC_SUB_HTRUNC (pn : Nat) : Nat := 0x168000 + (pn % 4) * 0x10000 + (pn / 4) * 0x40 + 0x24
def SLC_SUB_OCC (pn : Nat) : Nat := 0x168000 + (pn % 4) * 0x10000 + (pn / 4) * 0x40 + 0x28
def DCF_CTL : Nat := 0x1a0000
def DCF_ST : Nat := 0x1a0004
def DCF_NOSLOT : Nat := 0x1a0008
def DCF_MISS : Nat := 0x1a000c
def DCF_ACC_LO : Nat := 0x1a0010
def DCF_ACC_HI : Nat := 0x1a0014
def DCF_SLOTS : Nat := 0x1a0018
def DCF_SLOT_CTL (t : Nat) : Nat := 0x1b0000 + t * 0x40
def DCF_SLOT_DEF (t : Nat) : Nat := 0x1b0000 + t * 0x40 + 0x4
def DCF_SLOT_PRESCALE (t : Nat) : Nat := 0x1b0000 + t * 0x40 + 0x8
def DCF_SLOT_PSCNT (t : Nat) : Nat := 0x1b0000 + t * 0x40 + 0xc
def DCF_SLOT_MISS (t : Nat) : Nat := 0x1b0000 + t * 0x40 + 0x10
def DCF_SLOT_LATE (t : Nat) : Nat := 0x1b0000 + t * 0x40 + 0x14
def DCF_SLOT_BADSN (t : Nat) : Nat := 0x1b0000 + t * 0x40 + 0x18
def DCF_SLOT_DUP (t : Nat) : Nat := 0x1b0000 + t * 0x40 + 0x1c
def DCF_SLOT_STALE (t : Nat) : Nat := 0x1b0000 + t * 0x40 + 0x20
def DCF_SLOT_LASTMISS_LO (t : Nat) : Nat := 0x1b0000 + t * 0x40 + 0x24
def DCF_SLOT_LASTMISS_HI (t : Nat) : Nat := 0x1b0000 + t * 0x40 + 0x28
def DCF_SLOT_ACC (t : Nat) : Nat := 0x1b0000 + t * 0x40 + 0x2c
def DCF_SLOT_ST (t : Nat) : Nat := 0x1b0000 + t * 0x40 + 0x30
def CLU_CTL (c : Nat) : Nat := 0x200000 + c * 0x10000
def CLU_ST (c : Nat) : Nat := 0x200000 + c * 0x10000 + 0x4
def CLU_RSV (c : Nat) : Nat := 0x200000 + c * 0x10000 + 0x8
def CLU_CMD (c : Nat) : Nat := 0x200000 + c * 0x10000 + 0xc
def CLU_CMD_ST (c : Nat) : Nat := 0x200000 + c * 0x10000 + 0x10
def CLU_MIR_LO (c : Nat) : Nat := 0x200000 + c * 0x10000 + 0x14
def CLU_MIR_HI (c : Nat) : Nat := 0x200000 + c * 0x10000 + 0x18
def CLU_TRC_LO (c : Nat) : Nat := 0x200000 + c * 0x10000 + 0x1c
def CLU_TRC_HI (c : Nat) : Nat := 0x200000 + c * 0x10000 + 0x20
def CLU_TRC_SIZE (c : Nat) : Nat := 0x200000 + c * 0x10000 + 0x24
def CLU_TOCNT (c : Nat) : Nat := 0x200000 + c * 0x10000 + 0x28
def CLU_FOCNT (c : Nat) : Nat := 0x200000 + c * 0x10000 + 0x2c
def CLU_LP_MAP (lp : Nat) : Nat := 0x200100 + (lp / 8) * 0x10000 + (lp % 8) * 0x20
def CLU_LP_WCTL (lp : Nat) : Nat := 0x200100 + (lp / 8) * 0x10000 + (lp % 8) * 0x20 + 0x4
def CLU_LP_FOA_LO (lp : Nat) : Nat := 0x200100 + (lp / 8) * 0x10000 + (lp % 8) * 0x20 + 0x8
def CLU_LP_FOA_HI (lp : Nat) : Nat := 0x200100 + (lp / 8) * 0x10000 + (lp % 8) * 0x20 + 0xc
def CLU_LP_FOB_LO (lp : Nat) : Nat := 0x200100 + (lp / 8) * 0x10000 + (lp % 8) * 0x20 + 0x10
def CLU_LP_FOB_HI (lp : Nat) : Nat := 0x200100 + (lp / 8) * 0x10000 + (lp % 8) * 0x20 + 0x14
def CLU_LP_WST (lp : Nat) : Nat := 0x200100 + (lp / 8) * 0x10000 + (lp % 8) * 0x20 + 0x18
def CLU_LP_CKPT (lp : Nat) : Nat := 0x200100 + (lp / 8) * 0x10000 + (lp % 8) * 0x20 + 0x1c
def CLU_WT_LO (lp b e : Nat) : Nat := 0x204000 + (lp / 8) * 0x10000 + (lp % 8) * 0x400 + b * 0x200 + e * 8
def CLU_WT_HI (lp b e : Nat) : Nat := 0x204000 + (lp / 8) * 0x10000 + (lp % 8) * 0x400 + b * 0x200 + e * 8 + 0x4
def CLU_SPCFG : Nat := 0x280000
def CLU_SP_ST : Nat := 0x280004
def CLU_PCL_ST : Nat := 0x280008
def CLU_SP_CMD : Nat := 0x28000c
def CLU_SP_CMD_ST : Nat := 0x280010
def CLU_ROT_ST : Nat := 0x280014
def CLU_ROT_BLK : Nat := 0x280018
def CLU_ROTAGE (p : Nat) : Nat := 0x280040 + p * 4
def PAI_ST (pp : Nat) : Nat := 0x300000 + pp * 0x1000
def PAI_RTEV (pp : Nat) : Nat := 0x300000 + pp * 0x1000 + 0x4
def PAI_RTATT (pp : Nat) : Nat := 0x300000 + pp * 0x1000 + 0x8
def PAI_MIS (pp : Nat) : Nat := 0x300000 + pp * 0x1000 + 0xc
def PAI_MISPC_LO (pp : Nat) : Nat := 0x300000 + pp * 0x1000 + 0x10
def PAI_MISPC_HI (pp : Nat) : Nat := 0x300000 + pp * 0x1000 + 0x14
def PAI_INJ (pp : Nat) : Nat := 0x300000 + pp * 0x1000 + 0x18
def PAI_TEST (pp : Nat) : Nat := 0x300000 + pp * 0x1000 + 0x1c
def PAI_DBG_CTL (pp : Nat) : Nat := 0x300000 + pp * 0x1000 + 0x20
def PAI_DBG_ST (pp : Nat) : Nat := 0x300000 + pp * 0x1000 + 0x24
def PAI_TRC_CTL (pp : Nat) : Nat := 0x300000 + pp * 0x1000 + 0x28
def PAI_TRC_ST (pp : Nat) : Nat := 0x300000 + pp * 0x1000 + 0x2c
def CHS_CTL : Nat := 0x400000
def CHS_ST : Nat := 0x400004
def CHS_WORK_LO : Nat := 0x400008
def CHS_WORK_HI : Nat := 0x40000c
def CHS_RST_LO : Nat := 0x400010
def CHS_RST_HI : Nat := 0x400014
def CHS_RST_SIZE : Nat := 0x400018
def CHS_CMD_LO : Nat := 0x400020
def CHS_CMD_HI : Nat := 0x400024
def CHS_CMD_ST : Nat := 0x400028
def CHS_TAGS : Nat := 0x400030
def CHS_CREQ : Nat := 0x400034
def CHS_STALE : Nat := 0x400040
def CHS_DBSTALE : Nat := 0x400044
def CHS_DBPERM : Nat := 0x400048
def CHS_LOSSES : Nat := 0x40004c
def CHS_REDO : Nat := 0x400050
def CHS_DONE_LO : Nat := 0x400058
def CHS_DONE_HI : Nat := 0x40005c
def CHS_DB_LO : Nat := 0x400060
def CHS_DB_HI : Nat := 0x400064
def CHS_REC : Nat := 0x400070
def CHS_STAGE (i : Nat) : Nat := 0x400000 + 0x100 + i * 4
def CHS_SCSEL : Nat := 0x400400
def CHS_SCSTAT : Nat := 0x400404
def CHS_SCIDX : Nat := 0x400408
def CHS_SCINFL : Nat := 0x40040c
def CHS_SCINST : Nat := 0x400410
def CHS_P_RDSC (pn : Nat) : Nat := 0x430000 + pn * 0x20
def CHS_P_TAGLIM (pn : Nat) : Nat := 0x430000 + pn * 0x20 + 0x4
def CHS_P_TAGUSE (pn : Nat) : Nat := 0x430000 + pn * 0x20 + 0x8
def CHS_P_PSLOT (pn : Nat) : Nat := 0x430000 + pn * 0x20 + 0xc
def CHS_P_LOSS (pn : Nat) : Nat := 0x430000 + pn * 0x20 + 0x10
def CHS_P_LSUM (pn : Nat) : Nat := 0x430000 + pn * 0x20 + 0x14
def CHS_P_LCMD (pn : Nat) : Nat := 0x430000 + pn * 0x20 + 0x18
def CHS_P_LRUN (pn : Nat) : Nat := 0x430000 + pn * 0x20 + 0x1c
def CMP_CTL (e : Nat) : Nat := 0x500000 + e * 0x1000
def CMP_ST (e : Nat) : Nat := 0x500000 + e * 0x1000 + 0x4
def CMP_IN_LO (e : Nat) : Nat := 0x500000 + e * 0x1000 + 0x8
def CMP_IN_HI (e : Nat) : Nat := 0x500000 + e * 0x1000 + 0xc
def CMP_OUT_LO (e : Nat) : Nat := 0x500000 + e * 0x1000 + 0x10
def CMP_OUT_HI (e : Nat) : Nat := 0x500000 + e * 0x1000 + 0x14
def CMP_RECS_LO (e : Nat) : Nat := 0x500000 + e * 0x1000 + 0x18
def CMP_RECS_HI (e : Nat) : Nat := 0x500000 + e * 0x1000 + 0x1c
def CMP_FAIL (e : Nat) : Nat := 0x500000 + e * 0x1000 + 0x20
def CMP_NOSPACE (e : Nat) : Nat := 0x500000 + e * 0x1000 + 0x24
def CMP_EXPAND (e : Nat) : Nat := 0x500000 + e * 0x1000 + 0x28
def CMP_LASTERR (e : Nat) : Nat := 0x500000 + e * 0x1000 + 0x2c
def WRR_CTL (p : Nat) : Nat := 0x580000 + p * 0x20000
def WRR_ST (p : Nat) : Nat := 0x580000 + p * 0x20000 + 0x4
def WRR_MTU (p : Nat) : Nat := 0x580000 + p * 0x20000 + 0x8
def WRR_TXPKT_LO (p : Nat) : Nat := 0x580000 + p * 0x20000 + 0x200
def WRR_TXPKT_HI (p : Nat) : Nat := 0x580000 + p * 0x20000 + 0x204
def WRR_RETX (p : Nat) : Nat := 0x580000 + p * 0x20000 + 0x208
def WRR_RXACK (p : Nat) : Nat := 0x580000 + p * 0x20000 + 0x20c
def WRR_RXBAD (p : Nat) : Nat := 0x580000 + p * 0x20000 + 0x210
def WRR_RXSTALE (p : Nat) : Nat := 0x580000 + p * 0x20000 + 0x214
def WRR_RXDROP (p : Nat) : Nat := 0x580000 + p * 0x20000 + 0x218
def WRR_FECCORR (p : Nat) : Nat := 0x580000 + p * 0x20000 + 0x21c
def WRR_FECUNC (p : Nat) : Nat := 0x580000 + p * 0x20000 + 0x220
def WRR_PAUSE (p : Nat) : Nat := 0x580000 + p * 0x20000 + 0x224
def WRR_SP_MAC_LO (p q : Nat) : Nat := 0x580100 + p * 0x20000 + q * 0x40
def WRR_SP_MAC_HI (p q : Nat) : Nat := 0x580100 + p * 0x20000 + q * 0x40 + 0x4
def WRR_SP_IP4 (p q : Nat) : Nat := 0x580100 + p * 0x20000 + q * 0x40 + 0x8
def WRR_SP_IP6 (p q : Nat) (i : Nat) : Nat := 0x580100 + p * 0x20000 + q * 0x40 + 0xc + i * 4
def WRR_SP_CFG (p q : Nat) : Nat := 0x580100 + p * 0x20000 + q * 0x40 + 0x1c
def PRT_STATE (pn : Nat) : Nat := 0x2000000 + pn * 0x1000
def PRT_CMD (pn : Nat) : Nat := 0x2000000 + pn * 0x1000 + 0x4
def PRT_CMD_ST (pn : Nat) : Nat := 0x2000000 + pn * 0x1000 + 0x8
def PRT_ARG (pn : Nat) : Nat := 0x2000000 + pn * 0x1000 + 0xc
def PRT_PTB_LO (pn : Nat) : Nat := 0x2000000 + pn * 0x1000 + 0x10
def PRT_PTB_HI (pn : Nat) : Nat := 0x2000000 + pn * 0x1000 + 0x14
def PRT_ENTRY_LO (pn : Nat) : Nat := 0x2000000 + pn * 0x1000 + 0x18
def PRT_ENTRY_HI (pn : Nat) : Nat := 0x2000000 + pn * 0x1000 + 0x1c
def PRT_QSD (pn : Nat) : Nat := 0x2000000 + pn * 0x1000 + 0x20
def PRT_QRD (pn : Nat) : Nat := 0x2000000 + pn * 0x1000 + 0x24
def PRT_QHBM (pn : Nat) : Nat := 0x2000000 + pn * 0x1000 + 0x28
def PRT_QCW (pn : Nat) : Nat := 0x2000000 + pn * 0x1000 + 0x2c
def PRT_USE (pn : Nat) : Nat := 0x2000000 + pn * 0x1000 + 0x30
def PRT_QOCC (pn : Nat) : Nat := 0x2000000 + pn * 0x1000 + 0x34
def PRT_STALE (pn : Nat) : Nat := 0x2000000 + pn * 0x1000 + 0x38
def PRT_STALESRC (pn : Nat) : Nat := 0x2000000 + pn * 0x1000 + 0x3c
def PRT_ERR (pn : Nat) : Nat := 0x2000000 + pn * 0x1000 + 0x40
def PRT_ERRINFO (pn : Nat) : Nat := 0x2000000 + pn * 0x1000 + 0x44
def PRT_EVT (pn : Nat) : Nat := 0x2000000 + pn * 0x1000 + 0x48
def PRT_EVTEN (pn : Nat) : Nat := 0x2000000 + pn * 0x1000 + 0x4c
def PRT_EVTVEC (pn : Nat) : Nat := 0x2000000 + pn * 0x1000 + 0x50
def PRT_MISS (pn : Nat) : Nat := 0x2000000 + pn * 0x1000 + 0x54
def PRT_CHS_CMD_LO (pn : Nat) : Nat := 0x2000000 + pn * 0x1000 + 0x60
def PRT_CHS_CMD_HI (pn : Nat) : Nat := 0x2000000 + pn * 0x1000 + 0x64
def PRT_CHS_CMD_ST (pn : Nat) : Nat := 0x2000000 + pn * 0x1000 + 0x68
def PRT_STAGE_IDX (pn : Nat) : Nat := 0x2000000 + pn * 0x1000 + 0x6c
def PRT_STAGE_DATA (pn : Nat) : Nat := 0x2000000 + pn * 0x1000 + 0x70
def PRT_DB_LO (pn : Nat) : Nat := 0x2000000 + pn * 0x1000 + 0x74
def PRT_DB_HI (pn : Nat) : Nat := 0x2000000 + pn * 0x1000 + 0x78
def PRT_LOSS (pn : Nat) : Nat := 0x2000000 + pn * 0x1000 + 0x80
def PRT_LSUM (pn : Nat) : Nat := 0x2000000 + pn * 0x1000 + 0x84
def PRT_LCMD (pn : Nat) : Nat := 0x2000000 + pn * 0x1000 + 0x88
def PRT_LRUN (pn : Nat) : Nat := 0x2000000 + pn * 0x1000 + 0x8c
def PRT_SEC_CMD_LO (pn : Nat) : Nat := 0x2000000 + pn * 0x1000 + 0x90
def PRT_SEC_CMD_HI (pn : Nat) : Nat := 0x2000000 + pn * 0x1000 + 0x94
def PRT_SEC_ARG_LO (pn : Nat) : Nat := 0x2000000 + pn * 0x1000 + 0x98
def PRT_SEC_ARG_HI (pn : Nat) : Nat := 0x2000000 + pn * 0x1000 + 0x9c
def PRT_SEC_OUT_LO (pn : Nat) : Nat := 0x2000000 + pn * 0x1000 + 0xa0
def PRT_SEC_OUT_HI (pn : Nat) : Nat := 0x2000000 + pn * 0x1000 + 0xa4
def PRT_SEC_CMD_ST (pn : Nat) : Nat := 0x2000000 + pn * 0x1000 + 0xa8

-- The rows.

def rows_mgt : List RegRow := [
  ⟨0x0, 1, 4, 0x0, [fld 16 4 .ro [], fld 8 4 .ro [], fld 0 8 .ro []]⟩,
  ⟨0x4, 1, 4, 0x0, [fld 8 3 .ro [], fld 0 3 .ro []]⟩,
  ⟨0x8, 1, 4, 0x0, [fld 8 8 .wo [], fld 0 8 .wo []]⟩,
  ⟨0xc, 1, 4, 0x0, [fld 8 1 .ro [], fld 0 8 .ro []]⟩,
  ⟨0x10, 1, 4, 0x0, [fld 0 32 .rw []]⟩,
  ⟨0x14, 1, 4, 0x0, [fld 0 32 .rw []]⟩,
  ⟨0x18, 1, 4, 0x0, [fld 0 32 .rw []]⟩,
  ⟨0x20, 1, 4, 0x0, [fld 0 9 .w1c []]⟩,
  ⟨0x24, 1, 4, 0x0, [fld 0 9 .rw []]⟩,
  ⟨0x28, 1, 4, 0x3020100, [fld 24 6 .rw [], fld 16 6 .rw [], fld 8 6 .rw [], fld 0 6 .rw []]⟩,
  ⟨0x2c, 1, 4, 0x7060504, [fld 24 6 .rw [], fld 16 6 .rw [], fld 8 6 .rw [], fld 0 6 .rw []]⟩,
  ⟨0x30, 1, 4, 0x8, [fld 0 6 .rw []]⟩,
  ⟨0x34, 1, 4, 0x0, [fld 31 1 .rc [], fld 30 1 .rc [], fld 0 11 .rc []]⟩,
  ⟨0x40, 1, 4, 0x0, [fld 8 9 .ro [], fld 0 8 .ro []]⟩,
  ⟨0x44, 1, 4, 0x0, [fld 0 8 .rw []]⟩,
  ⟨0x48, 4, 4, 0x0, [fld 0 32 .ro []]⟩,
  ⟨0x58, 1, 4, 0x0, [fld 0 32 .rc []]⟩,
  ⟨0x60, 1, 4, 0x0, [fld 0 16 .ro []]⟩,
  ⟨0x64, 1, 4, 0x0, [fld 0 16 .ro []]⟩,
  ⟨0x68, 1, 4, 0x640, [fld 0 16 .rw []]⟩,
  ⟨0x70, 1, 4, 0x0, [fld 8 1 .rw [], fld 1 7 .ro [], fld 0 1 .rw []]⟩,
  ⟨0x74, 1, 4, 0x0, [fld 0 32 .rc []]⟩,
  ⟨0x78, 1, 4, 0x0, [fld 31 1 .ro [], fld 0 7 .ro []]⟩,
  ⟨0x7c, 1, 4, 0x0, [fld 0 1 .w1c []]⟩]

def rows_elc : List RegRow := [
  ⟨0x0, 1, 4, 0x0, [fld 16 10 .ro [], fld 0 8 .ro []]⟩,
  ⟨0x4, 1, 4, 0x0, [fld 16 1 .ro [], fld 8 8 .rw [(51, 255)], fld 0 8 .rw [(51, 255)]]⟩,
  ⟨0x8, 1, 4, 0x0, [fld 16 8 .ro [], fld 0 8 .ro []]⟩,
  ⟨0xc, 1, 4, 0x0, [fld 0 3 .ro []]⟩,
  ⟨0x10, 2, 4, 0x0, [fld 0 2 .rw [(3, 3)]]⟩,
  ⟨0x20, 1, 4, 0x0, [fld 0 16 .rw []]⟩,
  ⟨0x24, 1, 4, 0x0, [fld 0 16 .rw []]⟩,
  ⟨0x28, 1, 4, 0x0, [fld 0 16 .ro []]⟩,
  ⟨0x2c, 1, 4, 0x0, [fld 0 16 .rw []]⟩,
  ⟨0x30, 1, 4, 0x232, [fld 9 2 .rw [(3, 3)], fld 8 1 .rw [], fld 5 2 .rw [(3, 3)], fld 4 1 .rw [], fld 1 2 .rw [(3, 3)], fld 0 1 .rw []]⟩,
  ⟨0x34, 1, 4, 0x0, [fld 0 3 .rw [(6, 7)]]⟩]

def rows_elcFeeq : List RegRow := [
  ⟨0x0, 1, 4, 0x88001f80, [fld 31 1 .rw [], fld 24 4 .rw [], fld 13 5 .rw [], fld 7 6 .rw [], fld 3 4 .rw []]⟩]

def rows_elcEtheq : List RegRow := [
  ⟨0x0, 1, 4, 0x1f80, [fld 13 5 .rw [], fld 7 6 .rw [], fld 3 4 .rw []]⟩]

def rows_tim : List RegRow := [
  ⟨0x0, 1, 4, 0x0, [fld 8 1 .ro [], fld 0 3 .ro []]⟩,
  ⟨0x4, 1, 4, 0x0, [fld 0 32 .ro []]⟩,
  ⟨0x8, 1, 4, 0x0, [fld 0 32 .ro []]⟩,
  ⟨0xc, 1, 4, 0x0, [fld 0 28 .ro []]⟩,
  ⟨0x10, 1, 4, 0x1, [fld 0 4 .rw [(0, 0)]]⟩,
  ⟨0x14, 1, 4, 0x0, [fld 0 32 .rc []]⟩,
  ⟨0x18, 1, 4, 0x0, [fld 0 32 .rc []]⟩,
  ⟨0x1c, 1, 4, 0x0, [fld 0 32 .rc []]⟩,
  ⟨0x20, 1, 4, 0x0, [fld 0 32 .rc []]⟩,
  ⟨0x24, 1, 4, 0x0, [fld 16 6 .ro [], fld 0 7 .ro []]⟩,
  ⟨0x30, 1, 4, 0x0, [fld 1 1 .rw [], fld 0 1 .rw []]⟩,
  ⟨0x34, 1, 4, 0x0, [fld 0 32 .ro []]⟩]

def rows_timStr : List RegRow := [
  ⟨0x0, 1, 4, 0x0, [fld 1 1 .ro [], fld 0 1 .rw []]⟩,
  ⟨0x4, 1, 4, 0x0, [fld 0 8 .ro []]⟩,
  ⟨0x8, 1, 4, 0x0, [fld 0 32 .rw []]⟩,
  ⟨0xc, 1, 4, 0x0, [fld 0 28 .rw []]⟩,
  ⟨0x10, 1, 4, 0x8, [fld 0 13 .rw [(0, 7), (4097, 8191)]]⟩,
  ⟨0x14, 1, 4, 0x0, [fld 0 9 .rw [(257, 511)]]⟩,
  ⟨0x18, 1, 4, 0x1000, [fld 0 13 .rw []]⟩,
  ⟨0x1c, 1, 4, 0x0, [fld 0 13 .ro []]⟩,
  ⟨0x20, 1, 4, 0x0, [fld 0 32 .rw []]⟩,
  ⟨0x24, 1, 4, 0x0, [fld 0 32 .rw []]⟩,
  ⟨0x28, 1, 4, 0x0, [fld 0 32 .ro []]⟩,
  ⟨0x2c, 1, 4, 0x0, [fld 31 1 .ro [], fld 0 16 .ro []]⟩,
  ⟨0x30, 1, 4, 0x0, [fld 21 11 .rw []]⟩,
  ⟨0x34, 1, 4, 0x0, [fld 0 3 .rw []]⟩,
  ⟨0x38, 1, 4, 0x0, [fld 21 11 .rw []]⟩,
  ⟨0x3c, 1, 4, 0x0, [fld 0 3 .rw []]⟩,
  ⟨0x40, 1, 4, 0x0, [fld 0 24 .rw [(0, 64)]]⟩,
  ⟨0x44, 1, 4, 0x3e8, [fld 0 17 .rw [(0, 999), (100001, 131071)]]⟩]

def rows_timMark : List RegRow := [
  ⟨0x0, 1, 4, 0x0, [fld 0 32 .ro []]⟩,
  ⟨0x4, 1, 4, 0x0, [fld 0 28 .ro []]⟩,
  ⟨0x8, 1, 4, 0x0, [fld 0 16 .ro []]⟩]

def rows_sec : List RegRow := [
  ⟨0x0, 1, 4, 0x0, [fld 16 1 .ro [], fld 9 1 .ro [], fld 8 1 .ro [], fld 0 4 .ro []]⟩,
  ⟨0x4, 1, 4, 0x0, [fld 0 8 .ro []]⟩,
  ⟨0x8, 1, 4, 0x0, [fld 0 32 .ro []]⟩,
  ⟨0xc, 1, 4, 0x0, [fld 0 32 .ro []]⟩,
  ⟨0x10, 1, 4, 0x0, [fld 0 32 .ro []]⟩,
  ⟨0x14, 1, 4, 0x0, [fld 18 6 .ro [], fld 12 6 .ro [], fld 6 6 .ro []]⟩,
  ⟨0x18, 1, 4, 0x0, [fld 0 4 .ro []]⟩,
  ⟨0x1c, 1, 4, 0x0, [fld 1 1 .ro [], fld 0 1 .ro []]⟩,
  ⟨0x20, 1, 4, 0x0, [fld 21 11 .rw []]⟩,
  ⟨0x24, 1, 4, 0x0, [fld 0 3 .rw []]⟩,
  ⟨0x30, 1, 4, 0x0, [fld 0 32 .wo []]⟩,
  ⟨0x34, 1, 4, 0x0, [fld 0 32 .wo []]⟩,
  ⟨0x38, 1, 4, 0x0, [fld 6 26 .rw []]⟩,
  ⟨0x3c, 1, 4, 0x0, [fld 0 16 .rw []]⟩,
  ⟨0x40, 1, 4, 0x0, [fld 6 26 .rw []]⟩,
  ⟨0x44, 1, 4, 0x0, [fld 0 16 .rw []]⟩,
  ⟨0x48, 1, 4, 0x0, [fld 8 1 .ro [], fld 0 8 .ro []]⟩,
  ⟨0x4c, 1, 4, 0x0, [fld 0 7 .ro []]⟩,
  ⟨0x50, 1, 4, 0x0, [fld 0 32 .rc []]⟩,
  ⟨0x54, 1, 4, 0x0, [fld 0 32 .rc []]⟩,
  ⟨0x58, 1, 4, 0x0, [fld 0 32 .rc []]⟩]

def rows_secMr : List RegRow := [
  ⟨0x0, 12, 4, 0x0, [fld 0 32 .ro []]⟩]

def rows_secRe : List RegRow := [
  ⟨0x0, 1, 4, 0x0, [fld 0 32 .ro []]⟩,
  ⟨0x4, 1, 4, 0x0, [fld 0 32 .ro []]⟩]

def rows_nvs : List RegRow := [
  ⟨0x0, 1, 4, 0x0, [fld 0 2 .wo [(0, 0), (3, 3)]]⟩,
  ⟨0x4, 1, 4, 0x0, [fld 17 1 .ro [], fld 16 1 .ro [], fld 8 1 .ro [], fld 0 8 .ro []]⟩,
  ⟨0x8, 1, 4, 0x0, [fld 0 14 .rw [(15353, 16383)]]⟩,
  ⟨0xc, 1, 4, 0x0, [fld 0 14 .rw [(15352, 16383)]]⟩,
  ⟨0x10, 1, 4, 0x0, [fld 0 32 .rw []]⟩,
  ⟨0x14, 1, 4, 0x0, [fld 0 32 .rw []]⟩,
  ⟨0x18, 1, 4, 0x0, [fld 0 32 .ro []]⟩,
  ⟨0x1c, 1, 4, 0x0, [fld 0 32 .ro []]⟩,
  ⟨0x20, 1, 4, 0x0, [fld 0 32 .ro []]⟩,
  ⟨0x24, 1, 4, 0x0, [fld 0 32 .ro []]⟩,
  ⟨0x28, 1, 4, 0x0, [fld 0 32 .ro []]⟩,
  ⟨0x2c, 1, 4, 0x0, [fld 0 32 .ro []]⟩,
  ⟨0x30, 1, 4, 0x0, [fld 16 16 .ro [], fld 0 16 .ro []]⟩]

def rows_pwr : List RegRow := [
  ⟨0x0, 1, 4, 0x0, [fld 0 8 .ro []]⟩,
  ⟨0x4, 1, 4, 0x0, [fld 0 32 .rc []]⟩]

def rows_pwrD : List RegRow := [
  ⟨0x0, 1, 4, 0xf, [fld 14 2 .ro [], fld 12 2 .ro [], fld 10 2 .ro [], fld 8 2 .ro [], fld 2 2 .rw [], fld 0 2 .rw []]⟩,
  ⟨0x4, 1, 4, 0x0, [fld 8 8 .ro [], fld 6 1 .ro [], fld 4 2 .ro [], fld 2 2 .ro [], fld 0 2 .ro []]⟩,
  ⟨0x8, 1, 4, 0x0, [fld 0 5 .rw []]⟩,
  ⟨0xc, 1, 4, 0x0, [fld 0 32 .rc []]⟩]

def rows_pwrPv : List RegRow := [
  ⟨0x0, 1, 4, 0x0, [fld 0 2 .rw [(3, 3)]]⟩]

def rows_bst : List RegRow := [
  ⟨0x0, 1, 4, 0x101e0, [fld 16 1 .rw [], fld 0 16 .rw [(0, 0)]]⟩,
  ⟨0x4, 1, 4, 0x0, [fld 8 8 .wo [], fld 0 4 .wo [(0, 0), (5, 15)]]⟩,
  ⟨0x8, 1, 4, 0x0, [fld 8 1 .ro [], fld 0 8 .ro []]⟩,
  ⟨0xc, 1, 4, 0x0, [fld 8 8 .ro [], fld 0 4 .ro []]⟩,
  ⟨0x10, 1, 4, 0x0, [fld 0 32 .ro []]⟩,
  ⟨0x14, 1, 4, 0x0, [fld 0 32 .ro []]⟩,
  ⟨0x18, 1, 4, 0x0, [fld 0 32 .ro []]⟩,
  ⟨0x1c, 1, 4, 0x0, [fld 0 32 .ro []]⟩,
  ⟨0x20, 1, 4, 0x0, [fld 16 16 .ro [], fld 0 8 .ro []]⟩,
  ⟨0x24, 1, 4, 0x0, [fld 31 1 .ro [], fld 0 16 .ro []]⟩,
  ⟨0x28, 1, 4, 0x0, [fld 24 8 .ro [], fld 16 4 .ro [], fld 0 4 .ro []]⟩,
  ⟨0x2c, 1, 4, 0x0, [fld 16 4 .ro [], fld 0 16 .ro []]⟩,
  ⟨0x30, 1, 4, 0x0, [fld 0 32 .rc []]⟩]

def rows_mem : List RegRow := [
  ⟨0x0, 1, 4, 0x0, [fld 0 8 .ro []]⟩,
  ⟨0x4, 1, 4, 0x0, [fld 31 1 .rw [], fld 0 2 .rw [(2, 3)]]⟩,
  ⟨0x8, 1, 4, 0x0, [fld 0 32 .rc []]⟩,
  ⟨0xc, 1, 4, 0x0, [fld 0 32 .rc []]⟩,
  ⟨0x10, 1, 4, 0x320, [fld 0 16 .ro []]⟩,
  ⟨0x14, 1, 4, 0x0, [fld 0 16 .ro []]⟩,
  ⟨0x20, 4, 4, 0x0, [fld 31 1 .rw [], fld 16 14 .rw [], fld 0 14 .rw []]⟩]

def rows_memCl : List RegRow := [
  ⟨0x0, 1, 4, 0xace1, [fld 0 16 .rw [(0, 0)]]⟩,
  ⟨0x4, 1, 4, 0x0, [fld 0 8 .ro []]⟩,
  ⟨0x8, 1, 4, 0x0, [fld 6 26 .rw []]⟩,
  ⟨0xc, 1, 4, 0x0, [fld 0 3 .rw []]⟩,
  ⟨0x10, 1, 4, 0x1, [fld 0 17 .rw [(0, 0), (65537, 131071)]]⟩,
  ⟨0x14, 1, 4, 0x0, [fld 0 2 .wo [(0, 0)]]⟩,
  ⟨0x18, 1, 4, 0x0, [fld 16 4 .ro [], fld 8 1 .ro [], fld 0 8 .ro []]⟩,
  ⟨0x1c, 1, 4, 0x0, [fld 0 17 .ro []]⟩,
  ⟨0x20, 1, 4, 0x0, [fld 0 32 .ro []]⟩,
  ⟨0x24, 1, 4, 0x0, [fld 0 32 .ro []]⟩,
  ⟨0x28, 1, 4, 0x0, [fld 16 16 .rc [], fld 0 16 .rc []]⟩,
  ⟨0x2c, 1, 4, 0x0, [fld 0 32 .rc []]⟩]

def rows_memCo : List RegRow := [
  ⟨0x0, 1, 4, 0x1, [fld 8 2 .rw [], fld 4 2 .rw [], fld 0 1 .rw []]⟩,
  ⟨0x4, 1, 4, 0x0, [fld 0 8 .ro []]⟩,
  ⟨0x8, 1, 4, 0x0, [fld 14 18 .rw []]⟩,
  ⟨0xc, 1, 4, 0x0, [fld 0 3 .rw []]⟩,
  ⟨0x10, 1, 4, 0xace1ace1, [fld 16 16 .rw [(0, 0)], fld 0 16 .rw [(0, 0)]]⟩,
  ⟨0x14, 1, 4, 0x0, [fld 0 32 .ro []]⟩,
  ⟨0x18, 1, 4, 0x0, [fld 31 1 .w1c [], fld 30 1 .w1c [], fld 24 4 .ro [], fld 0 16 .ro []]⟩,
  ⟨0x1c, 1, 4, 0x0, [fld 0 32 .rc []]⟩,
  ⟨0x20, 1, 4, 0x0, [fld 0 32 .rc []]⟩,
  ⟨0x24, 1, 4, 0x0, [fld 16 16 .rc [], fld 0 16 .rc []]⟩,
  ⟨0x28, 1, 4, 0x0, [fld 0 5 .rc []]⟩,
  ⟨0x2c, 1, 4, 0x0, [fld 31 1 .ro [], fld 8 11 .ro [], fld 0 8 .ro []]⟩]

def rows_felCom : List RegRow := [
  ⟨0x0, 1, 4, 0x0, [fld 0 16 .wo []]⟩,
  ⟨0x4, 1, 4, 0x0, [fld 0 8 .ro []]⟩,
  ⟨0x8, 1, 4, 0x0, [fld 0 32 .rw []]⟩,
  ⟨0xc, 1, 4, 0x0, [fld 0 32 .rw []]⟩,
  ⟨0x10, 1, 4, 0x0, [fld 0 32 .ro []]⟩,
  ⟨0x14, 1, 4, 0x0, [fld 0 32 .ro []]⟩,
  ⟨0x18, 1, 4, 0x0, [fld 0 32 .w1c []]⟩,
  ⟨0x1c, 1, 4, 0x0, [fld 0 32 .w1c []]⟩,
  ⟨0x20, 1, 4, 0x1000, [fld 0 16 .rw [(0, 0)]]⟩]

def rows_felLane_0 : List RegRow := [
  ⟨0x0, 1, 4, 0x0, [fld 6 1 .rw [], fld 5 1 .rw [], fld 4 1 .wo [], fld 3 1 .rw [], fld 1 2 .rw [(2, 3)], fld 0 1 .rw []]⟩,
  ⟨0x4, 1, 4, 0x0, [fld 18 6 .ro [], fld 17 1 .ro [], fld 8 8 .ro [], fld 4 4 .ro [], fld 0 4 .ro []]⟩,
  ⟨0x8, 1, 4, 0x610000, [fld 16 16 .rw [(0, 0)]]⟩,
  ⟨0xc, 1, 4, 0x0, [fld 0 12 .rw []]⟩,
  ⟨0x10, 1, 4, 0x0, [fld 31 1 .ro [], fld 0 20 .ro []]⟩,
  ⟨0x14, 1, 4, 0x0, [fld 16 8 .ro [], fld 8 8 .ro [], fld 0 4 .ro []]⟩,
  ⟨0x18, 1, 4, 0x0, [fld 0 16 .ro []]⟩,
  ⟨0x20, 1, 4, 0x0, [fld 0 32 .rc []]⟩,
  ⟨0x24, 1, 4, 0x0, [fld 0 32 .rc []]⟩,
  ⟨0x28, 1, 4, 0x0, [fld 0 32 .rc []]⟩,
  ⟨0x2c, 1, 4, 0x0, [fld 0 32 .rc []]⟩,
  ⟨0x30, 1, 4, 0x0, [fld 0 32 .rc []]⟩,
  ⟨0x34, 1, 4, 0x0, [fld 0 32 .rc []]⟩,
  ⟨0x38, 1, 4, 0x0, [fld 0 32 .rc []]⟩,
  ⟨0x3c, 1, 4, 0x0, [fld 0 32 .rc []]⟩,
  ⟨0x40, 1, 4, 0x0, [fld 0 32 .rc []]⟩,
  ⟨0x44, 1, 4, 0x0, [fld 0 32 .rc []]⟩,
  ⟨0x48, 1, 4, 0x0, [fld 0 32 .ro []]⟩,
  ⟨0x4c, 1, 4, 0x0, [fld 0 32 .ro []]⟩,
  ⟨0x50, 1, 4, 0x0, [fld 0 32 .ro []]⟩,
  ⟨0x100, 1, 4, 0x0, [fld 0 1 .wo []]⟩,
  ⟨0x104, 1, 4, 0x0, [fld 16 16 .ro [], fld 8 1 .ro [], fld 0 8 .ro []]⟩,
  ⟨0x108, 1, 4, 0x0, [fld 16 16 .rw [], fld 8 6 .rw [(33, 63)]]⟩,
  ⟨0x200, 64, 4, 0x0, [fld 0 32 .rw []]⟩,
  ⟨0x300, 1, 4, 0x0, [fld 16 16 .ro [], fld 8 6 .ro [], fld 0 1 .ro []]⟩]

def rows_felLane_1 : List RegRow := [
  ⟨0x304, 1, 4, 0x0, [fld 0 16 .ro []]⟩,
  ⟨0x308, 1, 4, 0x0, [fld 0 1 .wo []]⟩,
  ⟨0x400, 64, 4, 0x0, [fld 0 32 .ro []]⟩]

def rows_felLane : List RegRow := rows_felLane_0 ++ rows_felLane_1

def rows_ctb_0 : List RegRow := [
  ⟨0x0, 1, 4, 0x0, [fld 0 1 .rw []]⟩,
  ⟨0x4, 1, 4, 0x0, [fld 0 8 .ro []]⟩,
  ⟨0x8, 1, 4, 0x0, [fld 21 11 .rw []]⟩,
  ⟨0xc, 1, 4, 0x0, [fld 0 3 .rw []]⟩,
  ⟨0x10, 1, 4, 0x40000, [fld 0 19 .rw [(0, 0), (262145, 524287)]]⟩,
  ⟨0x14, 1, 4, 0x1000, [fld 0 13 .rw [(0, 0), (4097, 8191)]]⟩,
  ⟨0x20, 1, 4, 0x0, [fld 0 18 .rw []]⟩,
  ⟨0x24, 1, 4, 0x0, [fld 0 18 .rw []]⟩,
  ⟨0x28, 1, 4, 0x0, [fld 0 2 .wo [(0, 0)]]⟩,
  ⟨0x2c, 1, 4, 0x0, [fld 8 1 .ro [], fld 0 8 .ro []]⟩,
  ⟨0x30, 1, 4, 0x0, [fld 0 32 .ro []]⟩,
  ⟨0x34, 1, 4, 0x0, [fld 31 1 .ro [], fld 0 28 .ro []]⟩,
  ⟨0x38, 1, 4, 0x0, [fld 31 1 .rc [], fld 24 4 .rc [], fld 18 6 .rc [], fld 0 18 .rc []]⟩,
  ⟨0x40, 1, 4, 0x0, [fld 0 32 .rc []]⟩,
  ⟨0x44, 1, 4, 0x0, [fld 0 32 .rc []]⟩,
  ⟨0x48, 1, 4, 0x0, [fld 0 32 .rc []]⟩,
  ⟨0x4c, 1, 4, 0x0, [fld 0 32 .rc []]⟩,
  ⟨0x50, 1, 4, 0x0, [fld 0 32 .rc []]⟩,
  ⟨0x54, 1, 4, 0x0, [fld 0 32 .rc []]⟩,
  ⟨0x58, 1, 4, 0x0, [fld 0 32 .rc []]⟩,
  ⟨0x5c, 1, 4, 0x0, [fld 0 32 .rc []]⟩,
  ⟨0x60, 1, 4, 0x0, [fld 0 32 .ro []]⟩,
  ⟨0x64, 1, 4, 0x0, [fld 0 32 .ro []]⟩,
  ⟨0x68, 1, 4, 0x0, [fld 0 32 .ro []]⟩,
  ⟨0x6c, 1, 4, 0x0, [fld 0 32 .ro []]⟩]

def rows_ctb_1 : List RegRow := [
  ⟨0x70, 1, 4, 0x0, [fld 0 32 .ro []]⟩,
  ⟨0x74, 1, 4, 0x0, [fld 0 32 .ro []]⟩,
  ⟨0x78, 1, 4, 0x0, [fld 0 32 .ro []]⟩,
  ⟨0x7c, 1, 4, 0x0, [fld 0 32 .ro []]⟩,
  ⟨0x100, 32, 4, 0x0, [fld 16 9 .rc [], fld 0 5 .rc []]⟩]

def rows_ctb : List RegRow := rows_ctb_0 ++ rows_ctb_1

def rows_slc : List RegRow := [
  ⟨0x0, 1, 4, 0x0, [fld 21 11 .rw []]⟩,
  ⟨0x4, 1, 4, 0x0, [fld 0 3 .rw []]⟩,
  ⟨0x8, 1, 4, 0x0, [fld 0 14 .rw []]⟩,
  ⟨0xc, 1, 4, 0x0, [fld 0 8 .ro []]⟩,
  ⟨0x10, 1, 4, 0x0, [fld 0 32 .ro []]⟩,
  ⟨0x20, 1, 4, 0x0, [fld 0 32 .rc []]⟩,
  ⟨0x24, 1, 4, 0x0, [fld 0 32 .rc []]⟩,
  ⟨0x28, 1, 4, 0x0, [fld 0 32 .rc []]⟩,
  ⟨0x2c, 1, 4, 0x0, [fld 0 32 .rc []]⟩,
  ⟨0x30, 1, 4, 0x0, [fld 0 32 .rc []]⟩,
  ⟨0x34, 1, 4, 0x0, [fld 0 32 .rc []]⟩,
  ⟨0x40, 1, 4, 0x0, [fld 0 32 .ro []]⟩,
  ⟨0x44, 1, 4, 0x0, [fld 0 32 .ro []]⟩,
  ⟨0x48, 1, 4, 0x0, [fld 8 1 .rc [], fld 0 5 .rc []]⟩]

def rows_slcSub : List RegRow := [
  ⟨0x0, 1, 4, 0x0, [fld 31 1 .rw [], fld 30 1 .rw [], fld 29 1 .rw [], fld 27 2 .rw [], fld 24 3 .rw [], fld 0 6 .rw []]⟩,
  ⟨0x4, 1, 4, 0x0, [fld 0 8 .ro []]⟩,
  ⟨0x8, 1, 4, 0x0, [fld 6 26 .rw []]⟩,
  ⟨0xc, 1, 4, 0x0, [fld 0 3 .rw []]⟩,
  ⟨0x10, 1, 4, 0x0, [fld 16 13 .rw [(4097, 8191)], fld 0 12 .rw []]⟩,
  ⟨0x14, 1, 4, 0x0, [fld 0 14 .rw []]⟩,
  ⟨0x18, 1, 4, 0x0, [fld 0 16 .ro []]⟩,
  ⟨0x1c, 1, 4, 0x0, [fld 0 16 .ro []]⟩,
  ⟨0x20, 1, 4, 0x0, [fld 0 32 .rc []]⟩,
  ⟨0x24, 1, 4, 0x0, [fld 0 32 .rc []]⟩,
  ⟨0x28, 1, 4, 0x0, [fld 16 7 .ro [], fld 0 7 .ro []]⟩]

def rows_dcf : List RegRow := [
  ⟨0x0, 1, 4, 0x0, [fld 0 8 .rw []]⟩,
  ⟨0x4, 1, 4, 0x0, [fld 0 8 .ro []]⟩,
  ⟨0x8, 1, 4, 0x0, [fld 0 32 .rc []]⟩,
  ⟨0xc, 1, 4, 0x0, [fld 0 32 .rc []]⟩,
  ⟨0x10, 1, 4, 0x0, [fld 0 32 .ro []]⟩,
  ⟨0x14, 1, 4, 0x0, [fld 0 32 .ro []]⟩,
  ⟨0x18, 1, 4, 0x0, [fld 0 11 .ro []]⟩]

def rows_dcfSlot : List RegRow := [
  ⟨0x0, 1, 4, 0x0, [fld 31 1 .rw [], fld 30 1 .rw [], fld 28 2 .rw [], fld 16 11 .rw [], fld 8 8 .rw []]⟩,
  ⟨0x4, 1, 4, 0x0, [fld 8 1 .rw [], fld 0 8 .rw []]⟩,
  ⟨0x8, 1, 4, 0x1, [fld 0 24 .rw [(0, 0)]]⟩,
  ⟨0xc, 1, 4, 0x0, [fld 0 24 .ro []]⟩,
  ⟨0x10, 1, 4, 0x0, [fld 0 32 .rc []]⟩,
  ⟨0x14, 1, 4, 0x0, [fld 0 32 .rc []]⟩,
  ⟨0x18, 1, 4, 0x0, [fld 0 32 .rc []]⟩,
  ⟨0x1c, 1, 4, 0x0, [fld 0 32 .rc []]⟩,
  ⟨0x20, 1, 4, 0x0, [fld 0 32 .rc []]⟩,
  ⟨0x24, 1, 4, 0x0, [fld 0 32 .ro []]⟩,
  ⟨0x28, 1, 4, 0x0, [fld 31 1 .ro [], fld 16 4 .ro [], fld 0 16 .ro []]⟩,
  ⟨0x2c, 1, 4, 0x0, [fld 0 32 .ro []]⟩,
  ⟨0x30, 1, 4, 0x0, [fld 0 8 .ro []]⟩]

def rows_clu : List RegRow := [
  ⟨0x0, 1, 4, 0x0, [fld 0 1 .rw []]⟩,
  ⟨0x4, 1, 4, 0x0, [fld 16 4 .ro [], fld 8 2 .ro [], fld 0 8 .ro []]⟩,
  ⟨0x8, 1, 4, 0x8000, [fld 15 1 .ro [], fld 8 7 .ro [], fld 0 3 .ro []]⟩,
  ⟨0xc, 1, 4, 0x0, [fld 4 3 .wo [], fld 0 3 .wo [(0, 0), (4, 7)]]⟩,
  ⟨0x10, 1, 4, 0x0, [fld 8 1 .ro [], fld 0 8 .ro []]⟩,
  ⟨0x14, 1, 4, 0x0, [fld 20 12 .rw []]⟩,
  ⟨0x18, 1, 4, 0x0, [fld 0 3 .rw []]⟩,
  ⟨0x1c, 1, 4, 0x0, [fld 12 20 .rw []]⟩,
  ⟨0x20, 1, 4, 0x0, [fld 0 3 .rw []]⟩,
  ⟨0x24, 1, 4, 0x1, [fld 0 16 .rw [(0, 0)]]⟩,
  ⟨0x28, 1, 4, 0x0, [fld 0 32 .rc []]⟩,
  ⟨0x2c, 1, 4, 0x0, [fld 0 32 .rc []]⟩]

def rows_cluLp : List RegRow := [
  ⟨0x0, 1, 4, 0x80000000, [fld 31 1 .ro [], fld 28 3 .ro [], fld 27 1 .ro [], fld 24 3 .ro [], fld 0 7 .ro []]⟩,
  ⟨0x4, 1, 4, 0x0, [fld 24 7 .ro [], fld 16 7 .ro [], fld 8 1 .ro [], fld 0 1 .rw []]⟩,
  ⟨0x8, 1, 4, 0x0, [fld 0 32 .rw []]⟩,
  ⟨0xc, 1, 4, 0x0, [fld 0 28 .rw []]⟩,
  ⟨0x10, 1, 4, 0x0, [fld 0 32 .rw []]⟩,
  ⟨0x14, 1, 4, 0x0, [fld 0 28 .rw []]⟩,
  ⟨0x18, 1, 4, 0x0, [fld 26 6 .ro [], fld 25 1 .ro [], fld 0 19 .ro []]⟩,
  ⟨0x1c, 1, 4, 0x0, [fld 16 16 .ro [], fld 0 12 .ro []]⟩]

def rows_cluWt : List RegRow := [
  ⟨0x0, 1, 4, 0x0, []⟩,
  ⟨0x4, 1, 4, 0x0, [fld 31 1 .rw [], fld 30 1 .rw [], fld 16 11 .rw [], fld 0 12 .rw []]⟩]

def rows_cluSp : List RegRow := [
  ⟨0x0, 1, 4, 0xc00a03c0, [fld 31 1 .rw [], fld 30 1 .rw [], fld 16 7 .rw [(0, 0), (101, 127)], fld 0 16 .rw [(0, 0)]]⟩,
  ⟨0x4, 1, 4, 0xf000000, [fld 24 4 .ro [], fld 16 3 .ro [], fld 0 8 .ro []]⟩,
  ⟨0x8, 1, 4, 0x10000, [fld 0 18 .ro []]⟩,
  ⟨0xc, 1, 4, 0x0, [fld 8 4 .wo [(8, 15)], fld 0 2 .wo [(0, 0), (3, 3)]]⟩,
  ⟨0x10, 1, 4, 0x0, [fld 8 1 .ro [], fld 0 8 .ro []]⟩,
  ⟨0x14, 1, 4, 0x0, [fld 0 32 .ro []]⟩,
  ⟨0x18, 1, 4, 0x0, [fld 0 32 .rc []]⟩]

def rows_cluAge : List RegRow := [
  ⟨0x0, 1, 4, 0x0, [fld 0 16 .ro []]⟩]

def rows_pai : List RegRow := [
  ⟨0x0, 1, 4, 0x0, [fld 29 3 .ro [], fld 28 1 .ro [], fld 22 1 .ro [], fld 16 6 .ro [], fld 0 8 .ro []]⟩,
  ⟨0x4, 1, 4, 0x0, [fld 0 32 .rc []]⟩,
  ⟨0x8, 1, 4, 0x0, [fld 0 32 .rc []]⟩,
  ⟨0xc, 1, 4, 0x0, [fld 31 1 .ro [], fld 24 2 .ro [], fld 16 4 .ro [], fld 0 12 .ro []]⟩,
  ⟨0x10, 1, 4, 0x0, [fld 0 32 .ro []]⟩,
  ⟨0x14, 1, 4, 0x0, [fld 0 16 .ro []]⟩,
  ⟨0x18, 1, 4, 0x0, [fld 1 1 .rwl [], fld 0 1 .wo []]⟩,
  ⟨0x1c, 1, 4, 0x0, [fld 16 16 .ro [], fld 0 4 .ro []]⟩,
  ⟨0x20, 1, 4, 0x0, [fld 2 1 .rwl [], fld 1 1 .rwl [], fld 0 1 .rwl []]⟩,
  ⟨0x24, 1, 4, 0x0, [fld 8 7 .ro [], fld 3 1 .w1c [], fld 2 1 .w1c [], fld 1 1 .ro []]⟩,
  ⟨0x28, 1, 4, 0x0, [fld 31 1 .rw [], fld 30 1 .rw [], fld 0 11 .rw []]⟩,
  ⟨0x2c, 1, 4, 0x0, [fld 8 1 .ro [], fld 0 8 .ro []]⟩]

def rows_chs_0 : List RegRow := [
  ⟨0x0, 1, 4, 0x0, [fld 0 1 .rw []]⟩,
  ⟨0x4, 1, 4, 0x0, [fld 16 1 .ro [], fld 0 8 .ro []]⟩,
  ⟨0x8, 1, 4, 0x0, [fld 21 11 .rw []]⟩,
  ⟨0xc, 1, 4, 0x0, [fld 0 3 .rw []]⟩,
  ⟨0x10, 1, 4, 0x0, [fld 21 11 .rw []]⟩,
  ⟨0x14, 1, 4, 0x0, [fld 0 3 .rw []]⟩,
  ⟨0x18, 1, 4, 0x20, [fld 0 14 .rw [(0, 31)]]⟩,
  ⟨0x20, 1, 4, 0x0, [fld 0 32 .wo []]⟩,
  ⟨0x24, 1, 4, 0x0, [fld 0 32 .wo []]⟩,
  ⟨0x28, 1, 4, 0x0, [fld 8 1 .ro [], fld 0 8 .ro []]⟩,
  ⟨0x30, 1, 4, 0x20000000, [fld 16 14 .ro [], fld 0 12 .ro []]⟩,
  ⟨0x34, 1, 4, 0x0, [fld 16 7 .ro [], fld 0 7 .ro []]⟩,
  ⟨0x40, 1, 4, 0x0, [fld 0 32 .rc []]⟩,
  ⟨0x44, 1, 4, 0x0, [fld 0 32 .rc []]⟩,
  ⟨0x48, 1, 4, 0x0, [fld 0 32 .rc []]⟩,
  ⟨0x4c, 1, 4, 0x0, [fld 0 32 .rc []]⟩,
  ⟨0x50, 1, 4, 0x0, [fld 0 32 .rc []]⟩,
  ⟨0x58, 1, 4, 0x0, [fld 0 32 .ro []]⟩,
  ⟨0x5c, 1, 4, 0x0, [fld 0 32 .ro []]⟩,
  ⟨0x60, 1, 4, 0x0, [fld 0 32 .wo []]⟩,
  ⟨0x64, 1, 4, 0x0, [fld 0 32 .wo []]⟩,
  ⟨0x70, 1, 4, 0x0, [fld 31 1 .ro [], fld 0 14 .ro []]⟩,
  ⟨0x100, 128, 4, 0x0, [fld 0 32 .rw []]⟩,
  ⟨0x400, 1, 4, 0x0, [fld 0 15 .rw []]⟩,
  ⟨0x404, 1, 4, 0x0, [fld 16 11 .ro [], fld 8 3 .ro [], fld 0 8 .ro []]⟩]

def rows_chs_1 : List RegRow := [
  ⟨0x408, 1, 4, 0x0, [fld 16 16 .ro [], fld 0 16 .ro []]⟩,
  ⟨0x40c, 1, 4, 0x0, [fld 0 14 .ro []]⟩,
  ⟨0x410, 1, 4, 0x0, [fld 0 32 .ro []]⟩]

def rows_chs : List RegRow := rows_chs_0 ++ rows_chs_1

def rows_chsP : List RegRow := [
  ⟨0x0, 1, 4, 0x0, [fld 16 6 .rw [], fld 0 15 .rw []]⟩,
  ⟨0x4, 1, 4, 0x40, [fld 0 13 .rw []]⟩,
  ⟨0x8, 1, 4, 0x0, [fld 16 13 .ro [], fld 0 13 .ro []]⟩,
  ⟨0xc, 1, 4, 0x0, [fld 16 13 .rw [], fld 0 12 .rw []]⟩,
  ⟨0x10, 1, 4, 0x0, [fld 31 1 .ro [], fld 16 7 .ro [], fld 0 6 .ro []]⟩,
  ⟨0x14, 1, 4, 0x0, [fld 0 32 .ro []]⟩,
  ⟨0x18, 1, 4, 0x0, [fld 1 1 .wo [], fld 0 1 .wo []]⟩,
  ⟨0x1c, 1, 4, 0x0, [fld 0 18 .ro []]⟩]

def rows_cmp : List RegRow := [
  ⟨0x0, 1, 4, 0x1, [fld 0 1 .rw []]⟩,
  ⟨0x4, 1, 4, 0x0, [fld 16 3 .ro [], fld 8 2 .ro [], fld 0 8 .ro []]⟩,
  ⟨0x8, 1, 4, 0x0, [fld 0 32 .ro []]⟩,
  ⟨0xc, 1, 4, 0x0, [fld 0 32 .ro []]⟩,
  ⟨0x10, 1, 4, 0x0, [fld 0 32 .ro []]⟩,
  ⟨0x14, 1, 4, 0x0, [fld 0 32 .ro []]⟩,
  ⟨0x18, 1, 4, 0x0, [fld 0 32 .ro []]⟩,
  ⟨0x1c, 1, 4, 0x0, [fld 0 32 .ro []]⟩,
  ⟨0x20, 1, 4, 0x0, [fld 0 32 .rc []]⟩,
  ⟨0x24, 1, 4, 0x0, [fld 0 32 .rc []]⟩,
  ⟨0x28, 1, 4, 0x0, [fld 0 32 .rc []]⟩,
  ⟨0x2c, 1, 4, 0x0, [fld 31 1 .rc [], fld 24 4 .rc [], fld 13 3 .rc [], fld 0 13 .rc []]⟩]

def rows_wrrA : List RegRow := [
  ⟨0x0, 1, 4, 0x0, [fld 3 1 .rw [], fld 1 2 .rw [(3, 3)], fld 0 1 .rw []]⟩,
  ⟨0x4, 1, 4, 0x0, [fld 16 4 .ro [], fld 0 8 .ro []]⟩,
  ⟨0x8, 1, 4, 0x5dc, [fld 0 14 .rw [(0, 1279), (9001, 16383)]]⟩]

def rows_wrrB : List RegRow := [
  ⟨0x0, 1, 4, 0x0, [fld 0 32 .ro []]⟩,
  ⟨0x4, 1, 4, 0x0, [fld 0 32 .ro []]⟩,
  ⟨0x8, 1, 4, 0x0, [fld 0 32 .rc []]⟩,
  ⟨0xc, 1, 4, 0x0, [fld 0 32 .rc []]⟩,
  ⟨0x10, 1, 4, 0x0, [fld 0 32 .rc []]⟩,
  ⟨0x14, 1, 4, 0x0, [fld 0 32 .rc []]⟩,
  ⟨0x18, 1, 4, 0x0, [fld 0 32 .rc []]⟩,
  ⟨0x1c, 1, 4, 0x0, [fld 0 32 .rc []]⟩,
  ⟨0x20, 1, 4, 0x0, [fld 0 32 .rc []]⟩,
  ⟨0x24, 1, 4, 0x0, [fld 0 32 .rc []]⟩]

def rows_wrrSp : List RegRow := [
  ⟨0x0, 1, 4, 0x0, [fld 0 32 .rw []]⟩,
  ⟨0x4, 1, 4, 0x0, [fld 0 16 .rw []]⟩,
  ⟨0x8, 1, 4, 0x0, [fld 0 32 .rw []]⟩,
  ⟨0xc, 4, 4, 0x0, [fld 0 32 .rw []]⟩,
  ⟨0x1c, 1, 4, 0x0, [fld 1 1 .rw [], fld 0 1 .rw []]⟩]

def rows_prt_0 : List RegRow := [
  ⟨0x0, 1, 4, 0x0, [fld 16 11 .ro [], fld 8 8 .ro [], fld 7 1 .ro [], fld 0 3 .ro []]⟩,
  ⟨0x4, 1, 4, 0x0, [fldP 0 4 .wo .na [(0, 0), (9, 15)]]⟩,
  ⟨0x8, 1, 4, 0x0, [fld 16 1 .ro [], fld 8 8 .ro [], fld 0 8 .ro []]⟩,
  ⟨0xc, 1, 4, 0x0, [fldP 31 1 .rw .na [], fldP 16 14 .rw .na [], fldP 0 14 .rw .na []]⟩,
  ⟨0x10, 1, 4, 0x0, [fldP 17 15 .rw .ro []]⟩,
  ⟨0x14, 1, 4, 0x0, [fldP 0 3 .rw .ro []]⟩,
  ⟨0x18, 1, 4, 0x0, [fldP 2 30 .rw .ro []]⟩,
  ⟨0x1c, 1, 4, 0x0, [fldP 0 3 .rw .ro []]⟩,
  ⟨0x20, 1, 4, 0x100001, [fldP 16 8 .rw .ro [(0, 0)], fldP 0 16 .rw .ro []]⟩,
  ⟨0x24, 1, 4, 0x1, [fldP 0 16 .rw .ro []]⟩,
  ⟨0x28, 1, 4, 0x30100001, [fldP 28 2 .rw .ro [], fldP 16 8 .rw .ro [(0, 0)], fldP 0 16 .rw .ro []]⟩,
  ⟨0x2c, 1, 4, 0x10, [fldP 0 11 .rw .ro [(1025, 2047)]]⟩,
  ⟨0x30, 1, 4, 0x0, [fld 16 15 .ro [], fld 0 11 .ro []]⟩,
  ⟨0x34, 1, 4, 0x0, [fld 16 8 .ro [], fld 0 8 .ro []]⟩,
  ⟨0x38, 1, 4, 0x0, [fld 0 32 .rc []]⟩,
  ⟨0x3c, 1, 4, 0x0, [fld 31 1 .ro [], fld 8 8 .ro [], fld 0 4 .ro []]⟩,
  ⟨0x40, 1, 4, 0x0, [fld 31 1 .w1c [], fld 30 1 .w1c [], fld 16 4 .ro [], fld 0 8 .ro []]⟩,
  ⟨0x44, 1, 4, 0x0, [fld 0 16 .ro []]⟩,
  ⟨0x48, 1, 4, 0x0, [fld 7 1 .w1c [], fld 6 1 .w1c [], fld 5 1 .w1c [], fld 4 1 .w1c [], fld 3 1 .w1c [], fld 2 1 .w1c [], fld 1 1 .w1c [], fld 0 1 .w1c []]⟩,
  ⟨0x4c, 1, 4, 0x0, [fldP 16 8 .ro .rw [], fldP 0 8 .ro .rw []]⟩,
  ⟨0x50, 1, 4, 0x0, [fldP 28 4 .ro .rw [], fldP 24 4 .ro .rw [], fldP 20 4 .ro .rw [], fldP 16 4 .ro .rw [], fldP 12 4 .ro .rw [], fldP 8 4 .ro .rw [], fldP 4 4 .ro .rw [], fldP 0 4 .ro .rw []]⟩,
  ⟨0x54, 1, 4, 0x0, [fld 0 32 .ro []]⟩,
  ⟨0x60, 1, 4, 0x0, [fldP 0 32 .na .wo []]⟩,
  ⟨0x64, 1, 4, 0x0, [fldP 0 32 .na .wo []]⟩,
  ⟨0x68, 1, 4, 0x0, [fld 8 1 .ro [], fld 0 8 .ro []]⟩]

def rows_prt_1 : List RegRow := [
  ⟨0x6c, 1, 4, 0x0, [fldP 0 7 .na .rw []]⟩,
  ⟨0x70, 1, 4, 0x0, [fldP 0 32 .na .rw []]⟩,
  ⟨0x74, 1, 4, 0x0, [fldP 0 32 .na .wo []]⟩,
  ⟨0x78, 1, 4, 0x0, [fldP 0 32 .na .wo []]⟩,
  ⟨0x80, 1, 4, 0x0, [fld 31 1 .ro [], fld 16 7 .ro [], fld 0 6 .ro []]⟩,
  ⟨0x84, 1, 4, 0x0, [fld 0 32 .ro []]⟩,
  ⟨0x88, 1, 4, 0x0, [fld 1 1 .wo [], fld 0 1 .wo []]⟩,
  ⟨0x8c, 1, 4, 0x0, [fld 0 18 .ro []]⟩,
  ⟨0x90, 1, 4, 0x0, [fldP 0 32 .na .wo []]⟩,
  ⟨0x94, 1, 4, 0x0, [fldP 0 32 .na .wo []]⟩,
  ⟨0x98, 1, 4, 0x0, [fldP 6 26 .ro .rw []]⟩,
  ⟨0x9c, 1, 4, 0x0, [fldP 0 16 .ro .rw []]⟩,
  ⟨0xa0, 1, 4, 0x0, [fldP 6 26 .ro .rw []]⟩,
  ⟨0xa4, 1, 4, 0x0, [fldP 0 16 .ro .rw []]⟩,
  ⟨0xa8, 1, 4, 0x0, [fld 8 1 .ro [], fld 0 8 .ro []]⟩]

def rows_prt : List RegRow := rows_prt_0 ++ rows_prt_1

/-- Every register of the device. -/
def regions : List Region := [
  ⟨0x0, 1, 0x0, 0x0, 1, 0x10000, rows_mgt⟩,
  ⟨0x10000, 1, 0x0, 0x0, 1, 0x100, rows_elc⟩,
  ⟨0x10000, 1, 0x0, 0x100, 64, 0x4, rows_elcFeeq⟩,
  ⟨0x10000, 1, 0x0, 0x300, 8, 0x4, rows_elcEtheq⟩,
  ⟨0x20000, 1, 0x0, 0x0, 1, 0x100, rows_tim⟩,
  ⟨0x20000, 1, 0x0, 0x100, 4, 0x80, rows_timStr⟩,
  ⟨0x20000, 1, 0x0, 0x400, 64, 0x10, rows_timMark⟩,
  ⟨0x30000, 1, 0x0, 0x0, 1, 0x100, rows_sec⟩,
  ⟨0x30000, 1, 0x0, 0x100, 4, 0x40, rows_secMr⟩,
  ⟨0x30000, 1, 0x0, 0x400, 16, 0x8, rows_secRe⟩,
  ⟨0x40000, 1, 0x0, 0x0, 1, 0x10000, rows_nvs⟩,
  ⟨0x50000, 1, 0x0, 0x0, 1, 0x1000, rows_pwr⟩,
  ⟨0x50000, 1, 0x0, 0x1000, 131, 0x10, rows_pwrD⟩,
  ⟨0x50000, 1, 0x0, 0x8000, 2048, 0x4, rows_pwrPv⟩,
  ⟨0x60000, 1, 0x0, 0x0, 1, 0x10000, rows_bst⟩,
  ⟨0x80000, 1, 0x0, 0x0, 1, 0x1000, rows_mem⟩,
  ⟨0x80000, 1, 0x0, 0x1000, 9, 0x100, rows_memCl⟩,
  ⟨0x80000, 1, 0x0, 0x8000, 162, 0x40, rows_memCo⟩,
  ⟨0xf0000, 1, 0x0, 0x0, 1, 0x1000, rows_felCom⟩,
  ⟨0x100000, 64, 0x1000, 0x0, 1, 0x1000, rows_felLane⟩,
  ⟨0x140000, 1, 0x0, 0x0, 1, 0x10000, rows_ctb⟩,
  ⟨0x160000, 4, 0x10000, 0x0, 1, 0x8000, rows_slc⟩,
  ⟨0x160000, 4, 0x10000, 0x8000, 512, 0x40, rows_slcSub⟩,
  ⟨0x1a0000, 1, 0x0, 0x0, 1, 0x10000, rows_dcf⟩,
  ⟨0x1b0000, 1, 0x0, 0x0, 1024, 0x40, rows_dcfSlot⟩,
  ⟨0x200000, 8, 0x10000, 0x0, 1, 0x100, rows_clu⟩,
  ⟨0x200000, 8, 0x10000, 0x100, 8, 0x20, rows_cluLp⟩,
  ⟨0x200000, 8, 0x10000, 0x4000, 1024, 0x8, rows_cluWt⟩,
  ⟨0x280000, 1, 0x0, 0x0, 1, 0x40, rows_cluSp⟩,
  ⟨0x280000, 1, 0x0, 0x40, 9, 0x4, rows_cluAge⟩,
  ⟨0x300000, 81, 0x1000, 0x0, 1, 0x1000, rows_pai⟩,
  ⟨0x400000, 1, 0x0, 0x0, 1, 0x30000, rows_chs⟩,
  ⟨0x400000, 1, 0x0, 0x30000, 2048, 0x20, rows_chsP⟩,
  ⟨0x500000, 16, 0x1000, 0x0, 1, 0x1000, rows_cmp⟩,
  ⟨0x580000, 2, 0x20000, 0x0, 1, 0x100, rows_wrrA⟩,
  ⟨0x580000, 2, 0x20000, 0x200, 1, 0x1fe00, rows_wrrB⟩,
  ⟨0x580000, 2, 0x20000, 0x100, 4, 0x40, rows_wrrSp⟩,
  ⟨0x2000000, 2048, 0x1000, 0x0, 1, 0x1000, rows_prt⟩]

/-- Where an offset lies in a region: the two instance numbers and the offset inside the instance. -/
def Region.find (g : Region) (off : Nat) : Option (Nat × Nat × Nat) :=
  if off < g.base then none else
  let d := off - g.base
  let i := if g.s1 = 0 then 0 else d / g.s1
  let d := if g.s1 = 0 then d else d % g.s1
  if g.n1 ≤ i || d < g.inner then none else
  let d := d - g.inner
  if g.n2 ≤ d / g.s2 then none else some (i, d / g.s2, d % g.s2)

/-- The row of a list that holds an offset inside an instance. -/
def rowAt : List RegRow → Nat → Option RegRow
  | [], _ => none
  | r :: rs, d =>
    if r.off ≤ d && d < r.off + r.n * r.stride && (d - r.off) % 4 == 0 then some r else rowAt rs d

/-- The register at an offset: its instance numbers and its row. -/
def findReg : List Region → Nat → Option (Nat × Nat × RegRow)
  | [], _ => none
  | g :: gs, off =>
    match g.find off with
    | none => findReg gs off
    | some (i, j, d) =>
      match rowAt g.rows d with
      | some r => some (i, j, r)
      | none => none

/-- The register at a BAR0 offset, or none where the offset is reserved (R36). -/
def regAt (off : Nat) : Option (Nat × Nat × RegRow) := findReg regions off

/-- The logical pair that physical pair `pp` fills after a power-on reset (R14), if any. -/
def porLp (pp : Nat) : Option Nat :=
  if pp / 9 < 8 && pp % 9 < 8 then some (8 * (pp / 9) + pp % 9) else none

/-- PAI_ST at reset: ROLE 0 in service, 1 reserve, 2 in the reserve cluster, with LV and LP (R14, R299). -/
def resetPaiSt (pp : Nat) : Nat :=
  match porLp pp with
  | some lp => 0x400000 + lp * 0x10000
  | none => if pp / 9 < 8 then 1 * 0x20000000 else 2 * 0x20000000

/-- PWR_Dd_ST.STATE at reset (R14, R417, R420, assumption 10): the in-service pairs and their clusters, the engine units and
the PCI Express groups run; every other domain is in BIVOUAC. -/
def resetDomSt (d : Nat) : Nat :=
  if d < 81 then (if (porLp d).isSome then 0 else 3)
  else if d < 90 then (if d = 89 then 3 else 0)
  else if d < 106 then 0
  else if 126 ≤ d && d < 130 then 0 else 3

/-- PWR_Dd_WAKEEN at reset, per kind (R440). -/
def resetWakeEn (d : Nat) : Nat := if d < 81 then 0x1F else if d < 106 then 0x01 else 0x03

/-- The reset value of the register with row `r`, instance numbers `i` and `j`, at offset `off`.
The rows whose reset value depends on the instance are PAI_ST (R14), CLU_ST, CLU_RSV and CLU_LPs_MAP (R298),
PRT_STATE (R415); SEC_LC, SEC_ID, SEC_SVN and SEC_ROOTREV come from fuses (R387): the device is DEPLOYED with its identity
key and certificate (assumption 12); ELC_AVS comes from fuses, ELC_STRAP and the address in MGT_SMB_CFG from straps (R492, R461). -/
def rowReset (r : RegRow) (i j off : Nat) : Nat :=
  if off = PAI_ST i && r.rst = 0 && 0x300000 ≤ off && off < 0x400000 then resetPaiSt i
  else if off = CLU_ST i && i < 8 then i * 0x10000
  else if off = CLU_RSV i && i < 8 then 0x8000 + (9 * i + 8) * 0x100
  else if off = CLU_LP_MAP (8 * i + j) && i < 8 && j < 8 then 0x80000000 + 9 * i + j
  else if 0x51000 ≤ off && off = PWR_D_ST j && off < 0x52000 then resetDomSt j
  else if 0x51000 ≤ off && off = PWR_D_WAKEEN j && off < 0x52000 then resetWakeEn j
  else if off = PRT_STATE i then i * 0x10000
  else if off = SEC_LC then 0x303
  else if off = SEC_ID_LO then Config.idn.toNat % 2 ^ 32
  else if off = SEC_ID_HI then Config.idn.toNat / 2 ^ 32
  else if off = SEC_SVN then Config.svnFuse.toNat
  else if off = SEC_ROOTREV then Config.rootRev.toNat
  else if off = ELC_AVS then Config.avsBoot.toNat * 0x10001
  else if off = ELC_STRAP then Config.straps.toNat
  else if off = MGT_SMB_CFG then (0x58 + Config.straps.toNat) * 2
  else r.rst

/-- The reset value of the register at an offset; 0 where there is none. -/
def regReset (off : Nat) : BitVec 32 :=
  match regAt off with
  | some (i, j, r) => BitVec.ofNat 32 (rowReset r i j off)
  | none => 0

/-- The register blocks (R37): first offset, bytes of all instances, SRC of R458. -/
def blocks : List (Nat × Nat × Nat) := [
  (0x0, 0x10000, 0x01), (0x10000, 0x10000, 0x02), (0x20000, 0x10000, 0x03), (0x30000, 0x10000, 0x04),
  (0x40000, 0x10000, 0x05), (0x50000, 0x10000, 0x06), (0x60000, 0x10000, 0x07), (0x80000, 0x20000, 0x08),
  (0xF0000, 0x1000, 0x09), (0x100000, 0x40000, 0x09), (0x140000, 0x10000, 0x0A), (0x160000, 0x40000, 0x0B),
  (0x1A0000, 0x10000, 0x0C), (0x1B0000, 0x10000, 0x0C), (0x200000, 0x90000, 0x0D), (0x300000, 0x51000, 0x0E),
  (0x400000, 0x40000, 0x0F), (0x500000, 0x10000, 0x10), (0x580000, 0x40000, 0x11), (0x2000000, 0x800000, 0x12)]

/-- The SRC of the block in whose instance space an offset lies, if it lies in one (R36, R37). -/
def blockAt (off : Nat) : Option Nat :=
  match blocks.find? (fun b => b.1 ≤ off && off < b.1 + b.2.1) with
  | some b => some b.2.2
  | none => none

end Sys2Proof.Machine
end

