-- ==== Sys2Proof/Machine/Ops.lean ====
section
/-! DEFINITION. The named operations over registers, memory and the records every family shares: the register store,
HBM, the error log (R458), manager and partition events (R459, R408), stale messages (R397), free values. -/

namespace Sys2Proof.Machine

/-- The status codes of R455. -/
def stOk : Nat := 0x00
def stArg : Nat := 0x01
def stState : Nat := 0x02
def stBusy : Nat := 0x03
def stPerm : Nat := 0x04
def stRange : Nat := 0x05
def stConflict : Nat := 0x06
def stTesting : Nat := 0x07
def stEpoch : Nat := 0x08
def stAuth : Nat := 0x09
def stNospace : Nat := 0x0A
def stWear : Nat := 0x0B
def stWakeRace : Nat := 0x0C
def stDown : Nat := 0x0D
def stTimeout : Nat := 0x0E
def stIncomplete : Nat := 0x0F

/-- The error log's source codes (R458). -/
def srcMgt : Nat := 0x01
def srcElc : Nat := 0x02
def srcTim : Nat := 0x03
def srcSec : Nat := 0x04
def srcNvs : Nat := 0x05
def srcPwr : Nat := 0x06
def srcBst : Nat := 0x07
def srcMem : Nat := 0x08
def srcFel : Nat := 0x09
def srcCtb : Nat := 0x0A
def srcSlc : Nat := 0x0B
def srcDcf : Nat := 0x0C
def srcClu : Nat := 0x0D
def srcPai : Nat := 0x0E
def srcChs : Nat := 0x0F
def srcCmp : Nat := 0x10
def srcWrr : Nat := 0x11
def srcPrt : Nat := 0x12
def srcHost : Nat := 0x13
def srcRidge : Nat := 0x14

/-! ## Registers -/

/-- The register at an offset. -/
def State.rd (s : State) (off : Nat) : Nat := (tabGet (regReset off) s.regs off).toNat

/-- The state with the register at an offset holding `v`. -/
def State.wr (s : State) (off v : Nat) : State :=
  s.withRegs (tabPut (regReset off) s.regs off (BitVec.ofNat 32 v))

/-- A field of a register: `w` bits from `lo` on. -/
def State.fget (s : State) (off lo w : Nat) : Nat := bits (s.rd off) lo w

/-- The state with a field of a register holding `v`. -/
def State.fset (s : State) (off lo w v : Nat) : State := s.wr off (putBits (s.rd off) lo w v)

/-- One bit of a register. -/
def State.fbit (s : State) (off i : Nat) : Bool := s.fget off i 1 == 1

/-- A 32-bit counter advanced by `n`, saturating at 0xFFFF_FFFF (R77). -/
def State.count (s : State) (off n : Nat) : State := s.wr off (min (s.rd off + n) 0xFFFFFFFF)

/-- A 32-bit counter advanced by `n` that wraps. -/
def State.countWrap (s : State) (off n : Nat) : State := s.wr off ((s.rd off + n) % 2 ^ 32)

/-- The 64-bit value of a LO and HI pair. -/
def State.rd64 (s : State) (off : Nat) : Nat := s.rd off + s.rd (off + 4) * 2 ^ 32

/-- A LO and HI pair holding `v`. -/
def State.wr64 (s : State) (off v : Nat) : State := (s.wr off (v % 2 ^ 32)).wr (off + 4) (v / 2 ^ 32 % 2 ^ 32)

/-- A 64-bit counter advanced by `n`, wrapping (R121). -/
def State.count64 (s : State) (off n : Nat) : State := s.wr64 off ((s.rd64 off + n) % 2 ^ 64)

/-- A field advanced by one, saturating at its greatest value. -/
def State.countFld (s : State) (off lo w : Nat) : State :=
  s.fset off lo w (min (s.fget off lo w + 1) (2 ^ w - 1))

/-- The registers with offsets from `lo` up to `hi` at their reset values (R10). -/
def State.resetRegs (s : State) (lo hi : Nat) : State := s.withRegs (tabDrop s.regs lo hi)

/-! ## Outputs and free values -/

/-- The state after something has left the device. -/
def State.emit (s : State) (o : Out) : State := s.withOuts (o :: s.outs)

/-- The ring position of the stop of a physical cluster (R21). -/
def stopPos (c : Nat) : Nat := [4, 5, 11, 12, 14, 15, 20, 21, 13].getD c 0

/-- A RT flit enters the ring of 26 stops towards a stop, in the direction with the fewer hops; at 13 hops the parity of the
sender's position decides (R22, R24). -/
def State.sendFlit (s : State) (kind src dst : Nat) : State :=
  let hops := (dst + 26 - src) % 26
  let clockwise := Nat.blt hops 13 || (hops == 13 && src % 2 == 0)
  s.emit (.flit kind src clockwise (!clockwise))

/-- The number of the next free value, and the state that has drawn it (assumption 2). -/
def State.draw (s : State) : Nat × State := (s.free, (s.withFree (s.free + 1)))

/-! ## HBM -/

/-- The bytes of HBM: 32 GiB (R27). -/
def hbmSize : Nat := 0x800000000

/-- A byte of HBM. -/
def State.hbmByte (s : State) (a : Nat) : Byte := tabGet 0 s.hbm a

/-- The state with a byte of HBM written. -/
def State.hbmPut (s : State) (a : Nat) (b : Byte) : State := s.withHbm (tabPut 0 s.hbm a b)

/-- `n` bytes of HBM from `a` on. -/
def State.hbmRead (s : State) : Nat → Nat → List Byte
  | _, 0 => []
  | a, n + 1 => s.hbmByte a :: State.hbmRead s (a + 1) n

/-- Bytes written to HBM from `a` on. -/
def State.hbmWrite : State → Nat → List Byte → State
  | s, _, [] => s
  | s, a, b :: bs => (s.hbmPut a b).hbmWrite (a + 1) bs

/-- The 64-bit little-endian word at an address. -/
def State.hbmWord (s : State) (a : Nat) : Nat := ofLe (s.hbmRead a 8)

/-- A 64-bit word written at an address. -/
def State.hbmWordPut (s : State) (a v : Nat) : State := s.hbmWrite a (leBytes 8 v)

/-- Words written from an address on. -/
def State.hbmWords : State → Nat → List Nat → State
  | s, _, [] => s
  | s, a, v :: vs => (s.hbmWordPut a v).hbmWords (a + 8) vs

/-- `n` bytes of zeros from `a` on. -/
def State.hbmZero (s : State) (a n : Nat) : State := s.withHbm (tabDrop s.hbm a (a + n))

/-- The cell that an HBM address selects under a value of MEM_HBM_CFG.MAP, named by its address under MAP 0b00: below bit 16 the
two orders agree; MAP 0b01 takes row [30:16] and bank [34:31] where MAP 0b00 has bank [19:16] and row [34:20] (R29, R267). -/
def hbmCell (map a : Nat) : Nat :=
  if map = 1 then bits a 0 16 + bits a 31 4 * 2 ^ 16 + bits a 16 15 * 2 ^ 20 else a

/-- The HBM address of a cell under a value of MAP. -/
def hbmCellAddr (map c : Nat) : Nat :=
  if map = 1 then bits c 0 16 + bits c 20 15 * 2 ^ 16 + bits c 16 4 * 2 ^ 31 else c

/-- HBM after a change of MAP: every cell keeps its byte and its poison, and lies at another address (R29). -/
def State.remapHbm (s : State) (old new : Nat) : State :=
  let at_ (a : Nat) : Nat := hbmCellAddr new (hbmCell old a)
  let s := s.withHbm (s.hbm.foldl (fun m e => tabPut 0 m (at_ e.1) e.2) [])
  s.withPoison ((s.poison.map (fun l => at_ (64 * l) / 64)).mergeSort (fun a b => a ≤ b))

/-- A line of HBM carries poison (R255). -/
def State.isPoison (s : State) (line : Nat) : Bool := s.poison.contains line

/-- The state with the poison of a line set or cleared. -/
def State.setPoison (s : State) (line : Nat) (p : Bool) : State :=
  let q := s.poison.filter (fun x => x != line)
  (s.withPoison (if p then (q.filter (fun x => x < line)) ++ line :: q.filter (fun x => line < x) else q))

/-! ## Events and the error log -/

/-- An MSI-X vector of the PF: sent when unmasked, else held in the pending-bit array (R408, assumption 9). -/
def State.pfVector (s : State) (vec : Nat) : State :=
  let mask := bit (tabGet 1 s.pf.tbl (vec * 16 + 12)).toNat 0
  if s.pf.msixEn && !s.pf.fmask && !mask then s.emit (.msixPf vec)
  else s.withPf { s.pf with pba := setBit s.pf.pba vec }

/-- Manager event `i` (R459). -/
def State.mgrEvent (s : State) (i : Nat) : State :=
  let s := s.fset MGT_EVT i 1 1
  if s.fbit MGT_EVTEN i then s.pfVector (s.fget (MGT_EVTVEC0 + 4 * (i / 4)) (8 * (i % 4)) 6) else s

/-- An entry of the error log (R458): its two words are kept in the ring, MGT_LOG_CNT counts it. -/
def State.logEntry (s : State) (w0 w1 : Nat) : State :=
  let i := s.fget MGT_LOG_CNT 0 8
  let n := s.fget MGT_LOG_CNT 8 9
  let s := (s.withMgmt { s.mgmt with
    log := tabIns s.mgmt.log i (BitVec.ofNat 64 w0, BitVec.ofNat 64 w1)
    smbUnread := min (s.mgmt.smbUnread + 1) 256 })
  let s := if n = 256 then s.count MGT_LOG_LOST 1 else s
  let s := s.wr MGT_LOG_CNT (min (n + 1) 256 * 256 + (i + 1) % 256)
  (s.fset MGT_FWEVT 0 1 1).mgrEvent 4

/-- Records a status, a source, a partition where one applies, and INFO in the error log (R458). -/
def State.errLog (s : State) (st src : Nat) (pn : Option Nat) (info : Nat) : State :=
  let p := match pn with | some p => p * 2 ^ 37 + 2 ^ 36 | none => 0
  s.logEntry (s.time.tick * 16) (st * 2 ^ 56 + src * 2 ^ 48 + p + info % 2 ^ 32)

/-- A write of the control area (R454): its wear counter advances. -/
def State.wearControl (s : State) : State := s.withNvs { s.nvs with wearC := s.nvs.wearC + 1 }

/-- The inactive bank of the settings store is written (R452, R454). -/
def State.setInactive (s : State) (b : NvsBank) : State :=
  if s.fbit NVS_ST 16 then s.withNvs { s.nvs with bankA := b, wearA := s.nvs.wearA + 1 }
  else s.withNvs { s.nvs with bankB := b, wearB := s.nvs.wearB + 1 }

/-- A STORE has written its image, with SEQ + 1, and pointer copy 0: the bank it wrote is active (R452). -/
def State.storeSwitch (s : State) (recs : List Word) : State :=
  let seq := s.rd64 NVS_SEQ_LO + 1
  let new := !s.fbit NVS_ST 16
  let s := (s.setInactive (some (seq, recs))).wearControl
  (((s.withNvs { s.nvs with ptr := some (new, seq) }).wearControl).fset NVS_ST 16 1 (b2n new)).wr64 NVS_SEQ_LO seq

/-- PWRFAILn abandons a running STORE (R453): whether pointer copy 0 was already written is free (assumption 2). -/
def State.storeAbandon (s : State) : State :=
  match s.nvs.cmd with
  | some (true, recs) =>
    let (n, s) := s.draw
    let s := if Config.freeBool n then s.storeSwitch recs else s.setInactive none
    s.withNvs { s.nvs with cmd := none, torn := true }
  | _ => s

/-- A unit enters the retired-unit list and the error log (R286, R356, R430, R454). -/
def State.retireUnit (s : State) (tgt : Nat) (src st : Nat) : State :=
  let s :=
    if s.nvs.retired.contains tgt || 64 ≤ s.nvs.retired.length then s
    else (s.withNvs { s.nvs with retired := s.nvs.retired ++ [tgt] }).wearControl
  (s.fset MGT_RETIRED 0 7 s.nvs.retired.length).errLog st src none tgt

/-! ## The mailbox -/

/-- A mailbox command (R457): refused with ST_BUSY while one runs; else `f` gives the status of a refusal, or 0 with the
state after its action, and the command runs until MAILBOX_COMMAND_DONE. A refusal ends the command. -/
def State.mbxRun (s : State) (f : State → Nat × State) : State :=
  if s.fbit MGT_MBX_ST 8 then s.fset MGT_ST 0 8 stBusy
  else
    let (st, s') := f s
    if st = 0 then
      let s' := s'.wr MGT_MBX_ST 0x100
      (s'.withMgmt { s'.mgmt with mbxSt := stOk }) |>.fset MGT_ST 0 8 stOk
    else ((s.wr MGT_MBX_ST st).fset MGT_ST 0 8 st).mgrEvent 5

/-- A TIMESET that completes gives V to the first tick that begins after it; in NOLOCK, where no tick begins, it is dropped
(R457). -/
def State.timesetDone (s : State) : State :=
  match s.time.setV with
  | some v => s.withTime { s.time with
      setV := none, loads := if s.fget TIM_STATE 0 3 = 0 then s.time.loads else s.time.loads ++ [(1, v, true)] }
  | none => s

/-- The mailbox argument ARG. -/
def State.mbxArg (s : State) : Nat := s.rd64 MGT_MBX_ARG_LO

/-! ## Partitions -/

/-- The epoch of a partition (R397). -/
def State.epoch (s : State) (pn : Nat) : Nat := s.fget (PRT_STATE pn) 8 8

/-- The life-cycle state (R359): 0 BLANK, 1 MANUFACTURE, 2 PROVISIONED, 3 DEPLOYED, 4 RMA, 5 SCRAPPED. -/
def State.lcs (s : State) : Nat := s.fget SEC_LC 0 4

/-- The state of a partition: 0 FREE, 1 QUIESCED, 2 RUNNING, 3 QUIESCING (R391). -/
def State.pstate (s : State) (pn : Nat) : Nat := s.fget (PRT_STATE pn) 0 3

/-- A partition's record beside its registers. -/
def State.part (s : State) (pn : Nat) : PartSt := tabGet {} s.parts pn

/-- The state with a partition's record replaced. -/
def State.setPart (s : State) (pn : Nat) (p : PartSt) : State := s.withParts (tabPut {} s.parts pn p)

/-- An MSI-X vector of a VF (R408, R409): sent in RUNNING when unmasked, else held pending. -/
def State.vfVector (s : State) (pn vec : Nat) : State :=
  let p := s.part pn
  let mask := bit (tabGet 1 p.tbl (vec * 16 + 12)).toNat 0
  if s.pstate pn = 2 && p.msixEn && !p.fmask && !mask && !bit p.pba vec then s.emit (.msixVf pn vec)
  else s.setPart pn { p with pba := setBit p.pba vec }

/-- Partition event `i` (R408): its PRT_EVT bit, and its vector where HOST enables it. -/
def State.partEvent (s : State) (pn i : Nat) : State :=
  let s := s.fset (PRT_EVT pn) i 1 1
  if s.fbit (PRT_EVTEN pn) i then s.vfVector pn (s.fget (PRT_EVTVEC pn) (4 * i) 4) else s

/-- An error in a partition's error register (R414, R415), with the event ERR. -/
def State.partErr (s : State) (pn src st info : Nat) : State :=
  let s :=
    if s.fbit (PRT_ERR pn) 31 then s.fset (PRT_ERR pn) 30 1 1
    else (s.wr (PRT_ERR pn) (2 ^ 31 + src * 2 ^ 16 + st)).wr (PRT_ERRINFO pn) (info % 2 ^ 16)
  s.partEvent pn 3

/-- A stale message of a partition (R397). -/
def State.stale (s : State) (pn src ep : Nat) : State :=
  (s.count (PRT_STALE pn) 1).wr (PRT_STALESRC pn) (2 ^ 31 + ep % 256 * 256 + src)

/-- The event of a message that carries an epoch (R397, R409). Whether the event of a message of an older epoch is itself one raised
under that epoch, and so stale, is free (assumption 67). -/
def State.eventOf (s : State) (pn i ep : Nat) : State :=
  if ep = s.epoch pn then s.partEvent pn i
  else
    let (d, s) := s.draw
    if Config.freeBool d then s.stale pn 6 ep else s.partEvent pn i

/-- The owner of a 2 MiB page of HBM (R399). -/
def State.owner (s : State) (page : Nat) : Option Nat := tabFind s.owners page

/-- Every page that `n` bytes from `a` on touch passes a test. -/
def allPages (a n : Nat) (p : Nat → Bool) : Bool :=
  if n = 0 then true
  else (List.range ((a + n - 1) / 0x200000 - a / 0x200000 + 1)).all (fun i => p (a / 0x200000 + i))

/-- No page of the range is assigned to a partition. -/
def State.unassigned (s : State) (a n : Nat) : Bool :=
  if n = 0 then true
  else s.owners.all (fun e => e.1 < a / 0x200000 || (a + n - 1) / 0x200000 < e.1)

/-- An address lies in the key table, which is closed to hosts and cores (R376): 2 MiB at SEC_KTAB. -/
def State.keyPage (s : State) (a : Nat) : Bool :=
  let b := s.rd64 SEC_KTAB_LO
  b ≤ a && a < b + 0x200000

/-- Every page of the range is assigned to the partition. -/
def State.ownedBy (s : State) (pn a n : Nat) : Bool :=
  a + n ≤ hbmSize && allPages a n (fun p => decide (s.owner p = some pn))

/-! ## Records -/

def State.lane (s : State) (l : Nat) : LaneSt := tabGet {} s.lanes l
def State.setLane (s : State) (l : Nat) (x : LaneSt) : State := s.withLanes (tabPut {} s.lanes l x)
def State.stream (s : State) (n : Nat) : StreamSt := tabGet {} s.streams n
def State.setStream (s : State) (n : Nat) (x : StreamSt) : State := s.withStreams (tabPut {} s.streams n x)
def State.eng (s : State) (e : Nat) : EngSt := tabGet {} s.engines e
def State.setEng (s : State) (e : Nat) (x : EngSt) : State := s.withEngines (tabPut {} s.engines e x)
def State.sub (s : State) (pn : Nat) : SubSt := tabGet {} s.subs pn
def State.setSub (s : State) (pn : Nat) (x : SubSt) : State := s.withSubs (tabPut {} s.subs pn x)
def State.core (s : State) (k : Nat) : CoreSt := tabGet {} s.cores k
def State.setCore (s : State) (k : Nat) (x : CoreSt) : State := s.withCores (tabPut {} s.cores k x)
def State.cluster (s : State) (c : Nat) : ClusterSt := tabGet {} s.clusters c
def State.setCluster (s : State) (c : Nat) (x : ClusterSt) : State :=
  s.withClusters (tabPut {} s.clusters c x)
def State.bank (s : State) (b : Nat) : Bank := tabGet {} s.chan.banks b
def State.setBank (s : State) (b : Nat) (x : Bank) : State :=
  s.withChan { s.chan with banks := tabPut {} s.chan.banks b x }

/-! ## Steps of the block -/

/-! ## Virtual functions (R388, R390) -/

/-- TotalVFs and InitialVFs, First VF Offset, VF Stride, and Supported Page Sizes, a bit for each power of two of 4 KiB. -/
def totalVfs : Nat := 2048
def firstVf : Nat := 1
def vfStride : Nat := 1
def vfPageSizes : List Nat := [0x1000, 0x2000, 0x4000, 0x8000, 0x10000]

/-- The VF of a partition answers memory requests: VF Enable is set, NumVFs covers it, and no function-level reset runs (R388,
R410, R411). -/
def State.vfOpen (s : State) (pn : Nat) : Bool := s.pf.vfEnable && pn < s.pf.numVfs && (s.part pn).flr == 0

/-- A command a partition gives by a write at an offset of its window. A FREE partition has no cores that run it, so the write is
the host's, through the VF, and R390 drops it and logs ST_STATE. The command does not say whether the VF or a core wrote it, so
a VF that answers no requests turns nothing away here (DEDUCED, assumption 67). -/
def State.fromPart (s : State) (pn : Option Nat) (off : Nat) (f : State → State) : State :=
  match pn with
  | none => f s
  | some p => if s.pstate p = 0 then s.errLog stState srcHost (some p) off else f s

/-- The partition whose side gives a doorbell or a command, if it is not the manager. -/
def srcSide : Src → Option Nat
  | .pf => none
  | .vf pn => some pn

/-- The partition that gives a command. -/
def issuerSide : Issuer → Option Nat
  | .mgr => none
  | .part pn => some pn

/-- A command that acts while the device is not held in reset (R25, R360, R431, R470) and PORn is released. -/
def State.live (s : State) (f : State → State) : Host.Outcome State Fault Refusal :=
  .next (if s.hold.isSome || s.por then s else f s)

/-- A command that acts always: SMBus, JTAG, PORn. -/
def State.always (s : State) (f : State → State) : Host.Outcome State Fault Refusal := .next (f s)

/-! ## L2 and the coherent view of a cluster (R248 to R255) -/

/-- The line of the cluster's L2, if it holds it. -/
def State.l2Line (s : State) (c line : Nat) : Option L2Line := tabFind (s.cluster c).l2 line

/-- The 64 bytes of a line as the cores of cluster `c` see them: the L2's line, else HBM's. -/
def State.lineData (s : State) (c line : Nat) : List Byte :=
  match s.l2Line c line with
  | some l => l.data
  | none => s.hbmRead (line * 64) 64

/-- A byte of normal cacheable memory as the cores of cluster `c` see it. -/
def State.cohByte (s : State) (c a : Nat) : Byte := (s.lineData c (a / 64)).getD (a % 64) 0

/-- `n` bytes from `a` on as the cores of cluster `c` see them. -/
def State.cohRead (s : State) (c : Nat) : Nat → Nat → List Byte
  | _, 0 => []
  | a, n + 1 => s.cohByte c a :: State.cohRead s c (a + 1) n

/-- The line reads poisoned in cluster `c` (R255). -/
def State.cohPoison (s : State) (c line : Nat) : Bool :=
  match s.l2Line c line with
  | some l => l.poisoned
  | none => s.isPoison line

/-- A core of cluster `c` is a core number of its nine pairs (R13). -/
def coreOf (c k : Nat) : Bool := k / 18 == c

/-- The L1Ds of cluster `c` without a line. A fill of it in flight serves the access that missed and is then invalid (R253). -/
def State.dropL1 (s : State) (c line : Nat) : State :=
  (s.withCores (s.cores.map (fun e =>
      if coreOf c e.1 then (e.1, { e.2 with l1d := tabDel e.2.l1d line, reqs := tabDel e.2.reqs line }) else e)))

/-- The L2 of a cluster with a line replaced or put in. -/
def State.setL2 (s : State) (c line : Nat) (l : L2Line) : State :=
  s.setCluster c { s.cluster c with l2 := tabIns (s.cluster c).l2 line l }

/-- Line lies in a held region of the cluster (R249). -/
def ClusterSt.isHeld (x : ClusterSt) (line : Nat) : Bool :=
  x.held.any (fun r => r.line ≤ line && line < r.line + r.lines)

/-- Writes the bytes of a dirty L2 line back to HBM, with its poison (R255); the copy stays valid. -/
def State.writeBack (s : State) (c line : Nat) : State :=
  match s.l2Line c line with
  | some l =>
    if l.dirty then
      ((s.hbmWrite (line * 64) l.data).setPoison line l.poisoned).setL2 c line { l with dirty := false }
    else s
  | none => s

/-- Removes a line from a cluster's L2 and L1Ds without writing it back. -/
def State.dropLine (s : State) (c line : Nat) : State :=
  let s := s.dropL1 c line
  s.setCluster c { s.cluster c with l2 := tabDel (s.cluster c).l2 line }

/-- Evicts a line: a modified copy is taken, dirty data written back, then the line is gone (R248). -/
def State.evictLine (s : State) (c line : Nat) : State := (s.writeBack c line).dropLine c line

/-- The lines of an L2 set, with their line numbers. -/
def ClusterSt.setLines (x : ClusterSt) (set : Nat) : List (Nat × L2Line) :=
  x.l2.filter (fun e => e.1 % 8192 == set)

/-- The lowest-numbered of `n` ways that no line of the list uses. -/
def emptyWay (used : List Nat) (n : Nat) : Option Nat := (List.range n).find? (fun w => !used.contains w)

/-- The way a fill of `line` takes in an L2 set, with the line it displaces and the LFSR after it (R244). -/
def ClusterSt.pick (x : ClusterSt) (line : Nat) : Nat × Option Nat × Nat :=
  let here := x.setLines (line % 8192)
  match emptyWay (here.map (fun e => e.2.way)) 16 with
  | some w => (w, none, x.lfsr)
  | none =>
    let f := lfsrStep x.lfsr
    let cand := (List.range 16).filter (fun w => here.any (fun e => e.2.way == w && !x.isHeld e.1))
    let w := cand.getD (f % max cand.length 1) 0
    (w, (here.find? (fun e => e.2.way == w)).map (·.1), f)

/-- Installs a line in a cluster's L2, displacing a victim where the set is full (R244, R248). -/
def State.l2Install (s : State) (c line : Nat) (data : List Byte) (dirty poisoned : Bool) : State :=
  let (w, victim, f) := (s.cluster c).pick line
  let s := match victim with | some v => s.evictLine c v | none => s
  let s := s.setCluster c { s.cluster c with lfsr := f }
  s.setL2 c line { way := w, data := data, dirty := dirty, sharers := 0, owner := none, poisoned := poisoned }

/-- What ECC finds at one read. -/
inductive EccResult where
  | clean | corrected | uncorrectable
deriving DecidableEq, Repr

/-- What ECC finds at a read is free (assumption 52). -/
def State.ecc (s : State) : EccResult × State :=
  let (i, s) := s.draw
  (match (Config.freeWord i).toNat % 3 with
    | 0 => .clean
    | 1 => .corrected
    | _ => .uncorrectable, s)

/-- Brings a line into a cluster's L2 if it is not there; a miss counts (R248). An error that HBM's ECC cannot correct installs
the line poisoned (R255); MEM_HBM_ECC_CORR and _UNC count the errors (R267). -/
def State.l2Fetch (s : State) (c line : Nat) : State :=
  match s.l2Line c line with
  | some _ => s
  | none =>
    let (e, s) := s.ecc
    let s := match e with
      | .clean => s
      | .corrected => s.count MEM_HBM_ECC_CORR 1
      | .uncorrectable => s.count MEM_HBM_ECC_UNC 1
    (s.l2Install c line (s.hbmRead (line * 64) 64) false (s.isPoison line || e == .uncorrectable)).count64 (MEM_CL_L2MISS_LO c) 1

/-- The home takes a line for itself: it is brought in, no L1D keeps a copy, modified data is recalled (R251). -/
def State.homeTake (s : State) (c line : Nat) : State :=
  let s := (s.l2Fetch c line).dropL1 c line
  match s.l2Line c line with
  | some l => s.setL2 c line { l with dirty := l.dirty || l.owner.isSome, sharers := 0, owner := none }
  | none => s

/-- `bs` laid over `old` from byte `at_` on. -/
def overlay (old : List Byte) (at_ : Nat) (bs : List Byte) : List Byte :=
  old.take at_ ++ bs ++ old.drop (at_ + bs.length)

/-- A write of bytes inside one line performed at the L2 home: the line is brought in, every L1D copy is
invalidated, the bytes are written and the line is modified (R251, R252). -/
def State.homeWrite (s : State) (c a : Nat) (bs : List Byte) : State :=
  let line := a / 64
  let s := (s.l2Fetch c line).dropL1 c line
  match s.l2Line c line with
  | some l => s.setL2 c line
      { l with data := overlay l.data (a % 64) bs, dirty := true, sharers := 0, owner := none }
  | none => s

/-- Bytes cut at line boundaries: pairs of address and bytes. -/
def lineParts : Nat → Nat → List Byte → List (Nat × List Byte)
  | 0, _, _ => []
  | fuel + 1, a, bs =>
    if bs.isEmpty then []
    else
      let n := 64 - a % 64
      (a, bs.take n) :: lineParts fuel (a + n) (bs.drop n)

/-- A cluster stop's write of bytes into its cluster's L2 (R136, R252). -/
def State.stopWrite (s : State) (c a : Nat) (bs : List Byte) : State :=
  (lineParts (bs.length / 64 + 2) a bs).foldl (fun s p => s.homeWrite c p.1 p.2) s

/-- The nine L2s give up a line: an L2 that holds it modified writes it back first (R252). -/
def State.flushAll (s : State) (line : Nat) : State :=
  (List.range 9).foldl (fun s c => match s.l2Line c line with
    | some _ => s.evictLine c line
    | none => s) s

/-- A write of normal cacheable memory by an agent without a cache, applied to HBM (R252). -/
def State.agentWrite (s : State) (a : Nat) (bs : List Byte) : State :=
  if bs.isEmpty then s
  else
    let s := (List.range ((a + bs.length - 1) / 64 - a / 64 + 1)).foldl (fun s i => s.flushAll (a / 64 + i)) s
    s.hbmWrite a bs

/-- Words written by an agent without a cache. -/
def State.agentWords (s : State) (a : Nat) (ws : List Nat) : State :=
  s.agentWrite a (ws.flatMap (leBytes 8))

end Sys2Proof.Machine
end

