-- ==== Sys2Proof/Machine/Slices.lean ====
section
/-! DEFINITION. Slice streams and slices: their arithmetic (R51 to R59), the latency buffer (R125 to R130), the
directory entry (R128), marks (R124), absence (R497), and the disable made by the device (R495). -/

namespace Sys2Proof.Machine

/-! ## Stream parameters -/

/-- The timebase state (R40): 0 NOLOCK, 1 FREE, 2 SYNCED, 3 HOLDOVER. -/
def State.tstate (s : State) : Nat := s.fget TIM_STATE 0 3
/-- The measured MCLK period T in fs (R39). -/
def State.period (s : State) : Nat := s.rd TIM_MCLK_PERIOD
def State.strEn (s : State) (n : Nat) : Bool := s.fbit (TIM_STR_CTL n) 0
def State.strStop (s : State) (n : Nat) : Bool := s.fbit (TIM_STR_CTL n) 1
def State.strO (s : State) (n : Nat) : Nat := s.rd64 (TIM_STR_O_LO n)
def State.strW (s : State) (n : Nat) : Nat := s.fget (TIM_STR_W n) 0 13
def State.strD (s : State) (n : Nat) : Nat := s.fget (TIM_STR_D n) 0 13
def State.strLanes (s : State) (n : Nat) : Nat := s.rd64 (TIM_STR_LANES_LO n)
def State.strDepth (s : State) (n : Nat) : Nat := s.fget (TIM_STR_DEPTH n) 0 24
def State.strDir (s : State) (n : Nat) : Nat := s.rd64 (TIM_STR_DIR_LO n)
def State.strRsum (s : State) (n : Nat) : Nat := s.rd64 (TIM_STR_RSUM_LO n)
def State.nreg (s : State) : Nat := s.fget CTB_NREG 0 13
/-- RBLK = 256 × ⌈8 × CTB_NREG / 256⌉ (R125). -/
def State.rblk (s : State) : Nat := 256 * ceilDiv (8 * s.nreg) 256
/-- 10,000 less the FCLK down-spread in 0.01 % (R473). -/
def State.fq (s : State) : Nat := 10000 - s.fget ELC_SSC 0 8
/-- The same of the CCLK. -/
def State.cq (s : State) : Nat := 10000 - s.fget ELC_SSC 8 8
/-- FEAT0.CCLK_NOM (R2). -/
def cclkNom : Nat := if Config.speedF then 200 else 160

/-- The end E of slice k (R52). -/
def State.sliceEnd (s : State) (n k : Nat) : Nat := s.strO n + (k + 1) * s.strW n
/-- The start tick of slice k. -/
def State.sliceStart (s : State) (n k : Nat) : Nat := s.strO n + k * s.strW n
/-- The slice number of slice k (R52). -/
def snOf (k : Nat) : Nat := k % 2 ^ 48

/-- The lane-skew window rounded up to TCLK periods (R54); one TCLK period is T / 16. -/
def State.skewT (s : State) (n : Nat) : Nat :=
  if s.period = 0 then 0 else ceilDiv (s.fget (TIM_STR_SKEW n) 0 9 * 1000000 * 16) s.period

/-- The close instant of slice k in sixteenths of a tick (R54). -/
def State.closeT (s : State) (n k : Nat) : Nat := s.sliceEnd n k * 16 + s.skewT n

/-- c of R56: 5 at 96 MHz or less, else 6. DESIGN CHOICE (log entry 43): with no measured period, in NOLOCK, the spec gives no c and
the model takes 6. -/
def cutC (t : Nat) : Nat := if 1000000000 ≤ t * 96 then 5 else 6

/-- Some lane of the set with EN = 1 runs at 10.3125 Gbit/s (R57). -/
def State.slowLane (s : State) (lanes : Nat) : Bool :=
  (List.range 64).any (fun l => bit lanes l && s.fbit (FEL_CTL l) 0 && s.fget (FEL_CTL l) 1 2 == 1)

/-- The hardware floor F in ticks for a period `t`, a spread factor `q` of FCLK, a window and a lane rate (R57): the terms
of t_seal are 35.84 ns or 89.60 ns of the lane, T / 8, and 14 ns of FCLK divided by 1 − s. -/
def floorOf (t q skewT : Nat) (slow : Bool) : Nat :=
  if t = 0 then 0
  else
    let lane := if slow then 89600000 else 35840000
    ceilDiv (skewT * t * q + 16 * lane * q + 2 * t * q + 16 * 14000000 * 10000) (16 * t * q) + cutC t

/-- The hardware floor of stream n (R57). -/
def State.floor (s : State) (n : Nat) : Nat := floorOf s.period s.fq (s.skewT n) (s.slowLane (s.strLanes n))

/-- Stream n takes part at a time after its last enable: it is enabled. -/
def State.enabledStreams (s : State) : List Nat := (List.range 4).filter (fun n => s.strEn n)

/-! ## Slice numbers -/

/-- Where slice number `a` stands to `b` (R53). -/
inductive SnRel where
  | eq | later | earlier | outside
deriving DecidableEq, Repr

/-- The comparison of slice numbers within the window of 2⁴⁰ (R53). -/
def snRel (a b : Nat) : SnRel :=
  let d := (a + 2 ^ 48 - b % 2 ^ 48) % 2 ^ 48
  if d = 0 then .eq
  else if d < 2 ^ 40 then .later
  else if 2 ^ 48 - 2 ^ 40 < d then .earlier
  else .outside

/-- The current SN of a stream (R53): of the last slice sealed, before that of the first slice; none while disabled. -/
def State.curSn (s : State) (n : Nat) : Option Nat :=
  if s.strEn n then
    some (snOf (if (s.stream n).first < (s.stream n).next then (s.stream n).next - 1 else (s.stream n).first))
  else none

/-! ## The latency buffer -/

/-- The directory index of slice k (R125). -/
def State.dirIdx (s : State) (n k : Nat) : Nat := snOf k % s.strDepth n
/-- The address of its directory entry. -/
def State.dirAddr (s : State) (n k : Nat) : Nat := s.strDir n + 64 * s.dirIdx n k
/-- The address of its region-sum entry. -/
def State.rsumAddr (s : State) (n k : Nat) : Nat := s.strRsum n + s.rblk * s.dirIdx n k
/-- The chunk ring of engine e (R125). -/
def State.lbBase (s : State) (e : Nat) : Nat := s.rd64 (SLC_LB_LO e)
/-- The chunks of its ring. -/
def State.lbChunks (s : State) (e : Nat) : Nat := s.fget (SLC_LB_SIZE e) 0 14 * 1024

/-- The record of slice k of stream n. -/
def State.slice (s : State) (n k : Nat) : SliceRec := tabGet {} (s.stream n).recs k
/-- The state with that record replaced. -/
def State.setSlice (s : State) (n k : Nat) (r : SliceRec) : State :=
  s.setStream n { s.stream n with recs := tabIns (s.stream n).recs k r }

/-- A pinned slice other than k of stream n holds the directory entry of slice k (R130). -/
def State.dirPinned (s : State) (n k : Nat) : Bool :=
  s.pins.any (fun p => p.stream == n && p.dir == s.dirIdx n k && p.k != k)

/-- A pinned slice holds chunk i of engine e (R130). -/
def State.chunkPinned (s : State) (e i : Nat) : Bool :=
  s.pins.any (fun p => (tabGet [] p.chunks e).contains i)

/-- Slice k of stream n is pinned. -/
def State.isPinned (s : State) (n k : Nat) : Bool := s.pins.any (fun p => p.stream == n && p.k == k)

/-- The eight words of a directory entry (R128). -/
def dirWords (n k fin : Nat) (r : SliceRec) (valid pin : Bool) : List Nat :=
  let (acc, tt, df) := r.decided.getD (false, 0, false)
  [ snOf k * 2 ^ 16 + n * 2 ^ 14 + b2n valid * 2 ^ 13 + b2n r.corr * 2 ^ 12 + b2n r.late * 2 ^ 11
      + b2n r.lbloss * 2 ^ 10 + b2n r.hold * 2 ^ 9 + b2n acc * 2 ^ 8 + b2n df * 2 ^ 7 + b2n pin * 2 ^ 6,
    fin * 16 % 2 ^ 64, r.absent % 2 ^ 64, tt * 2 ^ 56 + r.nhit % 2 ^ 32 ] ++
  (List.range 4).map (fun e =>
    let c := tabGet {} r.chains e
    match c.chunks with
    | [] => 0xFFFFFF * 2 ^ 40
    | i :: _ => i * 2 ^ 40 + c.chunks.length * 2 ^ 16)

/-- The directory entry of slice k still holds it, with VALID = 1. -/
def State.dirHolds (s : State) (n k : Nat) : Bool :=
  let w := s.hbmWord (s.dirAddr n k)
  bits w 16 48 == snOf k && bits w 14 2 == n && bit w 13

/-- Writes the directory entry of slice k, unless a pinned slice holds it (R128, R130). -/
def State.dirWrite (s : State) (n k : Nat) (valid : Bool) : State :=
  if s.dirPinned n k then s
  else s.agentWords (s.dirAddr n k) (dirWords n k (s.sliceEnd n k) (s.slice n k) valid (s.isPinned n k))

/-- Sets or clears bit i of word 0 of slice k's directory entry while it holds the slice. -/
def State.dirFlag (s : State) (n k i : Nat) (v : Bool) : State :=
  if s.dirHolds n k then
    s.agentWords (s.dirAddr n k) [putBits (s.hbmWord (s.dirAddr n k)) i 1 (b2n v)]
  else s

/-- Sets the ABSENT bit of a lane in slice k's directory entry while it holds the slice. -/
def State.dirAbsent (s : State) (n k lane : Nat) : State :=
  if s.dirHolds n k then
    s.agentWords (s.dirAddr n k + 16) [setBit (s.hbmWord (s.dirAddr n k + 16)) lane]
  else s

/-- The trailer word of a chunk (R126). -/
def trailer (nxt used : Nat) : Nat := nxt % 2 ^ 24 * 2 ^ 40 + used % 2 ^ 12

/-- The trailer of a chunk that ends with `used` record bytes: the bytes of its last block not yet written, padded, and
the trailer in the last block (R126). -/
def State.closeChunk (s : State) (e i used nxt : Nat) (buf : List Byte) : State :=
  let a := s.lbBase e + 2048 * i
  let pos := used - buf.length
  if 1792 ≤ used && 1792 ≤ pos then
    s.agentWrite (a + 1792) (buf ++ List.replicate (248 - buf.length) 0 ++ leBytes 8 (trailer nxt used))
  else
    let s := if buf.isEmpty then s else s.agentWrite (a + pos) (buf ++ List.replicate (256 - buf.length) 0)
    s.agentWrite (a + 1792) (List.replicate 248 0 ++ leBytes 8 (trailer nxt used))

/-- Adds record bytes to a chain: whole 256-byte blocks are written as they fill, and a full chunk is closed when a
further byte takes the next one (R126). `fresh` is the supply of chunk indices. -/
def State.chainPut : Nat → State → Nat → Chain → List Nat → List Byte → State × Chain × List Nat
  | 0, s, _, c, fresh, _ => (s, c, fresh)
  | fuel + 1, s, e, c, fresh, bs =>
    match bs with
    | [] => (s, c, fresh)
    | _ :: _ =>
      match c.chunks.getLast? with
      | none =>
        match fresh with
        | [] => (s, c, fresh)
        | i :: fresh => State.chainPut fuel s e { c with chunks := [i], used := 0, buf := [] } fresh bs
      | some i =>
        if c.used = 2040 then
          match fresh with
          | [] => (s, c, fresh)
          | j :: fresh =>
            State.chainPut fuel (s.closeChunk e i 2040 j c.buf) e
              { c with chunks := c.chunks ++ [j], used := 0, buf := [] } fresh bs
        else
          let room := min (256 - c.buf.length) (2040 - c.used)
          let take := bs.take room
          let buf := c.buf ++ take
          let used := c.used + take.length
          let start := used - buf.length
          if buf.length = 256 then
            State.chainPut fuel (s.agentWrite (s.lbBase e + 2048 * i + start) buf) e
              { c with used := used, buf := [] } fresh (bs.drop room)
          else
            State.chainPut fuel s e { c with used := used, buf := buf } fresh (bs.drop room)

/-- The chunk indices that a record of `len` bytes still needs, in ring order; none where the ring has no room because a
chunk is pinned (R130). -/
def State.needChunks (s : State) (e : Nat) (c : Chain) (len : Nat) : Option (List Nat) :=
  let room := if c.chunks.isEmpty then 0 else 2040 - c.used
  let n := if len ≤ room then 0 else ceilDiv (len - room) 2040
  let ring := s.lbChunks e
  let ids := (List.range n).map (fun i => if ring = 0 then 0 else ((s.eng e).nextChunk + i) % ring)
  if n = 0 then some []
  else if ring = 0 || ids.any (fun i => s.chunkPinned e i) then none
  else some ids

/-- Closes the chain of engine e of slice k at the seal (R126). -/
def State.chainClose (s : State) (n k e : Nat) : State :=
  let c := tabGet {} (s.slice n k).chains e
  match c.chunks.getLast? with
  | none => s
  | some i => s.closeChunk e i c.used 0xFFFFFF c.buf

/-! ## Marks and absence -/

/-- The last slice of a stream that overlaps ticks up to `hi`. -/
def State.lastSlice (s : State) (n hi : Nat) : Nat := (hi - s.strO n) / s.strW n

/-- Slice k's span, from its start tick to its close instant, overlaps ticks `lo` to `hi` (R124). -/
def State.overlaps (s : State) (n k lo hi : Nat) : Bool := s.sliceStart n k ≤ hi && lo * 16 < s.closeT n k

/-- The slices of stream n that a tick range concerns. -/
def State.sliceRange (s : State) (n lo hi : Nat) : List Nat :=
  if hi < s.strO n then []
  else
    let top := s.lastSlice n hi
    let span := (hi - lo) / max (s.strW n) 1 + 2 + s.skewT n / (16 * max (s.strW n) 1)
    let bot := max (s.stream n).first (top - span)
    ((List.range (top + 1 - bot)).map (bot + ·)).filter (fun k => s.overlaps n k lo hi)

/-- Applies a mark other than absence to slice k (R124): the open slice's record, the sealed slice's directory entry, or
the count of lost marks. -/
def State.markSlice (s : State) (e n k : Nat) : State :=
  if (s.stream n).next ≤ k then
    if k ≤ (s.stream n).next + 63 then s.setSlice n k { s.slice n k with corr := true } else s
  else if s.dirHolds n k then s.dirFlag n k 12 true
  else s.count (SLC_MARK_LOST e) 1

/-- The enabled streams whose lane set holds a lane. -/
def State.streamsOf (s : State) (lane : Nat) : List Nat := s.enabledStreams.filter (fun n => bit (s.strLanes n) lane)

/-- Some slice of the mark's range is not yet open in stream n. -/
def State.marksAhead (s : State) (n hi : Nat) : Bool :=
  s.strO n ≤ hi && (s.stream n).next + 63 < s.lastSlice n hi

/-- The distance of two tick ranges (R124). -/
def rangeDist (a b : Mark) : Nat := if a.hi < b.lo then b.lo - a.hi - 1 else if b.hi < a.lo then a.lo - b.hi - 1 else 0

/-- The pairs of candidates of one lane and kind with their distance, in order of age. -/
def markPairs (l : List Mark) : List (Nat × Nat × Nat) :=
  (List.range l.length).flatMap (fun i => (List.range l.length).filterMap (fun j =>
    match l[i]?, l[j]? with
    | some a, some b => if i < j && a.lane == b.lane && a.kind == b.kind then some (rangeDist a b, i, j) else none
    | _, _ => none))

/-- The pair of least distance, the first on a tie. -/
def closest : List (Nat × Nat × Nat) → Option (Nat × Nat)
  | [] => none
  | (d, i, j) :: rest =>
    match closest rest with
    | none => some (i, j)
    | some p => if rest.all (fun q => d ≤ q.1) then some (i, j) else some p

/-- The number of a kind: the index of its overflow entry. -/
def MarkKind.idx : MarkKind → Nat
  | .corrupt => 0
  | .unresolved => 1
  | .far => 2
  | .absence => 3

/-- Puts a mark into the pending-mark table of an engine (R124): while there is room as a new entry; else the two closest
candidates of one lane and kind are merged; else it enters the overflow entry of its kind. -/
def State.pendMark (s : State) (e : Nat) (m : Mark) : State :=
  let x := s.eng e
  if x.pend.length < 16 then
    let x := { x with pend := x.pend ++ [m] }
    let s := s.setEng e x
    s.fset (SLC_MARKQ e) 0 5 (max (s.fget (SLC_MARKQ e) 0 5) x.pend.length)
  else
    let all := x.pend ++ [m]
    match closest (markPairs all) with
    | some (i, j) =>
      match all[i]?, all[j]? with
      | some a, some b =>
        let ab := { a with lo := min a.lo b.lo, hi := max a.hi b.hi }
        s.setEng e { x with pend := (setIdx all i ab).eraseIdx j }
      | _, _ => s
    | none =>
      let o := tabGet { lanes := 0, lo := m.lo, hi := m.hi } x.ovf m.kind.idx
      let o := { lanes := setBit o.lanes m.lane, lo := min o.lo m.lo, hi := max o.hi m.hi }
      (s.setEng e { x with ovf := tabIns x.ovf m.kind.idx o }).fset (SLC_MARKQ e) 8 1 1

/-- A mark of a kind other than absence reaches engine e (R124). -/
def State.applyMark (s : State) (e : Nat) (m : Mark) : State :=
  let ns := s.streamsOf m.lane
  let s := ns.foldl (fun s n => (s.sliceRange n m.lo m.hi).foldl (fun s k => s.markSlice e n k) s) s
  if ns.any (fun n => s.marksAhead n m.hi) then s.pendMark e m else s

/-- The pending marks of engine e applied to slice k of stream n as it opens, and the spent ones dropped (R124). -/
def State.openMarks (s : State) (e n k : Nat) : State :=
  let x := s.eng e
  let hit := x.pend.any (fun m => bit (s.strLanes n) m.lane && s.overlaps n k m.lo m.hi) ||
    x.ovf.any (fun o => (List.range 64).any (fun l => bit o.2.lanes l && bit (s.strLanes n) l) &&
      s.overlaps n k o.2.lo o.2.hi)
  let s := if hit then s.setSlice n k { s.slice n k with corr := true } else s
  let live (lane hi : Nat) : Bool := (s.streamsOf lane).any (fun n => s.marksAhead n hi)
  s.setEng e { x with
    pend := x.pend.filter (fun m => live m.lane m.hi)
    ovf := x.ovf.filter (fun o => (List.range 64).any (fun l => bit o.2.lanes l && live l o.2.hi)) }

/-- The absence period of a lane overlaps slice k (R88, R497). -/
def State.absentIn (s : State) (n k : Nat) (r : AbsReg) : Bool :=
  decide (r.start < (s.closeT n k : Int)) &&
    (match r.stop with | none => true | some t => s.sliceStart n k < t)

/-- The ABSENT bits that the absence registers give slice k of stream n (R497). -/
def State.absentMask (s : State) (n k : Nat) : Nat :=
  (List.range 64).foldl (fun m l =>
    if bit (s.strLanes n) l then
      match tabFind (s.eng (l / 16)).absReg l with
      | some r => if s.absentIn n k r then setBit m l else m
      | none => m
    else m) 0

/-- Absence registers whose last slice has sealed clear (R497). -/
def State.clearAbsent (s : State) : State :=
  (List.range 4).foldl (fun s e =>
    s.setEng e { s.eng e with absReg := (s.eng e).absReg.filter (fun x =>
      match x.2.stop with
      | none => true
      | some t => (s.streamsOf x.1).any (fun n => s.sliceStart n (s.stream n).next < t)) }) s

/-- The sealed slices of stream n that the absence period of a register overlaps: those whose close instant is later than the
loss instant (R88, R497). -/
def State.absentSealed (s : State) (n : Nat) (r : AbsReg) : List Nat :=
  let w := max (s.strW n) 1
  let bot := max (s.stream n).first ((r.start.toNat / 16 - s.strO n) / w - (s.skewT n / (16 * w) + 2))
  ((List.range ((s.stream n).next - bot)).map (bot + ·)).filter (fun k => s.absentIn n k r)

/-- A lane's loss loads its absence register and marks the slices already sealed (R88, R497). -/
def State.loseLane (s : State) (lane : Nat) (start : Int) : State :=
  let e := lane / 16
  let r : AbsReg := match tabFind (s.eng e).absReg lane with
    | some r => { r with stop := none }
    | none => { start := start, stop := none }
  let s := s.setEng e { s.eng e with absReg := tabIns (s.eng e).absReg lane r }
  (s.streamsOf lane).foldl (fun s n =>
    (s.absentSealed n r).foldl (fun s k => s.dirAbsent n k lane) s) s

/-- A lane's entry into UP ends its absence at the edge that ends the tick (R88). -/
def State.foundLane (s : State) (lane : Nat) : State :=
  let e := lane / 16
  match tabFind (s.eng e).absReg lane with
  | some r => s.setEng e { s.eng e with absReg := tabIns (s.eng e).absReg lane { r with stop := some (s.time.tick + 1) } }
  | none => s

/-! ## Subscriptions and slots -/

/-- The partitions with an enabled subscription to stream n, with a test on SLC_SUB_CTL, in PN order. -/
def State.subsOf (s : State) (n : Nat) (p : Nat → Bool) : List Nat :=
  (List.range 2048).filter (fun pn =>
    match tabFind s.regs (SLC_SUB_CTL pn) with
    | some v => bit v.toNat 31 && bits v.toNat 27 2 == n && p v.toNat
    | none => false)

/-- The enabled decision slots of stream n, lowest first. -/
def State.slotsOf (s : State) (n : Nat) : List Nat :=
  (List.range 1024).filter (fun t =>
    match tabFind s.regs (DCF_SLOT_CTL t) with
    | some v => bit v.toNat 31 && bits v.toNat 28 2 == n
    | none => false)

/-- The enabled slot of a partition (R140). -/
def State.slotOf (s : State) (pn : Nat) : Option Nat :=
  (List.range 1024).find? (fun t =>
    match tabFind s.regs (DCF_SLOT_CTL t) with
    | some v => bit v.toNat 31 && bits v.toNat 16 11 == pn
    | none => false)

/-- A delivering subscription. -/
def subDelivers (ctl : Nat) : Bool := bit ctl 30
/-- A subscription that reads out. -/
def subReads (ctl : Nat) : Bool := bit ctl 29
/-- The depth QD of a subscription's queue. -/
def State.subQd (s : State) (pn : Nat) : Nat := s.fget (SLC_SUB_CTL pn) 0 6 + 1
/-- The stream of a subscription. -/
def State.subStr (s : State) (pn : Nat) : Nat := s.fget (SLC_SUB_CTL pn) 27 2
/-- The logical cluster of a subscription. -/
def State.subCl (s : State) (pn : Nat) : Nat := s.fget (SLC_SUB_CTL pn) 24 3
def State.subEn (s : State) (pn : Nat) : Bool := s.fbit (SLC_SUB_CTL pn) 31
def State.subRcnt (s : State) (pn : Nat) : Nat := s.fget (SLC_SUB_RGN pn) 16 13
def State.subRbase (s : State) (pn : Nat) : Nat := s.fget (SLC_SUB_RGN pn) 0 12
def State.subHq (s : State) (pn : Nat) : Nat := s.fget (SLC_SUB_HQ pn) 0 14
def State.subRing (s : State) (pn : Nat) : Nat := s.rd64 (SLC_SUB_RING_LO pn)
/-- SLOTSZ (R135). -/
def State.slotSz (s : State) (pn : Nat) : Nat := 64 + 64 * ceilDiv (s.subRcnt pn) 8 + 256 * s.subHq pn

/-- t_deliver in whole ns for a subscription to stream `str` (R137), with `others` enabled streams beside it. -/
def State.tdlv (s : State) (str others : Nat) : Nat :=
  let a := 10 + ceilDiv s.nreg 32 + ceilDiv s.nreg 8 + 32 + 32 * min (str + 1) others
  let d := cclkNom * s.cq
  ceilDiv (a * 10000 * d + 3000000 * s.fq) (s.fq * d)

/-- t_hit in whole ns for a sum S of hit-part sizes (R138). -/
def State.thit (s : State) (sum : Nat) : Nat :=
  let d := cclkNom * s.cq
  ceilDiv ((117 + ceilDiv sum 2) * 10000 * d + 3000000 * s.fq) (s.fq * d)

/-- The enabled streams other than `n`. -/
def State.otherStreams (s : State) (n : Nat) : Nat := (s.enabledStreams.filter (fun m => m != n)).length

/-- SLC_SUB_TDLV and SLC_SUB_THIT of every enabled delivering subscription (R137, R138); `subThit` gives what THIT reads. -/
def State.recomputeSubs (s : State) : State :=
  (List.range 4).foldl (fun s n =>
    let subs := s.subsOf n subDelivers
    let s := subs.foldl (fun s pn => s.wr (SLC_SUB_TDLV pn) (min (s.tdlv n (s.otherStreams n)) 0xFFFF)) s
    let slots := s.slotsOf n
    subs.foldl (fun s pn =>
      let hq := s.subHq pn
      match s.slotOf pn with
      | some t =>
        if hq = 0 then s.wr (SLC_SUB_THIT pn) 0
        else
          let sum := sumN ((slots.filter (fun u => u ≤ t)).map (fun u => s.subHq (s.fget (DCF_SLOT_CTL u) 16 11)))
          s.wr (SLC_SUB_THIT pn) (min (s.thit sum) 0xFFFF)
      | none => s.wr (SLC_SUB_THIT pn) 0) s) s

/-- What a read of SLC_SUB_THIT gives: 0 when HQ = 0 or the subscription holds no slot (R150). -/
def State.subThit (s : State) (pn : Nat) : Nat :=
  if s.subEn pn && s.subHq pn != 0 && (s.slotOf pn).isSome then s.rd (SLC_SUB_THIT pn) else 0

/-! ## The decision word -/

/-- A subscription still forms a notice of slice k of stream n, or is still to receive hits of it. -/
def State.sliceNeeded (s : State) (n k : Nat) : Bool :=
  s.fabric.seals.any (fun f => f.stream == n && f.k == k) ||
    s.subs.any (fun e => e.2.flits.any (fun f => f.1.stream == n && f.1.k == k) ||
      (s.subStr e.1 == n && e.2.copies.any (fun c => c.1 == k)))

/-- The 24 data bits of a DECISION word (R146). -/
def decisionData (n : Nat) (acc d : Bool) (sn tt : Nat) : Nat :=
  let hi := n * 64 + b2n acc * 32 + b2n d * 16 + sn % 16
  hi * 2 ^ 16 + tt * 2 ^ 8 + Nat.xor (Nat.xor hi tt) 0x5A

/-- A word leaves the enabled lanes of the DOL: character 0 and data (R146, R147). -/
def State.dolWord (s : State) (k : Byte) (w : Nat) : State :=
  let a := s.fbit TIM_DOL_CTL 0
  let b := s.fbit TIM_DOL_CTL 1
  if a || b then s.emit (.dol a b k (BitVec.ofNat 24 w)) else s

/-- The decision word of slice k of stream n: an accepted slice counts, and the word, K28.1 and its data, fills the word slot
of the tick (R55, R146, R151). -/
def State.sendDecision (s : State) (n k : Nat) : State :=
  let (acc, tt, d) := (s.slice n k).decided.getD (false, 0, false)
  let s := if acc then s.count64 DCF_ACC_LO 1 else s
  let s := if s.fbit TIM_DOL_CTL 0 || s.fbit TIM_DOL_CTL 1 then s.countWrap TIM_DOL_WORDS 1 else s
  (s.dolWord 0x3C (decisionData n acc d (snOf k) tt)).withTime { s.time with dolTick := some s.time.tick }

/-- The word slot of slice k has begun: tick E + D − 1 (R55). -/
def State.slotBegun (s : State) (n k : Nat) : Bool := s.sliceEnd n k + s.strD n ≤ s.time.tick + 1

/-! ## The disable made by the device -/

/-- A pin of slice k of stream n is dropped, and its PIN bit clears. -/
def State.unpin (s : State) (n k : Nat) : State :=
  if s.isPinned n k then
    (s.withPins (s.pins.filter (fun p => !(p.stream == n && p.k == k)))).dirFlag n k 6 false
  else s

/-- EN and STOP of stream n read 0, and it has no current SN (R149, R495); the reports of R137 are computed anew. -/
def State.streamOff (s : State) (n : Nat) : State :=
  let s := (s.setStream n { recs := (s.stream n).recs.filter (fun e => s.sliceNeeded n e.1) }).fset (TIM_STR_CTL n) 0 2 0
  (s.fset (TIM_STR_SN_HI n) 31 1 0).recomputeSubs

/-- What a cut-off counted is taken back, where the register still holds it (R495, log entry 44). -/
def State.uncount (s : State) (l : List (Nat × Nat × Nat)) : State :=
  l.foldl (fun s c => if s.rd c.1 = c.2.2 then s.wr c.1 c.2.1 else s) s

/-- TT of slice k in its directory entry while it holds the slice. -/
def State.dirTt (s : State) (n k tt : Nat) : State :=
  if s.dirHolds n k then
    s.agentWords (s.dirAddr n k + 24) [putBits (s.hbmWord (s.dirAddr n k + 24)) 56 8 tt]
  else s

/-- A sealed slice whose word slot has not begun stays undecided (R495): ACC = 0, TT = 0, DEF = 0, no pin, nothing counted. -/
def State.undecide (s : State) (n k : Nat) : State :=
  let s := (s.unpin n k).uncount (s.slice n k).counted
  let s := s.setSlice n k { s.slice n k with decided := none, counted := [] }
  ((s.dirFlag n k 8 false).dirFlag n k 7 false).dirTt n k 0

/-- The creation queue with its occupancy (R310, R340). -/
def State.setCreq (s : State) (l : List CreateReq) : State := (s.withCreq l).fset CHS_CREQ 0 7 l.length

/-- The slices of a stream that have begun and are not sealed; in a stop none after that which ends at E_last (R149, R495). -/
def State.unsealed (s : State) (n : Nat) : List Nat :=
  let st := s.stream n
  let t := s.time.tick
  let begun := if t < s.strO n then 0 else (t - s.strO n) / max (s.strW n) 1 + 1
  ((List.range (begun - st.next)).map (st.next + ·)).filter
    (fun k => match st.stopEnd with | some e => s.sliceEnd n k ≤ e | none => true)

/-- The device disables stream n at once (R495): unsealed slices whose start tick has passed are discarded with
VALID = 0, sealed slices whose word slot has not begun are left undecided, and a word slot that has begun completes. -/
def State.disableStream (s : State) (n : Nat) : State :=
  let st := s.stream n
  let s := (s.unsealed n).foldl (fun s k => s.dirWrite n k false) s
  let sealed := (List.range (st.next - st.out)).map (st.out + ·)
  let waiting := sealed.filter (fun k => !s.slotBegun n k || st.cut ≤ k)
  let s := (sealed.filter (fun k => s.slotBegun n k && k < st.cut)).foldl (fun s k => s.sendDecision n k) s
  let s := waiting.reverse.foldl (fun s k => s.undecide n k) s
  let s := s.setCreq (s.creq.filter (fun q => !(q.stream == n && waiting.contains q.k)))
  s.streamOff n

/-- Disables every enabled stream, recording a status with the stream in INFO (R495). DESIGN CHOICE (log entry 43): one entry for
each stream, and one with INFO 0 where no stream is enabled; the spec says only that the cause's entry names the stream. -/
def State.disableAll (s : State) (st : Nat) : State :=
  match s.enabledStreams with
  | [] => s.errLog st srcTim none 0
  | ns => ns.foldl (fun s n => (s.disableStream n).errLog st srcTim none n) s

/-- Streams whose floor has risen above their deadline are disabled at once (R58). -/
def State.checkFloors (s : State) : State :=
  s.enabledStreams.foldl (fun s n =>
    if s.strD n < s.floor n then (s.disableStream n).errLog stConflict srcTim none n else s) s

end Sys2Proof.Machine
end

