-- ==== Sys2Proof/Machine/Power.lean ====
section
/-! DEFINITION. Power domains: the votes (R420, R421), the target (R419), wake events and the race of an entry with them
(R424 to R427). The votes of the internal clients are functions of the state. -/

namespace Sys2Proof.Machine

/-! ## Pairs, logical pairs and clusters -/

/-- PAI_ST.ROLE (R299). -/
def State.role (s : State) (pp : Nat) : Nat := s.fget (PAI_ST pp) 29 3
/-- The logical pair that a physical pair fills. -/
def State.lpOf (s : State) (pp : Nat) : Option Nat :=
  if s.fbit (PAI_ST pp) 22 then some (s.fget (PAI_ST pp) 16 6) else none
/-- The physical pair that fills a logical pair, while CLU_LPs_MAP.V = 1 (R14, R298). -/
def State.ppOf (s : State) (lp : Nat) : Option Nat :=
  if s.fbit (CLU_LP_MAP lp) 31 then some (s.fget (CLU_LP_MAP lp) 0 7) else none
/-- CLU_LPs_MAP.STATE: 0 in service, 1 takeover, 2 failover, 3 EMPTY, 4 HALTED. -/
def State.lpState (s : State) (lp : Nat) : Nat := s.fget (CLU_LP_MAP lp) 28 3
/-- The physical cluster that fills logical cluster `c` (CLU_ST.PCL). -/
def State.pclOf (s : State) (c : Nat) : Nat := s.fget (CLU_ST c) 16 4
/-- The logical cluster that a physical cluster fills. -/
def State.lclOf (s : State) (p : Nat) : Option Nat :=
  (List.range 8).find? (fun c => s.pclOf c == p && s.fget (CLU_ST c) 8 2 != 2)
/-- A pair runs split. -/
def State.isSplit (s : State) (pp : Nat) : Bool := s.fbit (PAI_ST pp) 28
def State.lp (s : State) (l : Nat) : LpSt := tabGet {} s.lps l
def State.setLp (s : State) (l : Nat) (x : LpSt) : State := s.withLps (tabPut {} s.lps l x)
def State.dom (s : State) (d : Nat) : DomSt := tabGet {} s.doms d
def State.setDom (s : State) (d : Nat) (x : DomSt) : State := s.withDoms (tabPut {} s.doms d x)

/-! ## Window tables (R178) -/

/-- The high word of a window-table entry (R178, R298). -/
def State.wtHi (s : State) (l b e : Nat) : Nat := s.rd (CLU_WT_HI l b e)

/-- NW of a bank: its leading entries with V = 1. -/
def State.nw (s : State) (l b : Nat) : Nat :=
  match (List.range 64).find? (fun e => !bit (s.wtHi l b e) 31) with
  | some e => e
  | none => 64

/-- The windows of a bank: the partition named, or none for IDLE, and the length in ticks. -/
def State.windows (s : State) (l b : Nat) : List (Option Nat × Nat) :=
  (List.range (s.nw l b)).map (fun e =>
    let w := s.wtHi l b e
    (if bit w 30 then none else some (bits w 16 11), bits w 0 12 + 1))

/-- MF of a bank: the sum of its window lengths. -/
def majorFrame (ws : List (Option Nat × Nat)) : Nat := sumN (ws.map (·.2))

/-- The bank in force (CBANK). -/
def State.cbank (s : State) (l : Nat) : Nat := s.fget (CLU_LP_WCTL l) 8 1

/-- A window of the bank in force of a logical pair names the partition. -/
def State.namesPn (s : State) (l pn : Nat) : Bool := (s.windows l (s.cbank l)).any (fun w => w.1 == some pn)

/-! ## Votes -/

/-- PWR_Dd_ST.STATE: 0 RUN, 1 IDLE, 2 DOZE, 3 BIVOUAC (R417). -/
def State.dstate (s : State) (d : Nat) : Nat := s.fget (PWR_D_ST d) 0 2
/-- PWR_Dd_ST.PHASE: 0 steady, 1 entering before the PNR, 2 after it, 3 exiting. -/
def State.dphase (s : State) (d : Nat) : Nat := s.fget (PWR_D_ST d) 4 2

/-- The pair vote of a partition, IDLE for DOZE where it holds an enabled slot (R421). -/
def State.pvote (s : State) (pn : Nat) : Nat :=
  let v := s.fget (PWR_PVOTE pn) 0 2
  if v = 2 && (s.slotOf pn).isSome then 1 else v

/-- A core issues instructions: it neither waits in WFI or SLGET nor is it fenced. -/
def CoreWait.issues : CoreWait → Bool
  | .wfi => false
  | .slget _ => false
  | .fenced => false
  | _ => true

/-- The USE vote of one core of a pair whose logical pair runs partition `cur` (R420). -/
def State.coreUse (s : State) (k : Nat) (cur : Option Nat) : Nat :=
  match cur with
  | some pn => if (s.core k).wait.issues then 0 else s.pvote pn
  | none => 3

/-- The USE vote of a pair (R420). -/
def State.pairUse (s : State) (pp : Nat) : Nat :=
  match s.lpOf pp with
  | some l =>
    let cur := (s.lp l).cur
    if s.isSplit pp then min (s.coreUse (2 * pp) cur) (s.coreUse (2 * pp + 1) cur) else s.coreUse (2 * pp) cur
  | none => 3

/-- The FE lanes of group `g` with EN = 1 (R85). -/
def State.groupLanes (s : State) (g : Nat) : Bool := (List.range 4).any (fun i => s.fbit (FEL_CTL (4 * g + i)) 0)

/-- A unit of a domain is under test (R438): by BST, or by its rotation test. -/
def State.underTest (s : State) (d : Nat) : Bool :=
  (match s.test with | some (_, t) => t == d | none => false) ||
    (d < 81 && s.role d == 3) || (90 ≤ d && d < 106 && s.fget (CMP_ST (d - 90)) 16 3 == 2)

/-- The state of a pair domain in the vote of its cluster: one that exits counts as RUN, so that the cluster does not close under it
(R422; DEDUCED, assumption 68). -/
def State.stateForVote (s : State) (d : Nat) : Nat := if s.dphase d = 3 then 0 else s.dstate d

/-- The USE vote of a domain (R420). -/
def State.useVote (s : State) (d : Nat) : Nat :=
  if d < 81 then s.pairUse d
  else if d < 90 then
    (List.range 9).foldl (fun v i => min v (s.stateForVote (9 * (d - 81) + i))) 3
  else if d < 106 then
    if s.fget (CMP_ST (d - 90)) 8 2 != 0 then 0 else if s.fbit (CMP_CTL (d - 90)) 0 then 2 else 3
  else if d < 122 then (if s.groupLanes (d - 106) then 0 else 3)
  else if d < 126 then (if s.fbit (WRR_CTL ((d - 122) / 2)) 0 then 0 else 3)
  else if d < 130 then 0
  else if s.tstate ≠ 0 || s.fget TIM_DOL_CTL 0 2 ≠ 0 then 0 else 3

/-- A takeover brings in physical pair `pp`. -/
def State.takingOver (s : State) (pp : Nat) : Bool := s.lps.any (fun e => e.2.tk == some pp)

/-- A failover brings in cluster 8. -/
def State.failingOver (s : State) : Bool :=
  (List.range 8).any (fun c => s.fget (CLU_ST c) 8 2 == 1 && s.fget CLU_SP_ST 24 4 == c)

/-- The SPARE vote of a domain (R420). -/
def State.spareVote (s : State) (d : Nat) : Nat :=
  if d < 81 then (if s.takingOver d || (72 ≤ d && s.failingOver) then 0 else 3)
  else if d = 89 then (if s.failingOver then 0 else 3) else 3

/-- The ROT vote of a domain (R420). -/
def State.rotVote (s : State) (d : Nat) : Nat :=
  if d < 81 || (90 ≤ d && d < 106) then (if s.underTest d then 0 else 3)
  else if d = 89 then (if s.underTest 72 then 0 else 3) else 3

/-- The WAKE vote: RUN from a wake event until it has been delivered (R425). -/
def State.wakeVote (s : State) (d : Nat) : Nat := if (s.dom d).latch.isEmpty then 3 else 0

/-- The six votes as PWR_Dd_VOTE shows them (R440). -/
def State.votes (s : State) (d : Nat) : Nat :=
  s.fget (PWR_D_VOTE d) 0 4 + s.useVote d * 2 ^ 8 + s.spareVote d * 2 ^ 10 + s.rotVote d * 2 ^ 12 + s.wakeVote d * 2 ^ 14

/-- The target of a domain: the shallowest state of its votes (R419). -/
def State.target (s : State) (d : Nat) : Nat :=
  min (min (s.fget (PWR_D_VOTE d) 0 2) (s.fget (PWR_D_VOTE d) 2 2))
    (min (min (s.useVote d) (s.spareVote d)) (min (s.rotVote d) (s.wakeVote d)))

/-- A domain is in sparing readiness (R283). -/
def State.sparing (s : State) (d : Nat) : Bool :=
  s.dstate d == 3 && ((d < 81 && (s.role d == 1 || s.role d == 2)) || d == 89)

/-- PWR_Dd_ST as it reads: the target and SPR beside the fields held. -/
def State.domStatus (s : State) (d : Nat) : Nat :=
  putBits (putBits (s.rd (PWR_D_ST d)) 2 2 (s.target d)) 6 1 (b2n (s.sparing d))

/-! ## Re-evaluation -/

/-- An entry is aborted by a wake before its PNR (R424). -/
def State.abortEntry (s : State) (d : Nat) : State :=
  let s := (s.fset (PWR_D_ST d) 4 2 0).fset (PWR_D_ST d) 8 8 stWakeRace
  ((s.fset (PWR_D_ST d) 0 2 (s.dom d).prev).count (PWR_D_RACE d) 1).count PWR_RACE 1

/-- The exit of a domain begins (R419). -/
def State.beginExit (s : State) (d : Nat) : State := s.fset (PWR_D_ST d) 4 2 3

/-- A shallower target before the PNR aborts the entry; what woke it is then as if no entry had begun (R424). -/
def State.abortAndExit (s : State) (d : Nat) : State :=
  let s := s.abortEntry d
  if s.target d < s.dstate d then s.beginExit d else s

/-- The cluster domain of a pair domain. -/
def clusterDom (d : Nat) : Nat := 81 + d / 9

/-- The votes of a domain that is no pair are re-evaluated after a change that may have made its target shallower
(R419, R426): a steady domain exits, an entry before its PNR is aborted, an entry after it latches the wake as event 5. -/
def State.reevalUnit (s : State) (d : Nat) : State :=
  match s.dphase d with
  | 0 => if s.target d < s.dstate d then s.beginExit d else s
  | 1 => if s.target d < (s.dom d).aim then s.abortAndExit d else s
  | 2 => if s.target d < (s.dom d).aim && (s.dom d).latch.isEmpty then
      s.setDom d { s.dom d with latch := [5] } else s
  | _ => s

/-- The same of any domain: a pair exits only once its cluster runs, and its wake wakes the cluster (R422, R427). -/
def State.reeval (s : State) (d : Nat) : State :=
  if d < 81 && s.target d < s.dstate d && s.dphase d == 0 && s.dstate (clusterDom d) != 0 then
    let c := clusterDom d
    let s := if (s.dom c).latch.isEmpty then s.setDom c { s.dom c with latch := [0] } else s
    s.reevalUnit c
  else s.reevalUnit d

/-- Every pair whose current window names a partition. -/
def State.reevalPartition (s : State) (pn : Nat) : State :=
  (List.range 81).foldl (fun s pp => match s.lpOf pp with
    | some l => if (s.lp l).cur = some pn then s.reeval pp else s
    | none => s) s

/-- A wake source is enabled; the window start of a pair always is (R426, R440). -/
def State.wakeOn (s : State) (d src : Nat) : Bool := s.fbit (PWR_D_WAKEEN d) src || (d < 81 && src == 3)

/-- The wake sources a domain kind has (R440). -/
def wakeSources (d : Nat) : Nat := if d < 81 then 5 else if d < 106 then 1 else 2

/-- A wake event of a source of a domain (R424 to R426). -/
def State.wake (s : State) (d src : Nat) : State :=
  if wakeSources d ≤ src then s
  else if !s.wakeOn d src then
    if s.dstate d = 0 && s.dphase d = 0 then s
    else s.setDom d { s.dom d with waiting := (s.dom d).waiting ++ [src] }
  else
    match s.dphase d with
    | 2 | 3 => s.setDom d { s.dom d with latch := (s.dom d).latch ++ [src] }
    | p =>
      let s := if p = 1 then s.abortEntry d else s
      if s.dstate d = 0 then s
      else (s.setDom d { s.dom d with latch := (s.dom d).latch ++ [src] }).reeval d

/-- The expected step count of the test of a target (R435): pairs, pair 0 of cluster 8, engine units. -/
def expectedSteps (t : Nat) : Nat :=
  if t = 72 then 496 else if t < 81 then 304 else if 90 ≤ t && t < 106 then 88 else Config.expectedSteps t

/-- The results of a test (R436). -/
inductive TestRes where
  | pass | incomplete | fail
deriving DecidableEq, Repr

/-- The result of a test from its signature (R436). -/
def testRes (t misr steps : Nat) : TestRes :=
  if steps < expectedSteps t then .incomplete
  else if steps = expectedSteps t && misr = (Config.expectedMisr t).toNat then .pass
  else .fail

/-- A write of the votes of a domain: refused while its unit is under test (R438, R440). -/
def State.voteDom (s : State) (d v : Nat) : State :=
  if s.underTest d then s.fset PWR_ST 0 8 stTesting
  else ((s.fset (PWR_D_VOTE d) 0 4 v).fset PWR_ST 0 8 stOk).reeval d

/-- A write of a partition's pair vote (R421, R440): 0b11 is reserved. -/
def State.votePn (s : State) (pn v : Nat) : State :=
  if v % 4 = 3 then (s.fset PWR_ST 0 8 stArg).errLog stArg srcPwr none (PWR_PVOTE pn)
  else ((s.fset (PWR_PVOTE pn) 0 2 v).fset PWR_ST 0 8 stOk).reevalPartition pn

end Sys2Proof.Machine
end

