-- ==== Sys2Proof/Machine/Timebase.lean ====
section
/-! DEFINITION. The timebase: timing PLL, tick counter, Timing Input Link (R39 to R48, R472, TIMESET of R457), and the tick
edge, which is what a step on the empty queue does (assumption 3). -/

namespace Sys2Proof.Machine

/-- TIM_STATE.STATE takes a value; a change raises manager event TIMEBASE (R40, R459). -/
def State.setTstate (s : State) (v : Nat) : State :=
  if s.tstate = v then s else (s.fset TIM_STATE 0 3 v).mgrEvent 7

/-- A period in fs of 20 MHz to 125 MHz (R39). -/
def periodOk (p : Nat) : Bool := 8000000 ≤ p && p ≤ 50000000

/-- The timebase enters NOLOCK with the counter frozen (R40, R41): the period reads 0, waiting loads are dropped, and no tick tells
the age of the invalid headers of the lanes any longer (R87). -/
def State.enterNolock (s : State) : State :=
  let s := s.withLanes (s.lanes.map (fun e => (e.1, { e.2 with badTicks := e.2.badTicks.map (fun _ => none) })))
  let s := s.wr TIM_MCLK_PERIOD 0
  (s.withTime { s.time with loads := [], holdEdges := 0 }).setTstate 0

/-- The period measured at a lock (R39, R472). -/
def State.setPeriod (s : State) (p : Nat) : State :=
  (s.wr TIM_MCLK_PERIOD p).withTime { s.time with lockPeriod := p }

/-- MCLK is declared lost (R41). -/
def State.mclkLost (s : State) : State :=
  match s.tstate with
  | 1 => s.enterNolock
  | 2 => (s.withTime { s.time with holdEdges := 0 }).setTstate 3
  | _ => s

/-- A load of the tick counter falls due at the edge that would begin tick `n` (R47, R457): the state, and the number
that tick takes. The count never jumps while a stream is enabled. -/
def State.loadDue (s : State) (n v : Nat) (timeset : Bool) : State × Nat :=
  if timeset then
    match s.tstate with
    | 0 => (s, n)
    | 1 => (s.setTstate 2, v)
    | _ => (s, if s.enabledStreams.isEmpty then v else n)
  else
    match s.tstate with
    | 1 => (s.setTstate 2, v)
    | 0 => (s, n)
    | _ =>
      if v = n then (s.count TIM_TS_MATCH 1, n)
      else
        let s := (s.count TIM_TS_MISMATCH 1).errLog stConflict srcTim none 0
        (s, if s.enabledStreams.isEmpty then v else n)

/-- The loads that fall due at an edge, oldest first. -/
def State.loadsDue : State → Nat → List (Nat × Nat × Bool) → State × Nat
  | s, n, [] => (s, n)
  | s, n, (_, v, t) :: rest =>
    let (s, n) := s.loadDue n v t
    State.loadsDue s n rest

/-- Slices that end at tick `t` in HOLDOVER carry the holdover flag (R41). -/
def State.markHoldover (s : State) (t : Nat) : State :=
  s.enabledStreams.foldl (fun s n =>
    if s.strO n < t && (t - s.strO n) % s.strW n == 0 then
      let k := (t - s.strO n) / s.strW n - 1
      if (s.stream n).next ≤ k then s.setSlice n k { s.slice n k with hold := true } else s
    else s) s

/-- The tick that ends has sent IDLE, K28.5 and zeros, unless its word slot held a DECISION word (R146, R147). -/
def State.dolIdle (s : State) : State := if s.time.dolTick = some s.time.tick then s else s.dolWord 0xBC 0

/-- A front-end lane has a link and no control frame to send: its transmitter sends IDLE (R79, log entry 46). -/
def State.laneIdle (s : State) (l : Nat) : State :=
  let st := s.fget (FEL_STAT l) 0 4
  if 1 ≤ st && st ≤ 5 && !s.fbit (FEL_TXSTAT l) 8 then s.emit (.fe l true 0x1E) else s

/-- A command delay written in the tick that ends acts from the next tick (R91). -/
def State.laneDelay (s : State) (l : Nat) : State :=
  let d := s.fget (FEL_TXDLY l) 0 12
  if (s.lane l).dly = d then s else s.setLane l { s.lane l with dly := d }

/-- The lanes at a tick edge. -/
def State.laneEdge (s : State) : State := (List.range 64).foldl (fun s l => (s.laneIdle l).laneDelay l) s

/-- The counter advances at a tick edge, in FREE, SYNCED and HOLDOVER. -/
def State.advance (s : State) : State :=
  let s := s.dolIdle.laneEdge
  let s := s.withTime { s.time with dolTick := none }
  let loads := s.time.loads.map (fun l => (l.1 - 1, l.2))
  let s := s.withTime { s.time with loads := loads.filter (fun l => l.1 != 0) }
  let (s, n) := s.loadsDue ((s.time.tick + 1) % 2 ^ 60) (loads.filter (fun l => l.1 == 0))
  let s := s.withTime { s.time with tick := n }
  if s.tstate = 3 then s.markHoldover n else s

/-- One tick edge (R40, R41): the counter is frozen in NOLOCK; HOLDOVER takes at most 255 edges here, and the 256th is
HOLDOVER_END. -/
def State.tickEdge (s : State) : State :=
  match s.tstate with
  | 0 => s
  | 3 =>
    if s.time.holdEdges < 255 then
      (s.withTime { s.time with holdEdges := s.time.holdEdges + 1 }).advance
    else s
  | _ => s.advance

/-- The timing PLL locks from NOLOCK (R39, R40). -/
def State.pllLock (s : State) (p : Nat) : State :=
  if s.tstate = 0 && periodOk p then (s.setPeriod p).setTstate 1 else s

/-- The timing PLL relocks (R41, R58): from NOLOCK to FREE; in HOLDOVER to SYNCED when the phase error is near, else to
FREE with every stream disabled. -/
def State.relock (s : State) (near : Bool) (p : Nat) : State :=
  if !periodOk p then s
  else
    match s.tstate with
    | 0 => s.pllLock p
    | 3 =>
      let s := s.setPeriod p
      let s := s.withTime { s.time with holdEdges := 0 }
      if near then (s.setTstate 2).checkFloors
      else (s.setTstate 1).disableAll stConflict
    | _ => s

/-- The 256th holdover edge passes without a relock (R41). -/
def State.holdoverEnd (s : State) : State :=
  if s.tstate = 3 && s.time.holdEdges == 255 then (s.advance.enterNolock).disableAll stTimeout else s

/-- A measured period departs from its value at lock (R472). -/
def State.periodDepart (s : State) (p : Nat) : State :=
  if s.tstate = 1 || s.tstate = 2 then
    if !periodOk p then s.mclkLost
    else
      let l := s.time.lockPeriod
      if 200 * l < ((p - l) + (l - p)) * 1000000 then (s.setPeriod p).checkFloors else s
  else s

/-! ## Timing Input Link -/

/-- The TIL receiver is ALIGNED (R44). -/
def State.aligned (s : State) : Bool := s.fbit TIM_STATE 8

/-- A character is one of the K characters of R43: K28.5, K28.1, K28.0. -/
def tilK : TilChar → Bool
  | .k c => c == 0xBC || c == 0x3C || c == 0x1C
  | _ => false

/-- The data byte of a character. -/
def tilData : TilChar → Option Nat
  | .data d => some d.toNat
  | _ => none

/-- The data field of a word that is no word error (R42, R43). -/
def tilField (c0 c1 c2 c3 : TilChar) : Option Nat :=
  match tilK c0, tilData c1, tilData c2, tilData c3 with
  | true, some a, some b, some c => some (a * 65536 + b * 256 + c)
  | _, _, _, _ => none

/-- A TIL word is received and classified (R43, R44, R48). -/
def State.tilWord (s : State) (c0 c1 c2 c3 : TilChar) : State :=
  let s := (s.withTime { s.time with tilGood := if tilK c0 then min (s.time.tilGood + 1) 16 else 0 })
  match tilField c0 c1 c2 c3 with
  | none =>
    if s.aligned && s.time.tilBad < 4 then
      (s.withTime { s.time with tilBad := s.time.tilBad + 1 }).count TIM_TIL_ERR 1
    else s
  | some d =>
    let s := s.withTime { s.time with tilBad := 0 }
    if s.aligned && c0 == .k 0x3C && d / 65536 != 1 && d / 65536 != 2 then s.count TIM_TIL_ERR 1 else s

/-- A TSLOAD segment is well formed (R45, R46). -/
def segOk (i : Nat) (d : BitVec 24) : Bool :=
  let v := d.toNat
  let seg := bits v 0 16
  bits v 22 2 == i && bits v 20 2 == 0 &&
    bits v 16 4 == Nat.xor (Nat.xor (bits seg 0 4) (bits seg 4 4)) (Nat.xor (bits seg 8 4) (bits seg 12 4))

/-- The value V that four segments carry, where the load is valid (R45, R46). -/
def tsValue (d0 d1 d2 d3 : BitVec 24) (inRow : Bool) : Option Nat :=
  if inRow && segOk 0 d0 && segOk 1 d1 && segOk 2 d2 && segOk 3 d3 && bits d3.toNat 12 4 == 0 then
    some (bits d0.toNat 0 16 + bits d1.toNat 0 16 * 2 ^ 16 + bits d2.toNat 0 16 * 2 ^ 32 + bits d3.toNat 0 16 * 2 ^ 48)
  else none

/-- A four-segment load arrives (R46, R47). DESIGN CHOICE (log entry 43): in NOLOCK, where R47 names no action, a valid load is
dropped. -/
def State.tsload (s : State) (d0 d1 d2 d3 : BitVec 24) (inRow : Bool) : State :=
  if !s.aligned then s
  else
    match tsValue d0 d1 d2 d3 inRow with
    | none => s.count TIM_TIL_ERR 1
    | some v =>
      if s.tstate = 0 then s
      else s.withTime { s.time with loads := s.time.loads ++ [(s.fget TIM_TIL_CFG 0 4, v, false)] }

/-- A MARK command is appended to the mark log (R48). -/
def State.mark (s : State) (arg : Nat) : State :=
  if !s.aligned then s
  else
    let i := s.fget TIM_MARK_CNT 16 6
    let n := s.fget TIM_MARK_CNT 0 7
    let s := (s.wr64 (TIM_MARK_LO i) s.time.tick).wr (TIM_MARK_ARG i) arg
    let s := if n = 64 then s.count TIM_MARK_OVF 1 else s
    s.wr TIM_MARK_CNT ((i + 1) % 64 * 2 ^ 16 + min (n + 1) 64)

/-- TIMESET (R40, R457): V waits for the completion of the command; the tick that begins next takes it. -/
def State.timeset (s : State) (param : Nat) : State :=
  s.mbxRun (fun s =>
    if s.tstate ≠ 1 then (stState, s)
    else if param ≠ 0 || 2 ^ 60 ≤ s.mbxArg then (stArg, s)
    else
      (0, s.withTime { s.time with setV := some s.mbxArg }))

/-! ## Meanings -/

/-- PLL_LOCK. -/
def execPllLock (period : BitVec 32) (s : State) : Host.Outcome State Fault Refusal :=
  s.live (·.pllLock period.toNat)
/-- MCLK_LOST. -/
def execMclkLost (s : State) : Host.Outcome State Fault Refusal := s.live (·.mclkLost)
/-- RELOCK. -/
def execRelock (near : Bool) (period : BitVec 32) (s : State) : Host.Outcome State Fault Refusal :=
  s.live (·.relock near period.toNat)
/-- HOLDOVER_END. -/
def execHoldoverEnd (s : State) : Host.Outcome State Fault Refusal := s.live (·.holdoverEnd)
/-- MCLK_PERIOD_DEPART. -/
def execMclkPeriodDepart (period : BitVec 32) (s : State) : Host.Outcome State Fault Refusal :=
  s.live (·.periodDepart period.toNat)
/-- TIL_WORD. -/
def execTilWord (c0 c1 c2 c3 : TilChar) (s : State) : Host.Outcome State Fault Refusal :=
  s.live (·.tilWord c0 c1 c2 c3)
/-- TIL_ALIGN (R44): after 16 consecutive words with a valid K character in position 0. -/
def execTilAlign (s : State) : Host.Outcome State Fault Refusal :=
  s.live (fun s =>
    if 16 ≤ s.time.tilGood && !s.aligned then
      (s.withTime { s.time with tilBad := 0 }).fset TIM_STATE 8 1 1
    else s)
/-- TIL_ALIGN_LOSS (R44): after 4 consecutive word errors. -/
def execTilAlignLoss (s : State) : Host.Outcome State Fault Refusal :=
  s.live (fun s =>
    if 4 ≤ s.time.tilBad && s.aligned then
      (s.withTime { s.time with tilGood := 0, tilBad := 0 }).fset TIM_STATE 8 1 0
    else s)
/-- TSLOAD. -/
def execTsload (d0 d1 d2 d3 : BitVec 24) (inRow : Bool) (s : State) : Host.Outcome State Fault Refusal :=
  s.live (·.tsload d0 d1 d2 d3 inRow)
/-- MARK. -/
def execMark (arg : BitVec 16) (s : State) : Host.Outcome State Fault Refusal := s.live (·.mark arg.toNat)
/-- TIMESET. -/
def execTimeset (param : BitVec 8) (s : State) : Host.Outcome State Fault Refusal := s.live (·.timeset param.toNat)

end Sys2Proof.Machine
end

