-- ==== Sys2Proof/Machine/Lanes.lean ====
section
/-! DEFINITION. Front-end lanes: receive framing and its errors (R66 to R78), the transmit side (R79 to R83), lane states and
training (R84 to R86), loss (R87, R88), analog checks and restart (R89, R90), FEL_CTL (R92), FE commands (R48, R80, R81). -/

namespace Sys2Proof.Machine

/-- FEL_STAT.STATE: 0 OFF, 1 CDR, 2 BLOCK, 3 TRAIN, 4 UP, 5 LOST, 6 FAILED, 7 RETIRED (R84). -/
def State.lstate (s : State) (l : Nat) : Nat := s.fget (FEL_STAT l) 0 4
def State.setLstate (s : State) (l v : Nat) : State := s.fset (FEL_STAT l) 0 4 v
/-- FEL_STAT.LAST_ST. -/
def State.felLast (s : State) (l st : Nat) : State := s.fset (FEL_STAT l) 8 8 st

/-- The lane's FEL_EVT bit, which raises the front-end lane interrupt (R91, R459). -/
def State.felEvent (s : State) (l : Nat) : State :=
  (s.fset (if l < 32 then FEL_EVT_LO else FEL_EVT_HI) (l % 32) 1 1).mgrEvent 0

/-! ## Receive -/

/-- The tick range of the hits a frame has passed on takes in another tick (R75). -/
def spanAdd (r : Option (Nat × Nat)) (t : Nat) : Option (Nat × Nat) :=
  match r with
  | none => some (t, t)
  | some (lo, hi) => some (min lo t, max hi t)

/-- The ticks of an open frame's hits that are passed on, those that still wait in the entry queue included (R75). -/
def LaneSt.frameSpan (x : LaneSt) (f : Frame) : Option (Nat × Nat) :=
  (x.entryq.drop (x.entryq.length - f.queued)).foldl (fun r h => spanAdd r (h.ts / 16)) f.span

/-- A frame error (R75, R76): the open frame ends in error, its mark is sent, and blocks are discarded until the next
FSTART. -/
def State.frameError (s : State) (l : Nat) : State :=
  let x := s.lane l
  let s := s.count (FEL_ERR_FRAME l) 1
  let s := match x.frame with
    | some f =>
      (match x.frameSpan f with
      | some (lo, hi) =>
        s.setEng (l / 16) { s.eng (l / 16) with
          inMarks := (s.eng (l / 16)).inMarks ++ [Mark.mk l .corrupt lo hi] }
      | none => s)
    | none => s
  s.setLane l { s.lane l with frame := none, discard := true }

/-- The sync headers of received blocks, newest first, enter the last 64 of a lane in UP (R87). -/
def State.headers (s : State) (l : Nat) (bad : List Bool) : State :=
  s.setLane l { s.lane l with hdrs := (bad ++ (s.lane l).hdrs).take 64 }

/-- A received block's sync header, valid or not. -/
def State.header (s : State) (l : Nat) (bad : Bool) : State := s.headers l [bad]

/-- A block with a valid header acts only in UP and, while blocks are discarded, not at all (R76). -/
def State.rxBlock (s : State) (l : Nat) (f : State → State) : State :=
  if s.lstate l = 4 then
    let s := s.header l false
    if (s.lane l).discard then s else f s
  else s

/-- B − N of R68 as a signed number, for received bits `base` and the device's timestamp N. -/
def baseDelta (base n : Nat) : Int := sext 56 (base + 2 ^ 56 - n % 2 ^ 56)

/-- FSTART (R68, R76): an open frame ends in error; the new one begins unless its base lies too far ahead. -/
def State.fstart (s : State) (l base : Nat) : State :=
  if s.lstate l ≠ 4 then s
  else
    let s := s.header l false
    let s := if (s.lane l).frame.isSome then s.frameError l else s
    let n := s.time.tick * 16
    let d := baseDelta base n
    let timed := s.tstate = 2 || s.tstate = 3
    let fr : Frame := { base := wrap 64 ((n : Int) + d), hits := 0
                        crc := crcRun crcInit (leBytes 8 (base * 256 + 0x78)), timed := timed, span := none, cur := none }
    if timed && decide ((s.fget FEL_AHEAD 0 16 * 16 : Int) < d) then
      (s.count (FEL_ERR_TIME l) 1).setLane l { s.lane l with frame := none, discard := true }
    else
      let s := if timed then s else s.count (FEL_NOTIME l) 1
      s.setLane l { s.lane l with frame := some fr, discard := false }

/-- A hit with its kept samples enters the lane entry queue (R49, R75); HIT_LOOKUP passes it on to the channel processor. In
NOLOCK and FREE no hit is passed on (R76). -/
def State.passHit (s : State) (l : Nat) (f : Frame) (w : Word) (samples : List (BitVec 16)) : State :=
  if f.timed then
    let ts := (f.base + bits w.toNat 30 16) % 2 ^ 64
    let x := s.lane l
    s.setLane l { x with
      frame := some { f with queued := f.queued + 1 }
      entryq := x.entryq ++ [{ lane := l, word := w, ts := ts, samples := samples }] }
  else s.setLane l { s.lane l with frame := some f }

/-- The four samples of a sample block (R70). -/
def blockSamples (w : Word) : List (BitVec 16) :=
  (List.range 4).map (fun i => BitVec.ofNat 16 (bits w.toNat (16 * i) 16))

/-- A hit block of an open frame (R69, R71). -/
def State.hitBlock (s : State) (l : Nat) (f : Frame) (w : Word) : State :=
  if 254 ≤ f.hits then s.frameError l
  else
    let v := w.toNat
    let s := if bits v 12 2 ≠ 0 then s.count (FEL_ERR_RSVD l) 1 else s
    let n := bits v 0 8
    let s := if 64 < n then s.count (FEL_TRUNC l) 1 else s
    let v := putBits (putBits v 12 2 (if 64 < n then 2 else 0)) 0 8 (min n 64)
    let f := { f with hits := f.hits + 1 }
    if n = 0 then s.passHit l f (BitVec.ofNat 64 v) []
    else s.setLane l { s.lane l with frame := some { f with cur := some (BitVec.ofNat 64 v, ceilDiv n 4, []) } }

/-- A sample block of the hit in progress (R70, R71). -/
def State.sampBlock (s : State) (l : Nat) (f : Frame) (h : Word) (due : Nat) (kept : List (BitVec 16)) (w : Word) : State :=
  let n := bits h.toNat 0 8
  let kept' := (kept ++ blockSamples w).take n
  let f := { f with cur := if due ≤ 1 then none else some (h, due - 1, kept') }
  if kept.length < n && kept'.length == n then s.passHit l f h kept'
  else s.setLane l { s.lane l with frame := some f }

/-- A data block (R69, R70, R76): a sample block where one is due, else a hit block. -/
def State.dataBlock (s : State) (l : Nat) (w : Word) : State :=
  s.rxBlock l (fun s =>
    match (s.lane l).frame with
    | none => s.count (FEL_ERR_FRAME l) 1
    | some f =>
      let f := { f with crc := crcRun f.crc (leBytes 8 w.toNat) }
      match f.cur with
      | some (h, due, kept) => s.sampBlock l f h due kept w
      | none => s.hitBlock l f w)

/-- A hit leaves the lane entry queue: it is passed on, counts in FEL_HITS and enters the tick range of its frame where that
is still open (R75, R77, R121). -/
def State.passOn (s : State) (l : Nat) (h : Hit) (rest : List Hit) : State :=
  let x := s.lane l
  let frame := x.frame.map (fun f =>
    if rest.length < f.queued then { f with queued := f.queued - 1, span := spanAdd f.span (h.ts / 16) } else f)
  (s.setLane l { x with entryq := rest, frame := frame }).count64 (FEL_HITS_LO l) 1

/-- FEND (R72, R73, R76). DESIGN CHOICE (log entry 47): an FEND with sample blocks still due is a frame error by the row of R76 on
control blocks; its CRC is not checked and FEL_ERR_CRC does not count. -/
def State.fend (s : State) (l : Nat) (w : Word) : State :=
  s.rxBlock l (fun s =>
    match (s.lane l).frame with
    | none => s.count (FEL_ERR_FRAME l) 1
    | some f =>
      let v := w.toNat
      let crc := crcFinal (crcRun f.crc (leBytes 3 (v / 2 ^ 40)))
      let bad := crc != bits v 8 32
      if f.cur.isSome then s.frameError l
      else
        let s := if bad then s.count (FEL_ERR_CRC l) 1 else s
        if bad || bits v 56 8 != f.hits || bits v 56 8 == 255 then s.frameError l
        else
          let seq := bits v 40 16
          let gap := (seq + 2 * 2 ^ 16 - s.fget (FEL_FSEQ l) 0 16 - 1) % 2 ^ 16
          let s := if (s.lane l).refSeq then s.count (FEL_SEQ_GAP l) gap else s
          let s := (s.countWrap (FEL_FRAMES l) 1).wr (FEL_FSEQ l) seq
          s.setLane l { s.lane l with frame := none, refSeq := true })

/-- A control block that is a frame error where a frame is open (R67, R76). -/
def State.strayControl (s : State) (l : Nat) (outside : State → State) : State :=
  s.rxBlock l (fun s => if (s.lane l).frame.isSome then s.frameError l else outside s)

/-- The control-block types of the receive side (R67). -/
def rxTypes : List Nat := [0x1E, 0x4B, 0x5A, 0xA5, 0x78, 0xE1]

/-- An invalid header of a tick lies within 125 µs of tick `now`, for a period in fs (R87). -/
def isRecent (now period : Nat) : Option Nat → Bool
  | some t => (now - t) * period ≤ 125000000000
  | none => false

/-- The invalid headers of the last 125 µs (R87). In NOLOCK, and for headers before it, no tick gives their age: how many of them
still lie within 125 µs is free (assumption 2). -/
def State.recentBad (s : State) (l : List (Option Nat)) : List (Option Nat) × State :=
  if s.period = 0 then
    if l.isEmpty then ([], s)
    else
      let (n, s) := s.draw
      (l.take ((Config.freeWord n).toNat % (l.length + 1)), s)
  else
    let known := l.takeWhile (isRecent s.time.tick s.period)
    match l.drop known.length with
    | none :: rest =>
      let (n, s) := s.draw
      (known ++ (none :: rest).take ((Config.freeWord n).toNat % (rest.length + 2)), s)
    | _ => (known, s)

/-- A lane leaves UP: an open frame ends in error, a control frame in transmission is abandoned (R76, R82, R91). -/
def State.leaveUp (s : State) (l : Nat) : State :=
  let s := if (s.lane l).frame.isSome then s.frameError l else s
  let s := if s.fbit (FEL_TXSTAT l) 8 then
      ((s.fset (FEL_TXSTAT l) 8 1 0).fset (FEL_TXSTAT l) 0 8 stDown).setLane l { s.lane l with txSent := 0 }
    else s
  s.felEvent l

/-- 64 block periods of the lane's rate, in fs (R88). -/
def State.lossLead (s : State) (l : Nat) : Nat := if s.fget (FEL_CTL l) 1 2 = 1 then 409600000 else 163840000

/-- The lane's entry queue is flushed: its hits are not passed on (R87). -/
def LaneSt.flush (x : LaneSt) : LaneSt :=
  { x with entryq := [], frame := x.frame.map (fun f => { f with queued := 0 }) }

/-- A lane in UP is lost (R87, R88, R497). -/
def State.laneLoss (s : State) (l : Nat) : State :=
  if s.lstate l ≠ 4 then s
  else
    let s := (s.setLane l (s.lane l).flush).leaveUp l
    let s := s.setLane l { s.lane l with hdrs := [], badTicks := [], retry := false }
    let s := (s.count (FEL_LOSS l) 1).setLstate l 5
    let back := if s.period = 0 then 0 else ceilDiv (16 * s.lossLead l) s.period
    s.loseLane l ((s.time.tick * 16 : Nat) - (back : Nat) : Int)

/-- A block with an invalid sync header (R76, R77, R87). -/
def State.badHeader (s : State) (l : Nat) : State :=
  if s.lstate l = 3 then s.count (FEL_ERR_SYNC l) 1
  else if s.lstate l = 4 then
    let s := (s.count (FEL_ERR_SYNC l) 1).header l true
    let s := if (s.lane l).frame.isSome then s.frameError l else s
    let x := s.lane l
    let lim := s.fget (FEL_CFG l) 16 16
    let (old, s) := s.recentBad x.badTicks
    let bad := ((if s.period = 0 then none else some s.time.tick) :: old).take (lim + 1)
    let s := s.setLane l { x with badTicks := bad }
    if 16 ≤ (x.hdrs.filter (fun b => b)).length || lim < bad.length then s.laneLoss l else s
  else s

/-- The CRC of a control or response frame: header and data blocks (R79, R83). -/
def ctlCrc (hdr : Nat) (data : List Nat) : Nat := crc32c (leBytes 8 hdr ++ data.flatMap (leBytes 8))

/-- The valid headers of the further blocks of a frame that comes as one command. -/
def State.frameHeaders (s : State) (l n : Nat) : State :=
  if s.lstate l = 4 then s.headers l (List.replicate n false) else s

/-- A response frame (R76, R83): the valid headers of all its blocks enter the window of R87. DESIGN CHOICE (log entry 47): a
number of data blocks other than LEN counts in FEL_ERR_FRAME, and a wrong CRC counts in FEL_ERR_CRC whether the buffer is held or
not. -/
def State.response (s : State) (l : Nat) (hdr : Word) (data : List Word) (cend : Word) : State :=
  (s.frameHeaders l (data.length + 1)).strayControl l (fun s =>
    let len := bits hdr.toNat 40 8
    if 32 < len || data.length ≠ len then s.count (FEL_ERR_FRAME l) 1
    else if ctlCrc hdr.toNat (data.map (·.toNat)) ≠ bits cend.toNat 8 32 then s.count (FEL_ERR_CRC l) 1
    else if s.fbit (FEL_RXSTAT l) 0 then s.count (FEL_RX_OVF l) 1
    else
      let s := (s.wr (FEL_RXSTAT l) (bits hdr.toNat 48 16 * 2 ^ 16 + len * 2 ^ 8 + 1)).wr (FEL_RXINFO l) (bits hdr.toNat 24 16)
      let s := (List.range data.length).foldl (fun s i => s.wr64 (FEL_RXBUF l (2 * i)) (data.getD i 0).toNat) s
      s.felEvent l)

/-! ## Transmit -/

/-- The CMD block of a command (R79). -/
def cmdBlock (c : FeCmd) : Word := BitVec.ofNat 64 (c.arg % 2 ^ 16 * 2 ^ 48 + c.tick % 2 ^ 40 * 2 ^ 8 + 0x2D)

/-- The instant of a lane's command, its tick and FEL_TXDLY.DLY TCLK periods, lies in or before the current tick (R80). -/
def State.cmdDue (s : State) (l : Nat) (c : FeCmd) : Bool :=
  c.tick * 16 + (s.lane l).dly < (s.time.tick + 1) * 16

/-- CHDR of the staged control frame with its CSEQ (R79). -/
def State.chdr (s : State) (l seq : Nat) : Nat :=
  s.fget (FEL_TXHDR l) 16 16 * 2 ^ 48 + s.fget (FEL_TXHDR l) 8 6 * 2 ^ 40 + seq * 2 ^ 24 + 0x55

/-- The data blocks of the staged control frame. -/
def State.txData (s : State) (l : Nat) : List Nat :=
  (List.range (s.fget (FEL_TXHDR l) 8 6)).map (fun i => s.rd64 (FEL_TXBUF l (2 * i)))

/-- The data blocks of the control frame in transmission that are still to be sent. -/
def State.txLeft (s : State) (l : Nat) : List Nat :=
  if s.fbit (FEL_TXSTAT l) 8 then (s.txData l).drop (s.lane l).txSent else []

/-- The next `n` data blocks of the control frame are sent (R79). -/
def State.txBlocks (s : State) (l n : Nat) : State :=
  let ws := (s.txLeft l).take n
  (ws.foldl (fun s w => s.emit (.fe l false (BitVec.ofNat 64 w))) s).setLane l
    { s.lane l with txSent := (s.lane l).txSent + ws.length }

/-- The data blocks of a control frame that go out before a CMD block: the CMD may stand between any two blocks of the frame, so
their number is free (R79, assumption 2). -/
def State.txBefore (s : State) (l : Nat) : State :=
  if (s.txLeft l).isEmpty then s
  else
    let (n, s) := s.draw
    s.txBlocks l ((Config.freeWord n).toNat % ((s.txLeft l).length + 1))

/-- One lane sends its due command, at most one in a tick; a lane not in UP drops its due commands (R80). -/
def State.cmdSendLane (s : State) (l : Nat) : State :=
  let x := s.lane l
  if s.lstate l ≠ 4 then s.setLane l { x with cmdq := x.cmdq.filter (fun c => !s.cmdDue l c) }
  else
    match x.cmdq with
    | c :: rest =>
      if s.cmdDue l c && x.cmdSent != some s.time.tick then
        let s := s.txBefore l
        (s.setLane l { s.lane l with cmdq := rest, cmdSent := some s.time.tick }).emit (.fe l true (cmdBlock c))
      else s
    | [] => s

/-- A command takes its place among the commands of a lane: before those of later ticks (R80, R81). -/
def queueCmd (c : FeCmd) : List FeCmd → List FeCmd
  | [] => [c]
  | d :: q => if c.tick < d.tick then c :: d :: q else d :: queueCmd c q

/-- The waiting software command goes to the lanes of its mask at its tick (R81). -/
def State.swcmdRelease (s : State) : State :=
  match s.swcmd with
  | none => s
  | some c =>
    if s.time.tick < c.tick then s
    else
      let ls := (List.range 64).filter (fun l => bit c.mask l && s.lstate l == 4)
      let s := ls.foldl (fun s l =>
        s.setLane l { s.lane l with cmdq := queueCmd { tick := c.tick, arg := c.arg } (s.lane l).cmdq }) s
      (s.withSwcmd none).wr FEL_SWCMD_ST (if ls.isEmpty then stDown else stOk)

/-- CMD_BLOCK_SEND (R80, R81). -/
def State.cmdBlockSend (s : State) : State := (List.range 64).foldl State.cmdSendLane s.swcmdRelease

/-- FE_CMD (R48, R80, R81). -/
def State.feCmd (s : State) (arg : Nat) : State :=
  if !s.aligned then s
  else
    let t := s.time.tick + 1
    let s := (List.range 64).foldl (fun s l =>
      if s.fbit (FEL_CTL l) 0 then s.setLane l { s.lane l with cmdq := (s.lane l).cmdq ++ [{ tick := t, arg := arg }] }
      else s) s
    ((s.withTime { s.time with cmdTick := some t }).withSwcmd (s.swcmd.map (fun c => if c.tick = t then { c with tick := t + 1 } else c)))

/-- A write of FEL_SWCMD (R81). DESIGN CHOICE (log entry 47): FEL_SWCMD_MASK is taken at the write. -/
def State.swcmdWrite (s : State) (arg : Nat) : State :=
  match s.swcmd with
  | some _ => s.wr FEL_SWCMD_ST stBusy
  | none =>
    let t := s.time.tick + 1
    (s.withSwcmd (some { arg := arg % 2 ^ 16, mask := s.rd64 FEL_SWCMD_MASK_LO, written := s.time.tick, tick := if s.time.cmdTick = some t then t + 1 else t }))

/-- A software command not sent within 16 ticks of its write is dropped (R81). -/
def State.swcmdDrop (s : State) : State :=
  match s.swcmd with
  | some c => if c.written + 16 ≤ s.time.tick then (s.withSwcmd none).wr FEL_SWCMD_ST stBusy else s
  | none => s

/-- A write of FEL_TXCTL.GO (R82): CHDR is sent; the data blocks follow, those that no CMD block has let out before with CEND. -/
def State.txGo (s : State) (l : Nat) : State :=
  if s.lstate l ≠ 4 then s.fset (FEL_TXSTAT l) 0 8 stState
  else if s.fbit (FEL_TXSTAT l) 8 then s.fset (FEL_TXSTAT l) 0 8 stBusy
  else
    let seq := (s.fget (FEL_TXSTAT l) 16 16 + 1) % 2 ^ 16
    let s := s.wr (FEL_TXSTAT l) (seq * 2 ^ 16 + 0x100)
    (s.setLane l { s.lane l with txSent := 0 }).emit (.fe l true (BitVec.ofNat 64 (s.chdr l seq)))

/-- The data blocks left and the CEND of the control frame are sent (R79, R82). -/
def State.txEnd (s : State) (l : Nat) : State :=
  if s.fbit (FEL_TXSTAT l) 8 then
    let crc := ctlCrc (s.chdr l (s.fget (FEL_TXSTAT l) 16 16)) (s.txData l)
    let s := s.txBlocks l 32
    ((s.emit (.fe l true (BitVec.ofNat 64 (crc * 256 + 0xAA)))).fset (FEL_TXSTAT l) 8 1 0).fset (FEL_TXSTAT l) 0 8 stOk
  else s

/-! ## Lane states -/

/-- An attempt begins in CDR (R84). -/
def State.attempt (s : State) (l : Nat) : State :=
  (s.setLane l { s.lane l with retry := false, rtts := [], checking := false }).setLstate l 1

/-- The attempt fails; the eighth puts the lane in FAILED and starts the analog checks (R84, R89). ATTEMPTS stays at 8 at most. -/
def State.attemptFails (s : State) (l : Nat) : State :=
  let n := min (s.fget (FEL_STAT l) 4 4 + 1) 8
  let s := s.fset (FEL_STAT l) 4 4 n
  if n < 8 then s.setLane l { s.lane l with retry := true }
  else
    let s := ((s.setLstate l 6).fset (FEL_DIAG l) 0 4 0).setLane l { s.lane l with retry := false, checking := true }
    s.felEvent l

/-- The lane enters UP (R84, R86, R88). DESIGN CHOICE (log entry 47): the windows of R87 start empty, headers seen in TRAIN not
included. -/
def State.enterUp (s : State) (l : Nat) : State :=
  let s := ((s.setLstate l 4).fset (FEL_STAT l) 4 4 0).fset (FEL_STAT l) 17 1 0
  let s := s.setLane l { s.lane l with
    frame := none, discard := false, refSeq := false, hdrs := [], badTicks := [], rtts := [] }
  (s.foundLane l).felEvent l

/-- An attempt in state `st` runs: the lane shows it and no retry is due. -/
def State.inAttempt (s : State) (l st : Nat) : Bool := s.lstate l == st && !(s.lane l).retry

/-- A TRAIN block of the device (R86). -/
def State.trainBlock (s : State) (l phase : Nat) : Word :=
  BitVec.ofNat 64 (l * 2 ^ 52 + phase * 2 ^ 48 + s.time.tick * 16 % 2 ^ 40 * 2 ^ 8 + 0x4B)

/-- The last 16 consecutive echoes complete the training: their round-trip times differ by at most 2 TCLK periods, or the timebase
is in NOLOCK, where they are not compared (R86). -/
def trained (locked : Bool) (l : List (Option Nat)) : Bool :=
  l.length == 16 && (!locked ||
    l.all (fun a => l.all (fun b => match a, b with
      | some a, some b => a ≤ b + 2
      | _, _ => false)))

/-- A TRAIN echo (R76, R86). DESIGN CHOICE (log entry 47): a TRAIN block with a reserved PHASE while a frame is open in UP is a
frame error, by R76. -/
def State.trainEcho (s : State) (l : Nat) (w : Word) (rtt : Nat) : State :=
  if s.inAttempt l 3 then
    if bits w.toNat 48 4 ≠ 2 then s
    else if bits w.toNat 52 6 ≠ l then
      ((s.fset (FEL_STAT l) 18 6 (bits w.toNat 52 6)).fset (FEL_STAT l) 17 1 1).attemptFails l
    else
      let x := s.lane l
      let rtts := ((if s.tstate = 0 then none else some rtt) :: x.rtts).take 16
      let s := s.setLane l { x with rtts := rtts }
      if !trained (s.tstate != 0) rtts then s
      else
        let s := s.emit (.fe l true (s.trainBlock l 3))
        (s.wr (FEL_RTT l) (if s.tstate = 0 then 0 else 2 ^ 31 + rtt)).enterUp l
  else s.strayControl l (fun s => s)

/-- A RESTART (R90). -/
def State.laneRestart (s : State) (l : Nat) : State :=
  if s.lstate l = 5 || s.lstate l = 6 then ((s.fset (FEL_STAT l) 4 4 0).attempt l).felLast l stOk
  else s.felLast l stState

/-- The lane leaves OFF when it is enabled and its power group runs (R84, R85). -/
def State.laneStart (s : State) (l : Nat) : State :=
  if s.lstate l = 0 && s.fbit (FEL_CTL l) 0 && s.dstate (106 + l / 4) ≤ 1 && s.dphase (106 + l / 4) = 0 then s.attempt l
  else s

/-- Clearing EN puts the lane in OFF (R84). DESIGN CHOICE (log entry 47): clearing EN, like a RESTART, ends analog checks that run
with no result. -/
def State.laneOff (s : State) (l : Nat) : State :=
  if s.lstate l = 7 then s
  else
    let s := if s.lstate l = 4 then s.leaveUp l else s
    (s.setLane l { s.lane l with retry := false, checking := false, frame := none }).setLstate l 0

/-- A lane whose SerDes is faulty is RETIRED (R84, R91, R430). -/
def State.retireLane (s : State) (l : Nat) : State :=
  if s.lstate l = 7 then s else ((s.laneOff l).setLstate l 7).felEvent l

/-- Setting EN on a lane would raise the floor of an enabled stream above its deadline (R58, R92). -/
def State.enBreaksFloor (s : State) (l v : Nat) : Bool :=
  let s' := s.fset (FEL_CTL l) 0 3 v
  bit v 0 && !s.fbit (FEL_CTL l) 0 &&
    s.enabledStreams.any (fun n => bit (s.strLanes n) l && s.strD n < s'.floor n)

/-- A write of FEL_CTL (R9, R58, R85, R90, R92, R438). -/
def State.felCtl (s : State) (l v : Nat) : State :=
  let old := s.rd (FEL_CTL l)
  let frozen (x : Nat) : Nat := bits x 1 2 + bits x 5 2 * 4
  if 2 ≤ bits v 1 2 then (s.felLast l stArg).errLog stArg srcFel none (FEL_CTL l)
  else if s.underTest (106 + l / 4) then s.felLast l stTesting
  else if bit old 0 && frozen v != frozen old then s.felLast l stState
  else if s.enBreaksFloor l v then (s.felLast l stConflict).errLog stConflict srcFel none (FEL_CTL l)
  else
    let s := (s.wr (FEL_CTL l) (putBits (bits v 0 7) 4 1 0)).felLast l stOk
    let s := (if !bit v 0 && bit old 0 then s.laneOff l else s).reeval (106 + l / 4)
    let s := s.laneStart l
    if bit v 4 then s.laneRestart l else s

/-! ## Meanings -/

/-- FE_CMD. -/
def execFeCmd (arg : BitVec 16) (s : State) : Host.Outcome State Fault Refusal := s.live (·.feCmd arg.toNat)
/-- FSTART. -/
def execFstart (l : Lane) (base : BitVec 56) (s : State) : Host.Outcome State Fault Refusal :=
  s.live (·.fstart l base.toNat)
/-- COMPACT_HIT. -/
def execCompactHit (l : Lane) (w : BitVec 64) (s : State) : Host.Outcome State Fault Refusal := s.live (·.dataBlock l w)
/-- SAMPLE_BLOCK. -/
def execSampleBlock (l : Lane) (w : BitVec 64) (s : State) : Host.Outcome State Fault Refusal := s.live (·.dataBlock l w)
/-- FEND. -/
def execFend (l : Lane) (w : BitVec 64) (s : State) : Host.Outcome State Fault Refusal := s.live (·.fend l w)
/-- IDLE_BLOCK (R67): only its sync header counts. -/
def execIdleBlock (l : Lane) (s : State) : Host.Outcome State Fault Refusal := s.live (fun s => s.rxBlock l (fun s => s))
/-- RESERVED_CONTROL_BLOCK. -/
def execReservedControlBlock (l : Lane) (ty : BitVec 8) (s : State) : Host.Outcome State Fault Refusal :=
  s.live (fun s => if rxTypes.contains ty.toNat then s else s.strayControl l (fun s => s.count (FEL_ERR_FRAME l) 1))
/-- INVALID_SYNC_HEADER. -/
def execInvalidSyncHeader (l : Lane) (s : State) : Host.Outcome State Fault Refusal := s.live (·.badHeader l)
/-- RESPONSE_FRAME. -/
def execResponseFrame (l : Lane) (hdr : BitVec 64) (data : List (BitVec 64)) (cend : BitVec 64) (s : State) :
    Host.Outcome State Fault Refusal := s.live (·.response l hdr data cend)
/-- RESPONSE_RELEASE (R83). -/
def execResponseRelease (l : Lane) (s : State) : Host.Outcome State Fault Refusal :=
  s.live (fun s => s.fset (FEL_RXSTAT l) 0 1 0)
/-- CMD_BLOCK_SEND. -/
def execCmdBlockSend (s : State) : Host.Outcome State Fault Refusal := s.live (·.cmdBlockSend)
/-- SWCMD. -/
def execSwcmd (arg : BitVec 16) (s : State) : Host.Outcome State Fault Refusal := s.live (·.swcmdWrite arg.toNat)
/-- SWCMD_DROP. -/
def execSwcmdDrop (s : State) : Host.Outcome State Fault Refusal := s.live (·.swcmdDrop)
/-- TXCTL_GO. -/
def execTxctlGo (l : Lane) (s : State) : Host.Outcome State Fault Refusal := s.live (·.txGo l)
/-- CONTROL_FRAME_END. -/
def execControlFrameEnd (l : Lane) (s : State) : Host.Outcome State Fault Refusal := s.live (·.txEnd l)
/-- FEL_CTL_WRITE. -/
def execFelCtlWrite (l : Lane) (v : BitVec 32) (s : State) : Host.Outcome State Fault Refusal :=
  s.live (·.felCtl l v.toNat)
/-- LANE_RESTART. -/
def execLaneRestart (l : Lane) (s : State) : Host.Outcome State Fault Refusal := s.live (·.laneRestart l)
/-- CDR_LOCK (R84). -/
def execCdrLock (l : Lane) (s : State) : Host.Outcome State Fault Refusal :=
  s.live (fun s => if s.inAttempt l 1 then s.setLstate l 2 else s)
/-- CDR_TIMEOUT. -/
def execCdrTimeout (l : Lane) (s : State) : Host.Outcome State Fault Refusal :=
  s.live (fun s => if s.inAttempt l 1 then s.attemptFails l else s)
/-- BLOCK_LOCK (R84). -/
def execBlockLock (l : Lane) (s : State) : Host.Outcome State Fault Refusal :=
  s.live (fun s => if s.inAttempt l 2 then s.setLstate l 3 else s)
/-- BLOCK_LOCK_TIMEOUT. -/
def execBlockLockTimeout (l : Lane) (s : State) : Host.Outcome State Fault Refusal :=
  s.live (fun s => if s.inAttempt l 2 then s.attemptFails l else s)
/-- TRAINING_TIMEOUT. -/
def execTrainingTimeout (l : Lane) (s : State) : Host.Outcome State Fault Refusal :=
  s.live (fun s => if s.inAttempt l 3 then s.attemptFails l else s)
/-- ATTEMPT_RETRY. -/
def execAttemptRetry (l : Lane) (s : State) : Host.Outcome State Fault Refusal :=
  s.live (fun s => if (s.lane l).retry then s.attempt l else s)
/-- TRAIN_REQUEST. -/
def execTrainRequest (l : Lane) (s : State) : Host.Outcome State Fault Refusal :=
  s.live (fun s => if s.inAttempt l 3 then s.emit (.fe l true (s.trainBlock l 1)) else s)
/-- TRAIN_ECHO. -/
def execTrainEcho (l : Lane) (w : BitVec 64) (rtt : BitVec 20) (s : State) : Host.Outcome State Fault Refusal :=
  s.live (·.trainEcho l w rtt.toNat)
/-- LANE_LOSS. -/
def execLaneLoss (l : Lane) (s : State) : Host.Outcome State Fault Refusal := s.live (·.laneLoss l)
/-- LOST_RETRAIN (R84): with AUTO = 1. -/
def execLostRetrain (l : Lane) (s : State) : Host.Outcome State Fault Refusal :=
  s.live (fun s => if s.lstate l = 5 && s.fbit (FEL_CTL l) 3 then s.attempt l else s)
end Sys2Proof.Machine
end

