-- ==== Sys2Proof/Machine/Channel.lean ====
section
/-! DEFINITION. The channel processor: descriptors and their checks (R97 to R99), per-hit processing (R100 to R106), the
descriptor cache with its fills (R108 to R114), invalidation (R116 to R118), CTB_CTL (R94, R95), and binning (R49, R52, R122,
R123, R127). -/

namespace Sys2Proof.Machine

/-! ## Descriptors -/

/-- Bits of word `w` of a descriptor image (R97). -/
def dfield (img w lo n : Nat) : Nat := bits (bits img (64 * w) 64) lo n

/-- Route i of a descriptor (R98). -/
def droute (img i : Nat) : Nat := dfield img 3 (16 * i) 16
def routeMode (r : Nat) : Nat := bits r 14 2
def routePn (r : Nat) : Nat := bits r 0 11

/-- Two routes in use name the same partition (R99). -/
def dupRoutes (img : Nat) : Bool :=
  (List.range 4).any (fun i => (List.range i).any (fun j =>
    routeMode (droute img i) != 0 && routeMode (droute img j) != 0 && routePn (droute img i) == routePn (droute img j)))

/-- A field holds a reserved value: MMODE, ZSM, WLEN or a route MODE (R99). -/
def reservedValue (img : Nat) : Bool :=
  dfield img 0 52 2 == 3 || dfield img 1 4 2 == 3 || 64 < dfield img 2 48 8 ||
    (List.range 4).any (fun i => routeMode (droute img i) == 3)

/-- The cause for which a descriptor read for channel `cn` is malformed, as CTB_BADCN.CAUSE codes it; 0 where it is
well-formed (R99, R120). DESIGN CHOICE (log entry 48): where several conditions hold, an HBM error comes before the CRC, the CRC
before CNCHK, FMT before a reserved value and that before a duplicate PN. -/
def descCause (cn img : Nat) (unc : Bool) : Nat :=
  if unc then 6
  else if crc32c (leBytes 60 img) ≠ dfield img 7 32 32 then 1
  else if dfield img 0 0 18 ≠ cn then 2
  else if dfield img 0 63 1 = 0 then 0
  else if dfield img 0 60 3 ≠ 1 then 3
  else if reservedValue img then 4
  else if dupRoutes img then 5
  else 0

/-- The corrected amplitude with its saturation flag (R101). -/
def corrected (amp ped gain : Nat) : Int × Bool :=
  let p : Int := ((amp : Int) - ped) * gain
  let ca := (p + 256) / 512
  if 32767 < ca then (32767, true) else if ca < -32768 then (-32768, true) else (ca, false)

/-- The zero-suppression test (R102). -/
def zsPass (zsm : Nat) (ca thr : Int) : Bool :=
  match zsm with
  | 0 => true
  | 1 => decide (thr ≤ ca)
  | _ => decide (thr ≤ (ca.natAbs : Int))

/-- The kept samples under WMODE (R105). -/
def keptSamples (img : Nat) (ca : Int) (samples : List (BitVec 16)) : List (BitVec 16) :=
  let window := (samples.drop (dfield img 2 56 6)).take (dfield img 2 48 8)
  match dfield img 2 62 2 with
  | 0 => []
  | 1 => samples
  | 2 => window
  | _ => if sext 16 (dfield img 2 32 16) ≤ ca then window else []

/-- The sample words of a record: four samples a word, padded with zero (R70). -/
def sampleWords : Nat → List (BitVec 16) → List Nat
  | 0, _ => []
  | fuel + 1, xs =>
    if xs.isEmpty then []
    else
      let v (i : Nat) : Nat := (xs.getD i 0).toNat
      (v 0 + v 1 * 2 ^ 16 + v 2 * 2 ^ 32 + v 3 * 2 ^ 48) :: sampleWords fuel (xs.drop 4)

/-! ## Binning -/

/-- An accepted hit as it reaches binning (R106). -/
structure Accepted where
  lane : Nat
  ts : Nat
  word : Nat
  ca : Int
  region : Nat
  regen : Bool
  fr : Nat
  routes : Nat
  samples : List (BitVec 16)
deriving DecidableEq, Repr

/-- The words of the stored record (R127). -/
def Accepted.record (h : Accepted) (toff : Nat) : List Nat :=
  [ h.word,
    wrap 16 h.ca * 2 ^ 48 + h.region * 2 ^ 36 + h.fr * 2 ^ 31 + h.lane * 2 ^ 16 + toff % 2 ^ 12 * 2 ^ 4 + h.ts % 16,
    h.routes ] ++ sampleWords 16 h.samples

/-- A slice stream takes the hits of a lane that lie in slice k: the lane is in its set, and no stop ends before k
(R122, R149). -/
def State.takes (s : State) (n lane tick : Nat) : Bool :=
  s.strEn n && bit (s.strLanes n) lane &&
    (match (s.stream n).stopEnd with
    | some e => tick < e
    | none => true)

/-- A mark is sent to the engine of its lane (R75, R110, R123). -/
def State.sendMark (s : State) (m : Mark) : State :=
  s.setEng (m.lane / 16) { s.eng (m.lane / 16) with inMarks := (s.eng (m.lane / 16)).inMarks ++ [m] }

/-- Stores a hit in an open slice: region sum, record bytes, counts; or discards it for want of space (R104, R126, R130,
R132). -/
def State.storeHit (s : State) (n k : Nat) (h : Accepted) : State :=
  let e := h.lane / 16
  let r := s.slice n k
  let rec_ := h.record (h.ts / 16 - s.sliceStart n k)
  let bytes := rec_.flatMap (leBytes 8)
  let c := tabGet {} r.chains e
  match (if s.dirPinned n k then none else s.needChunks e c bytes.length) with
  | none => (s.setSlice n k { r with lbloss := true }).count (SLC_LB_FULL e) 1
  | some fresh =>
    let s := if fresh.isEmpty then s else
      s.setEng e { s.eng e with nextChunk := ((s.eng e).nextChunk + fresh.length) % max (s.lbChunks e) 1 }
    let (s, c, _) := s.chainPut (2 * bytes.length + 4) e c fresh bytes
    let sums := if h.regen && h.region < s.nreg then
        let (n, x) := tabGet (0, 0) r.sums h.region
        tabIns r.sums h.region (n + 1, x + h.ca)
      else r.sums
    let s := s.setSlice n k { r with
      nhit := r.nhit + 1, sums := sums
      chains := tabIns r.chains e { c with recs := c.recs ++ [rec_.map (BitVec.ofNat 64)] } }
    s.count64 (SLC_STORED_LO e) bytes.length

/-- A hit in one stream, by the position of its slice (R52, R54, R123). -/
def State.binIn (s : State) (n : Nat) (h : Accepted) : State :=
  let e := h.lane / 16
  let tick := h.ts / 16
  let st := s.stream n
  if tick < s.strO n then s.count (SLC_EARLY e) 1
  else
    let k := (tick - s.strO n) / max (s.strW n) 1
    if k < st.first then s.count (SLC_EARLY e) 1
    else if k < st.next then (s.count (SLC_LATE e) 1).dirFlag n k 11 true
    else if st.next + 63 < k then s.count (SLC_FAR e) 1
    else s.storeHit n k h

/-- A hit lies beyond the open slices of stream n. -/
def State.isFar (s : State) (n tick : Nat) : Bool :=
  s.strO n ≤ tick && (s.stream n).first ≤ (tick - s.strO n) / max (s.strW n) 1 &&
    (s.stream n).next + 63 < (tick - s.strO n) / max (s.strW n) 1

/-- Binning of an accepted hit in every stream of its lane (R122, R123). -/
def State.bin (s : State) (h : Accepted) : State :=
  let tick := h.ts / 16
  let ns := (List.range 4).filter (fun n => s.takes n h.lane tick)
  let far := ns.any (fun n => s.isFar n tick)
  let s := if ns.isEmpty then s.count (SLC_NOSTREAM (h.lane / 16)) 1 else ns.foldl (fun s n => s.binIn n h) s
  if far then s.sendMark (Mark.mk h.lane .far tick tick) else s

/-! ## Per-hit processing -/

/-- A suppressed hit (R100). -/
def State.suppress (s : State) : State := s.count64 CTB_SUP_LO 1

/-- Steps 5 to 12 of R100 against a well-formed descriptor. -/
def State.processHit (s : State) (h : Hit) (img : Nat) : State :=
  let w := h.word.toNat
  let fef := bits w 8 4
  if dfield img 0 63 1 = 0 then (s.count CTB_UNUSED 1).suppress
  else if h.lane ≠ dfield img 0 54 6 then (s.count CTB_ERR_LANE 1).suppress
  else if dfield img 0 52 2 = 1 then s.suppress
  else if Nat.land fef (dfield img 0 32 4) ≠ 0 then s.suppress
  else
    let amp := bits w 14 16
    let (ca, sat) := corrected amp (dfield img 1 48 16) (dfield img 1 6 10)
    if !zsPass (dfield img 1 4 2) ca (sext 16 (dfield img 1 32 16)) then s.suppress
    else
      let ovl := dfield img 1 16 16
      let region := dfield img 0 40 12
      let rgn := s.nreg ≤ region
      let fr := b2n rgn * 16 + b2n sat * 8 + b2n (ovl != 0 && ovl ≤ amp) * 4
        + b2n (Nat.land fef (dfield img 0 28 4) != 0) * 2 + b2n (dfield img 0 52 2 == 2)
      let s := if rgn then s.count CTB_ERR_REGION 1 else s
      let kept := keptSamples img ca h.samples
      let word := putBits (putBits w 12 1 (b2n (fr != 0))) 0 8 kept.length
      let s := s.count64 (if fr = 0 then CTB_ACC_LO else CTB_FLG_LO) 1
      s.bin { lane := h.lane, ts := h.ts, word := word, ca := ca, region := region, regen := dfield img 0 39 1 == 1
              fr := fr, routes := bits img 192 64, samples := kept }

/-- A hit that finds an entry: a poisoned one suppresses it as malformed (R100, R112). -/
def State.serveHit (s : State) (h : Hit) (e : DescEntry) : State :=
  if e.poisoned then (s.count CTB_ERR_DESC 1).suppress else s.processHit h e.image.toNat

/-- A hit with no descriptor obtainable (R110). -/
def State.unresolved (s : State) (h : Hit) : State :=
  (s.count CTB_UNRES 1).sendMark (Mark.mk h.lane .unresolved (h.ts / 16) (h.ts / 16))

/-! ## The descriptor cache -/

/-- The channel number of a hit. -/
def Hit.cn (h : Hit) : Nat := bits h.word.toNat 46 18

/-- The entry of a channel in a bank, with its index. -/
def Bank.find (b : Bank) (cn : Nat) : Option (Nat × DescEntry) :=
  ((List.range 8).map (fun w => cn % 32 * 8 + w)).findSome? (fun i =>
    match tabFind b.entries i with
    | some e => if e.cn = cn then some (i, e) else none
    | none => none)

/-- Installs an entry: the lowest empty way of its set, else the way of the stepped LFSR (R108). -/
def Bank.install (b : Bank) (e : DescEntry) : Bank :=
  let set := e.cn % 32 * 8
  match b.find e.cn with
  | some (i, _) => { b with entries := tabIns b.entries i e }
  | none =>
    match (List.range 8).find? (fun w => (tabFind b.entries (set + w)).isNone) with
    | some w => { b with entries := tabIns b.entries (set + w) e }
    | none =>
      let f := lfsrStep b.lfsr
      { b with lfsr := f, entries := tabIns b.entries (set + f % 8) e }

/-- Hits held in the miss store (R110). -/
def Bank.missStore (b : Bank) : Nat := b.waiting.length + sumN (b.fills.map (fun f => f.2.joined.length))

/-- The free fill slot of lowest number. -/
def Bank.freeSlot (b : Bank) : Option Nat := (List.range 16).find? (fun i => (tabFind b.fills i).isNone)

/-- The fill in progress that a lookup of `cn` may join: not a stale one (R117). -/
def Bank.fillOf (b : Bank) (cn : Nat) : Option (Nat × Fill) := b.fills.find? (fun f => f.2.cn == cn && !f.2.stale)

/-- A fill slot is taken for a hit; every hit of its channel that waits for a slot joins (R110). -/
def Bank.take (b : Bank) (i : Nat) (h : Hit) : Bank :=
  { b with
    fills := tabIns b.fills i
      { cn := h.cn, hit := h, joined := b.waiting.filter (fun x => x.cn == h.cn), fetches := 0, waiting := false
        stale := false, born := b.taken }
    taken := b.taken + 1
    waiting := b.waiting.filter (fun x => x.cn != h.cn) }

/-- The state with a bank replaced and its peaks raised (R110, R120, R496). -/
def State.putBank (s : State) (b : Nat) (x : Bank) : State :=
  let s := s.setBank b x
  let s := s.fset (CTB_BANK b) 16 9 (max (s.fget (CTB_BANK b) 16 9) x.missStore)
  s.fset (CTB_BANK b) 0 5 (max (s.fget (CTB_BANK b) 0 5) x.fills.length)

/-- A hit that misses (R110). -/
def State.miss (s : State) (b : Nat) (h : Hit) : State :=
  let s := s.count64 CTB_MISS_LO 1
  let x := s.bank b
  match x.fillOf h.cn with
  | some (i, f) =>
    if 256 ≤ x.missStore then s.unresolved h
    else s.putBank b { x with fills := tabIns x.fills i { f with joined := f.joined ++ [h] } }
  | none =>
    match x.freeSlot with
    | some i => s.putBank b (x.take i h)
    | none =>
      if 256 ≤ x.missStore then s.unresolved h
      else s.putBank b { x with waiting := x.waiting ++ [h] }

/-- A hit leaves the lane entry queue and is looked up (R100, R108, R113). -/
def State.lookup (s : State) (l : Nat) (ecc : Ecc) : State :=
  match (s.lane l).entryq with
  | [] => s
  | h :: rest =>
    let s := s.passOn l h rest
    if !s.fbit CTB_CTL 0 then s.count CTB_OFF 1
    else if s.fget CTB_NCHAN 0 19 ≤ h.cn then (s.count CTB_ERR_CN 1).suppress
    else
      let b := l / 2
      match (s.bank b).find h.cn, ecc with
      | some (_, e), .ok => s.serveHit h e
      | some (_, e), .corrected => (s.count CTB_ECC_CORR 1).serveHit h e
      | some (i, _), .uncorrectable =>
        (s.setBank b { s.bank b with entries := tabDel (s.bank b).entries i }).miss b h
      | none, _ => s.miss b h

/-- The 64 bytes of the descriptor of a channel in HBM (R93). -/
def State.descAddr (s : State) (cn : Nat) : Nat := s.rd64 CTB_BASE_LO + 64 * cn

/-- A fill ends with an entry: it is installed unless stale, the hits that wait are served, the slot is freed and the
oldest waiting hit takes it (R110, R112, R117). -/
def State.fillEnds (s : State) (b i : Nat) (f : Fill) (e : DescEntry) (cause : Nat) : State :=
  let x := s.bank b
  let x := if f.stale then x else x.install e
  let x := { x with fills := tabDel x.fills i }
  let x := match x.waiting with
    | h :: rest => Bank.take { x with waiting := rest } i h
    | [] => x
  let s := s.putBank b x
  let s :=
    if e.poisoned && !f.stale && !s.fbit CTB_BADCN 31 then
      s.wr CTB_BADCN (2 ^ 31 + cause * 2 ^ 24 + f.hit.lane * 2 ^ 18 + f.cn)
    else s
  (f.hit :: f.joined).foldl (fun s h => s.serveHit h e) s

/-- An older fill of the channel, left stale by an invalidate, still holds hits (R114, R117). -/
def Bank.behind (b : Bank) (f : Fill) : Bool := b.fills.any (fun g => g.2.cn == f.cn && g.2.born < f.born)

/-- The fills of a channel whose entries were held back end once no older one is in flight, oldest first (R114). -/
def State.releaseFills : Nat → State → Nat → Nat → State
  | 0, s, _, _ => s
  | n + 1, s, b, cn =>
    match (s.bank b).fills.find? (fun g => g.2.cn == cn && g.2.ready.isSome && !(s.bank b).behind g.2) with
    | some (i, g) =>
      (match g.ready with
      | some (e, cause) => State.releaseFills n (s.fillEnds b i g e cause) b cn
      | none => s)
    | none => s

/-- A fill has its entry: it ends, and those held back behind it; or it is held back itself (R114). -/
def State.fillReady (s : State) (b i : Nat) (f : Fill) (e : DescEntry) (cause : Nat) : State :=
  if (s.bank b).behind f then
    s.setBank b { s.bank b with fills := tabIns (s.bank b).fills i { f with ready := some (e, cause) } }
  else (s.fillEnds b i f e cause).releaseFills 16 b f.cn

/-- A fetch of a fill returns (R99, R111, R112). -/
def State.descriptorFill (s : State) (b i : Nat) (unc : Bool) : State :=
  match tabFind (s.bank b).fills i with
  | none => s
  | some f =>
    if f.waiting || f.ready.isSome then s
    else
      let s := if unc then s.count MEM_HBM_ECC_UNC 1 else s
      let a := s.descAddr f.cn
      let img := ofLe (s.hbmRead a 64)
      let cause := descCause f.cn img (unc || s.isPoison (a / 64))
      let e : DescEntry := { cn := f.cn, image := BitVec.ofNat 512 img, poisoned := cause != 0 }
      if (cause = 1 || cause = 6) && f.fetches < 2 then
        s.setBank b { s.bank b with
          fills := tabIns (s.bank b).fills i { f with fetches := f.fetches + 1, waiting := true } }
      else s.fillReady b i f e cause

/-- The next fetch of a fill is issued (R112). -/
def State.fillRefetch (s : State) (b i : Nat) : State :=
  match tabFind (s.bank b).fills i with
  | some f => s.setBank b { s.bank b with fills := tabIns (s.bank b).fills i { f with waiting := false } }
  | none => s

/-! ## CTB_CTL and invalidation -/

def State.ctbLast (s : State) (st : Nat) : State := s.wr CTB_ST st

/-- The hits that wait on fills in any bank. -/
def State.waitingHits (s : State) : Nat :=
  sumN (s.chan.banks.map (fun b => b.2.missStore + b.2.fills.length))

/-- The cache emptied and every fill abandoned; each LFSR keeps its value (R94, R95). -/
def State.emptyCache (s : State) : State :=
  let clear (b : Nat × Bank) : Nat × Bank := (b.1, { lfsr := b.2.lfsr })
  (s.withChan { s.chan with banks := (s.chan.banks.map clear).filter (fun b => b.2 != ({} : Bank)) })

/-- A write of CTB_CTL (R94, R95). -/
def State.ctbCtl (s : State) (v : Nat) : State :=
  let on := s.fbit CTB_CTL 0
  if bit v 0 then
    if on then s.ctbLast stOk
    else
      let base := s.rd64 CTB_BASE_LO
      let n := 64 * s.fget CTB_NCHAN 0 19
      if hbmSize < base + n then s.ctbLast stRange
      else if !s.unassigned base n then s.ctbLast stPerm
      else (s.emptyCache.wr CTB_CTL 1).ctbLast stOk
  else if on && !s.enabledStreams.isEmpty then (s.ctbLast stState).errLog stState srcCtb none CTB_CTL
  else
    let s := if on then (s.count CTB_OFF s.waitingHits).emptyCache else s
    (s.wr CTB_CTL 0).ctbLast stOk

/-- An invalidate command (R116, R118); the channels are removed at its completion. -/
def State.invalidate (s : State) (op : Nat) : State :=
  let lo := s.fget CTB_INV_LO 0 18
  let hi := if op = 2 then s.fget CTB_INV_HI 0 18 else lo
  let n := s.fget CTB_NCHAN 0 19
  if s.chan.inv.isSome then s.fset CTB_INV_ST 0 8 stBusy
  else if op = 2 && hi < lo then s.fset CTB_INV_ST 0 8 stArg
  else if op ≠ 3 && n ≤ hi then s.fset CTB_INV_ST 0 8 stRange
  else
    let c : InvCmd := if op = 3 then { lo := 0, hi := 2 ^ 18 - 1 } else { lo := lo, hi := hi }
    (s.withChan { s.chan with inv := some c }).fset CTB_INV_ST 8 1 1

/-- Entries of the named channels gone, fills in flight for them stale (R116, R117). -/
def Bank.inval (b : Bank) (c : InvCmd) : Bank :=
  { b with
    entries := b.entries.filter (fun e => e.2.cn < c.lo || c.hi < e.2.cn)
    fills := b.fills.map (fun f => if c.lo ≤ f.2.cn && f.2.cn ≤ c.hi then (f.1, { f.2 with stale := true }) else f) }

/-- The invalidate completes (R116 to R118). -/
def State.invalidateDone (s : State) : State :=
  match s.chan.inv with
  | none => s
  | some c =>
    let banks := (s.chan.banks.map (fun (b : Nat × Bank) => (b.1, b.2.inval c))).filter (fun b => b.2 != ({} : Bank))
    let s := s.withChan { s.chan with inv := none, banks := banks }
    ((s.wr CTB_INV_ST stOk).wr CTB_INV_TICK_LO (s.time.tick % 2 ^ 32)).wr CTB_INV_TICK_HI (2 ^ 31 + s.time.tick / 2 ^ 32)

/-! ## Meanings -/

/-- HIT_LOOKUP. -/
def execHitLookup (l : Lane) (ecc : Ecc) (s : State) : Host.Outcome State Fault Refusal := s.live (·.lookup l ecc)
/-- DESCRIPTOR_FILL. -/
def execDescriptorFill (b : Fin 32) (slot : Fin 16) (unc : Bool) (s : State) : Host.Outcome State Fault Refusal :=
  s.live (·.descriptorFill b slot unc)
/-- FILL_REFETCH. -/
def execFillRefetch (b : Fin 32) (slot : Fin 16) (s : State) : Host.Outcome State Fault Refusal :=
  s.live (·.fillRefetch b slot)
/-- CTB_CTL_WRITE. -/
def execCtbCtlWrite (v : BitVec 32) (s : State) : Host.Outcome State Fault Refusal := s.live (·.ctbCtl v.toNat)
/-- INVALIDATE_CN. -/
def execInvalidateCn (s : State) : Host.Outcome State Fault Refusal := s.live (·.invalidate 1)
/-- INVALIDATE_RANGE. -/
def execInvalidateRange (s : State) : Host.Outcome State Fault Refusal := s.live (·.invalidate 2)
/-- INVALIDATE_ALL. -/
def execInvalidateAll (s : State) : Host.Outcome State Fault Refusal := s.live (·.invalidate 3)
/-- INVALIDATE_COMPLETE. -/
def execInvalidateComplete (s : State) : Host.Outcome State Fault Refusal := s.live (·.invalidateDone)

end Sys2Proof.Machine
end

