-- ==== Sys2Proof/Machine/Crypto.lean ====
section
/-! DEFINITION. The algorithms of R373, as the standards that it names define them: SHA-384 (FIPS 180-4), HMAC and HKDF (RFC 5869),
AES-256-GCM (SP 800-38D), P-384 (FIPS 186-5, SP 800-56A), CTR_DRBG (SP 800-90A); the parts of an X.509 certificate (R363). The
standards stand outside the spec (PRESUMED, assumption 65). -/

namespace Sys2Proof.Machine

/-! ## Bytes -/

/-- Bytes of a number, highest first. -/
def beBytes (n v : Nat) : List Byte := (leBytes n v).reverse

/-- The number that bytes spell, highest first. -/
def ofBe (bs : List Byte) : Nat := ofLe bs.reverse

/-- Bytes added without carry; the shorter string ends the sum. -/
def xorBytes (a b : List Byte) : List Byte := List.zipWith (· ^^^ ·) a b

/-! ## SHA-384 -/

/-- The initial hash value of SHA-384. -/
def shaInit : List Word :=
  [ 0xcbbb9d5dc1059ed8, 0x629a292a367cd507, 0x9159015a3070dd17, 0x152fecd8f70e5939, 0x67332667ffc00b31,
    0x8eb44a8768581511, 0xdb0c2e0d64f98fa7, 0x47b5481dbefa4fa4 ]

/-- The round constants of SHA-384, in four parts. -/
def shaK0 : List Word :=
  [ 0x428a2f98d728ae22, 0x7137449123ef65cd, 0xb5c0fbcfec4d3b2f, 0xe9b5dba58189dbbc, 0x3956c25bf348b538,
    0x59f111f1b605d019, 0x923f82a4af194f9b, 0xab1c5ed5da6d8118, 0xd807aa98a3030242, 0x12835b0145706fbe,
    0x243185be4ee4b28c, 0x550c7dc3d5ffb4e2, 0x72be5d74f27b896f, 0x80deb1fe3b1696b1, 0x9bdc06a725c71235,
    0xc19bf174cf692694, 0xe49b69c19ef14ad2, 0xefbe4786384f25e3, 0x0fc19dc68b8cd5b5, 0x240ca1cc77ac9c65 ]

/-- Round constants, continued. -/
def shaK1 : List Word :=
  [ 0x2de92c6f592b0275, 0x4a7484aa6ea6e483, 0x5cb0a9dcbd41fbd4, 0x76f988da831153b5, 0x983e5152ee66dfab,
    0xa831c66d2db43210, 0xb00327c898fb213f, 0xbf597fc7beef0ee4, 0xc6e00bf33da88fc2, 0xd5a79147930aa725,
    0x06ca6351e003826f, 0x142929670a0e6e70, 0x27b70a8546d22ffc, 0x2e1b21385c26c926, 0x4d2c6dfc5ac42aed,
    0x53380d139d95b3df, 0x650a73548baf63de, 0x766a0abb3c77b2a8, 0x81c2c92e47edaee6, 0x92722c851482353b ]

/-- Round constants, continued. -/
def shaK2 : List Word :=
  [ 0xa2bfe8a14cf10364, 0xa81a664bbc423001, 0xc24b8b70d0f89791, 0xc76c51a30654be30, 0xd192e819d6ef5218,
    0xd69906245565a910, 0xf40e35855771202a, 0x106aa07032bbd1b8, 0x19a4c116b8d2d0c8, 0x1e376c085141ab53,
    0x2748774cdf8eeb99, 0x34b0bcb5e19b48a8, 0x391c0cb3c5c95a63, 0x4ed8aa4ae3418acb, 0x5b9cca4f7763e373,
    0x682e6ff3d6b2b8a3, 0x748f82ee5defb2fc, 0x78a5636f43172f60, 0x84c87814a1f0ab72, 0x8cc702081a6439ec ]

/-- Round constants, continued. -/
def shaK3 : List Word :=
  [ 0x90befffa23631e28, 0xa4506cebde82bde9, 0xbef9a3f7b2c67915, 0xc67178f2e372532b, 0xca273eceea26619c,
    0xd186b8c721c0c207, 0xeada7dd6cde0eb1e, 0xf57d4f7fee6ed178, 0x06f067aa72176fba, 0x0a637dc5a2c898a6,
    0x113f9804bef90dae, 0x1b710b35131c471b, 0x28db77f523047d84, 0x32caab7b40c72493, 0x3c9ebe0a15c9bebc,
    0x431d67c49c100d4c, 0x4cc5d4becb3e42b6, 0x597f299cfc657e2a, 0x5fcb6fab3ad6faec, 0x6c44198c4a475817 ]

/-- A word rotated right. -/
def rotr (x : Word) (n : Nat) : Word := (x >>> n) ||| (x <<< (64 - n))

/-- The message schedule of a block, the latest word first: `n` words more. -/
def shaSchedule : Nat → List Word → List Word
  | 0, w => w
  | n + 1, w =>
    let a := w.getD 1 0
    let b := w.getD 14 0
    let s1 := rotr a 19 ^^^ rotr a 61 ^^^ (a >>> 6)
    let s0 := rotr b 1 ^^^ rotr b 8 ^^^ (b >>> 7)
    shaSchedule n ((s1 + w.getD 6 0 + s0 + w.getD 15 0) :: w)

/-- One round on the eight working words. -/
def shaRound (h : List Word) (kw : Word × Word) : List Word :=
  match h with
  | [a, b, c, d, e, f, g, x] =>
    let t1 := x + (rotr e 14 ^^^ rotr e 18 ^^^ rotr e 41) + ((e &&& f) ^^^ (~~~e &&& g)) + kw.1 + kw.2
    let t2 := (rotr a 28 ^^^ rotr a 34 ^^^ rotr a 39) + ((a &&& b) ^^^ (a &&& c) ^^^ (b &&& c))
    [t1 + t2, a, b, c, d + t1, e, f, g]
  | _ => h

/-- The hash value after a block of 128 bytes. -/
def shaBlock (h : List Word) (block : List Byte) : List Word :=
  let w := ((List.range 16).map (fun i => BitVec.ofNat 64 (ofBe ((block.drop (8 * i)).take 8)))).reverse
  let k := shaK0 ++ shaK1 ++ shaK2 ++ shaK3
  List.zipWith (· + ·) h ((k.zip (shaSchedule 64 w).reverse).foldl shaRound h)

/-- The blocks of a padded message in turn. -/
def shaBlocks : Nat → List Word → List Byte → List Word
  | 0, h, _ => h
  | n + 1, h, bs => shaBlocks n (shaBlock h (bs.take 128)) (bs.drop 128)

/-- SHA-384: 48 bytes. -/
def sha384 (bs : List Byte) : List Byte :=
  let m := bs ++ 0x80 :: List.replicate ((128 - (bs.length + 17) % 128) % 128) 0 ++ beBytes 16 (8 * bs.length)
  ((shaBlocks (m.length / 128) shaInit m).take 6).flatMap (fun w => beBytes 8 w.toNat)

/-- HMAC-SHA-384 with a key of at most 128 bytes. -/
def hmac (key msg : List Byte) : List Byte :=
  let k := key ++ List.replicate (128 - key.length) 0
  sha384 (k.map (· ^^^ 0x5C) ++ sha384 (k.map (· ^^^ 0x36) ++ msg))

/-- HKDF-SHA-384 with a salt of 48 zero bytes and an output of 32 bytes (R378): input key material and info. -/
def hkdf (ikm info : List Byte) : List Byte := (hmac (hmac (List.replicate 48 0) ikm) (info ++ [1])).take 32

/-! ## AES-256 -/

/-- Multiplication by x in the field of AES. -/
def xtime (a : Byte) : Byte := (a <<< 1) ^^^ (if a.getLsbD 7 then 0x1B else 0)

/-- Multiplication in the field of AES, by the bits of the first factor. -/
def gmul (a b : Byte) : Byte :=
  ((List.range 8).foldl (fun (p : Byte × Byte) i => (if a.getLsbD i then p.1 ^^^ p.2 else p.1, xtime p.2)) (0, b)).1

/-- The inverse in the field of AES, 0 for 0: the 254th power. -/
def ginv (a : Byte) : Byte := (List.range 6).foldl (fun (p : Byte) _ => gmul (gmul p p) a) a |> fun p => gmul p p

/-- The S-box. -/
def sboxOf (a : Byte) : Byte :=
  let b := ginv a
  b ^^^ b.rotateLeft 1 ^^^ b.rotateLeft 2 ^^^ b.rotateLeft 3 ^^^ b.rotateLeft 4 ^^^ 0x63

/-- The S-box as a table. -/
def sboxTable : List Byte := (List.range 256).map (fun i => sboxOf (BitVec.ofNat 8 i))
def sbox (a : Byte) : Byte := sboxTable.getD a.toNat 0

/-- The words of the key schedule, the latest first: `n` words more, from word `i` on. -/
def aesSchedule : Nat → Nat → List (List Byte) → List (List Byte)
  | 0, _, w => w
  | n + 1, i, w =>
    let t := w.headD []
    let t := if i % 8 = 0 then
        xorBytes ((t.drop 1 ++ t.take 1).map sbox) [(List.range (i / 8 - 1)).foldl (fun p _ => xtime p) 1, 0, 0, 0]
      else if i % 8 = 4 then t.map sbox
      else t
    aesSchedule n (i + 1) (xorBytes (w.getD 7 []) t :: w)

/-- The 15 round keys of a key of 32 bytes. -/
def aesKeys (key : List Byte) : List (List Byte) :=
  let w := (aesSchedule 52 8 ((List.range 8).map (fun i => (key.drop (4 * i)).take 4)).reverse).reverse
  (List.range 15).map (fun r => ((w.drop (4 * r)).take 4).flatten)

/-- ShiftRows: byte r + 4c comes from column c + r. -/
def shiftRows (s : List Byte) : List Byte :=
  (List.range 16).map (fun i => s.getD (i % 4 + 4 * ((i / 4 + i % 4) % 4)) 0)

/-- MixColumns. -/
def mixColumns (s : List Byte) : List Byte :=
  (List.range 16).map (fun i =>
    let b (k : Nat) : Byte := s.getD (i / 4 * 4 + (i + k) % 4) 0
    xtime (b 0) ^^^ (xtime (b 1) ^^^ b 1) ^^^ b 2 ^^^ b 3)

/-- A block of 16 bytes enciphered. -/
def aesBlock (key block : List Byte) : List Byte :=
  match aesKeys key with
  | k0 :: ks =>
    let s := (ks.take 13).foldl (fun s k => xorBytes (mixColumns (shiftRows (s.map sbox))) k) (xorBytes block k0)
    xorBytes (shiftRows (s.map sbox)) (ks.getD 13 [])
  | [] => block

/-! ## GCM, with an IV of 96 bits and a tag of 128 bits -/

/-- The product of two blocks in the field of GCM. -/
def gcmMul (x y : Nat) : Nat :=
  ((List.range 128).foldl (fun (p : Nat × Nat) i =>
    (if bit x (127 - i) then Nat.xor p.1 p.2 else p.1,
      if bit p.2 0 then Nat.xor (p.2 / 2) (0xE1 * 2 ^ 120) else p.2 / 2)) (0, y)).1

/-- A string padded with zeros to whole blocks. -/
def padBlock (bs : List Byte) : List Byte := bs ++ List.replicate ((16 - bs.length % 16) % 16) 0

/-- GHASH over `n` blocks. -/
def ghash (h : Nat) : Nat → Nat → List Byte → Nat
  | 0, y, _ => y
  | n + 1, y, bs => ghash h n (gcmMul (Nat.xor y (ofBe (bs.take 16))) h) (bs.drop 16)

/-- The key stream added to a string, from a counter on, over `n` blocks. -/
def gctr (key iv : List Byte) : Nat → Nat → List Byte → List Byte
  | 0, _, _ => []
  | n + 1, c, bs => xorBytes (bs.take 16) (aesBlock key (iv ++ beBytes 4 (c % 2 ^ 32))) ++ gctr key iv n (c + 1) (bs.drop 16)

/-- The tag of associated data and cipher text. -/
def gcmTag (key iv aad ct : List Byte) : List Byte :=
  let m := padBlock aad ++ padBlock ct ++ beBytes 8 (8 * aad.length) ++ beBytes 8 (8 * ct.length)
  xorBytes (beBytes 16 (ghash (ofBe (aesBlock key (List.replicate 16 0))) (m.length / 16) 0 m)) (aesBlock key (iv ++ beBytes 4 1))

/-- AES-256-GCM encryption: key, IV, associated data, plain text; cipher text and tag. -/
def gcmSeal (key iv aad pt : List Byte) : List Byte × List Byte :=
  let ct := gctr key iv (pt.length / 16 + 1) 2 pt
  (ct, gcmTag key iv aad ct)

/-- AES-256-GCM decryption: the plain text where the tag holds. -/
def gcmOpen (key iv aad ct tag : List Byte) : Option (List Byte) :=
  if gcmTag key iv aad ct = tag then some (gctr key iv (ct.length / 16 + 1) 2 ct) else none

/-! ## P-384 -/

/-- The prime of the field, the order, the coefficient b and the base point of P-384; the coefficient a is -3. -/
def ecP : Nat := 2 ^ 384 - 2 ^ 128 - 2 ^ 96 + 2 ^ 32 - 1
def ecN : Nat := 0xffffffffffffffffffffffffffffffffffffffffffffffffc7634d81f4372ddf581a0db248b0a77aecec196accc52973
def ecB : Nat := 0xb3312fa7e23ee7e4988e056be3f82d19181d9c6efe8141120314088f5013875ac656398d8a2ed19d2a85c8edd3ec2aef
def ecGx : Nat := 0xaa87ca22be8b05378eb1c71ef320ad746e1d3b628ba79b9859f741e082542a385502f25dbf55296c3a545e3872760ab7
def ecGy : Nat := 0x3617de4a96262c6f5d9e98bf9292dc29f8f41dbd289a147ce9da3113b5f0b8c00a60b1ce1d7e819d7a431d7c90ea0e5f

/-- A power modulo `m`, by the bits of the exponent; the first argument bounds their number. -/
def powMod (m : Nat) : Nat → Nat → Nat → Nat
  | 0, _, _ => 1
  | n + 1, b, e =>
    let h := powMod m n (b * b % m) (e / 2)
    if e % 2 = 1 then b * h % m else h

/-- The inverse modulo a prime. -/
def invMod (m a : Nat) : Nat := powMod m 384 (a % m) (m - 2)

/-- A point: none at infinity. -/
abbrev EcPoint := Option (Nat × Nat)

/-- The third point of a slope, reflected. -/
def ecThird (l : Nat) (p q : Nat × Nat) : EcPoint :=
  let x := (l * l + 2 * ecP - p.1 - q.1) % ecP
  some (x, (l * (p.1 + ecP - x) + ecP - p.2) % ecP)

/-- The sum of two points. -/
def ecAdd (p q : EcPoint) : EcPoint :=
  match p, q with
  | none, q => q
  | p, none => p
  | some p, some q =>
    if p.1 = q.1 then
      if (p.2 + q.2) % ecP = 0 then none
      else ecThird ((3 * p.1 * p.1 + ecP - 3) * invMod ecP (2 * p.2) % ecP) p q
    else ecThird ((q.2 + ecP - p.2) * invMod ecP (q.1 + ecP - p.1) % ecP) p q

/-- A multiple of a point, by the bits of the factor; the first argument bounds their number. -/
def ecMul : Nat → Nat → EcPoint → EcPoint
  | 0, _, _ => none
  | n + 1, k, p =>
    if k = 0 then none
    else
      let r := ecMul n (k / 2) (ecAdd p p)
      if k % 2 = 1 then ecAdd p r else r

/-- The base point. -/
def ecG : EcPoint := some (ecGx, ecGy)

/-- A point as 97 bytes (R374). -/
def ecBytes : EcPoint → List Byte
  | some (x, y) => 0x04 :: beBytes 48 x ++ beBytes 48 y
  | none => List.replicate 97 0

/-- The coordinates of 97 bytes. -/
def ecCoords (bs : List Byte) : Nat × Nat := (ofBe ((bs.drop 1).take 48), ofBe ((bs.drop 49).take 48))

/-- A 97-byte string is a valid point (R374). -/
def ecValid (bs : List Byte) : Bool :=
  let (x, y) := ecCoords bs
  bs.length == 97 && bs.headD 0 == 0x04 && x < ecP && y < ecP && y * y % ecP == (x * x * x + (ecP - 3) * x + ecB) % ecP

/-- The public point of a private scalar, 97 bytes. -/
def ecPublic (d : List Byte) : List Byte := ecBytes (ecMul 384 (ofBe d) ecG)

/-- The ECDH shared secret: the 48 bytes of the x-coordinate (R373). -/
def ecdh (d pub : List Byte) : List Byte := ((ecBytes (ecMul 384 (ofBe d) (some (ecCoords pub)))).drop 1).take 48

/-- The ECDSA signature r, s of a digest by a private scalar with a nonce, 96 bytes (R374). -/
def ecSign (d digest k : List Byte) : List Byte :=
  match ecMul 384 (ofBe k) ecG with
  | some (x, _) =>
    let r := x % ecN
    beBytes 48 r ++ beBytes 48 (invMod ecN (ofBe k) * (ofBe digest + r * ofBe d) % ecN)
  | none => List.replicate 96 0

/-- The ECDSA check of a digest and a signature field of 128 bytes, whose padding is zero (R374). -/
def ecVerify (pub digest sig : List Byte) : Bool :=
  let r := ofBe (sig.take 48)
  let s := ofBe ((sig.drop 48).take 48)
  let w := invMod ecN s
  let v := ecAdd (ecMul 384 (ofBe digest * w % ecN) ecG) (ecMul 384 (r * w % ecN) (some (ecCoords pub)))
  sig.length == 128 && (sig.drop 96).all (· == 0) && 0 < r && r < ecN && 0 < s && s < ecN &&
    (match v with | some (x, _) => x % ecN == r | none => false)

/-- A private scalar or nonce from 56 random bytes (FIPS 186-5, extra random bits), 48 bytes. -/
def ecScalar (bs : List Byte) : List Byte := beBytes 48 (ofBe bs % (ecN - 1) + 1)

/-! ## CTR_DRBG with AES-256 -/

/-- `n` blocks of the generator after its counter `v`. -/
def drbgBlocks (key : List Byte) : Nat → Nat → List Byte
  | 0, _ => []
  | n + 1, v => aesBlock key (beBytes 16 ((v + 1) % 2 ^ 128)) ++ drbgBlocks key n ((v + 1) % 2 ^ 128)

/-- The key and the counter after an update with 48 bytes. -/
def drbgUpdate (key v data : List Byte) : List Byte × List Byte :=
  let t := xorBytes (drbgBlocks key 3 (ofBe v)) data
  (t.take 32, t.drop 32)

/-! ## X.509 -/

/-- A DER element: its tag, its content, what follows. -/
def der : List Byte → Option (Nat × List Byte × List Byte)
  | t :: l :: rest =>
    let k := l.toNat - 128
    let (n, rest) := if l.toNat < 128 then (l.toNat, rest) else (ofBe (rest.take k), rest.drop k)
    if l = 128 || rest.length < n then none else some (t.toNat, rest.take n, rest.drop n)
  | _ => none

/-- The elements of a DER string, at most `n`. -/
def derList : Nat → List Byte → List (Nat × List Byte)
  | 0, _ => []
  | n + 1, bs =>
    match der bs with
    | some (t, c, rest) => (t, c) :: derList n rest
    | none => []

/-- The content of the first element of a string, where its tag is `t`. -/
def derIn (t : Nat) (bs : List Byte) : Option (List Byte) :=
  match der bs with
  | some (u, c, _) => if u = t then some c else none
  | none => none

/-- The serial number and the subject public key of a certificate (RFC 5280). -/
def certParts (bs : List Byte) : Option (Nat × List Byte) := do
  let tbs ← (← derIn 0x30 bs) |> derIn 0x30
  let l := derList 8 tbs
  let l := if (l.head?.map (·.1)) = some 0xA0 then l.drop 1 else l
  let serial ← l[0]?
  let spki ← l[5]?
  let key ← (derList 2 spki.2)[1]?
  if serial.1 = 0x02 && spki.1 = 0x30 && key.1 = 0x03 && key.2.headD 1 = 0 then some (ofBe serial.2, key.2.drop 1) else none

end Sys2Proof.Machine
end

