-- ==== Sys2Proof/Machine/Held.lean ====
section
/-! DEFINITION. Held regions of a cluster's L2 (R249, R250), the measurement of a code image registered with loading (R383),
and page-table walks (R175, R176). -/

namespace Sys2Proof.Machine

/-! ## Translation -/

/-- Why a translation fails (R176). -/
inductive Walk where
  /-- the entry, with its page assigned to the partition -/
  | ok (entry : Nat)
  | fault
  /-- the page is not assigned to the partition: ST_PERM is recorded too -/
  | perm
deriving DecidableEq, Repr

/-- The page-table entry of a VPN of a partition (R175). -/
def State.pte (s : State) (pn vpn : Nat) : Nat := s.hbmWord (s.rd64 (PRT_PTB_LO pn) + 8 * vpn)

/-- The walk of a partition's page table for a virtual address (R174 to R176): the addresses of a partition are those of
its 16,384 pages of 2 MiB. -/
def State.walk (s : State) (pn va : Nat) : Walk :=
  if 0x800000000 ≤ va then .fault
  else
    let e := s.pte pn (va / 0x200000)
    if !bit e 63 || bit e 58 || bits e 35 22 != 0 || bits e 0 21 != 0 then .fault
    else if s.owner (bits e 21 14) != some pn then .perm
    else .ok e

/-- The physical address that an entry gives a virtual address. -/
def paOf (e va : Nat) : Nat := bits e 21 14 * 0x200000 + va % 0x200000

/-- Every page of a virtual range translates with permission bit `p` (61 R, 60 W): the physical address of each page's part
of the range. -/
def State.walkRange (s : State) (pn p : Nat) : Nat → Nat → Nat → Option (List (Nat × Nat))
  | 0, _, _ => some []
  | fuel + 1, va, n =>
    if n = 0 then some []
    else
      match s.walk pn va with
      | .ok e =>
        if bit e p then
          let m := min n (0x200000 - va % 0x200000)
          (State.walkRange s pn p fuel (va + m) (n - m)).map (fun l => (paOf e va, m) :: l)
        else none
      | _ => none

/-! ## Held regions -/

/-- The lines of a region in set `set` (R249). -/
def HeldRegion.inSet (r : HeldRegion) (set : Nat) : Nat :=
  r.lines / 8192 + (if (set + 8192 - r.line % 8192) % 8192 < r.lines % 8192 then 1 else 0)

/-- The highest number of held lines of any set: it is reached in the first set of some region. -/
def maxHeld (rs : List HeldRegion) : Nat :=
  maxN (rs.map (fun r => sumN (rs.map (fun q => q.inSet (r.line % 8192)))))

/-- The registration of a region keeps every set at 8 held lines and the cluster at 576 regions (R249). -/
def ClusterSt.roomFor (x : ClusterSt) (r : HeldRegion) : Bool :=
  maxHeld (x.held ++ [r]) ≤ 8 && x.held.length < 576

/-- The held regions of a cluster replaced, with the counts that MEM_CLc_HELD and MAXSET show. -/
def State.setHeld (s : State) (c : Nat) (rs : List HeldRegion) : State :=
  let s := s.setCluster c { s.cluster c with held := rs }
  (s.wr (MEM_CL_HELD c) (sumN (rs.map (·.lines)))).fset (MEM_CL_HOLD_ST c) 16 4 (maxHeld rs)

/-- The ring of a delivering subscription is registered without loading, where there is room (R250). -/
def State.holdRing (s : State) (c : Nat) (r : HeldRegion) : Option State :=
  if (s.cluster c).roomFor r then some (s.setHeld c ((s.cluster c).held ++ [r])) else none

/-- The ring of a subscription is no longer held. -/
def State.unholdRing (s : State) (c pn : Nat) : State :=
  s.setHeld c ((s.cluster c).held.filter (fun r => r.ring != some pn))

/-- The 48 bytes of a measurement register; zero at first (R366, R383). -/
def measBytes (m : List Byte) : List Byte := if m.isEmpty then List.replicate 48 0 else m

/-- The extension of a measurement register (R366). -/
def extend (m d : List Byte) : List Byte := sha384 (measBytes m ++ d)

/-- TMR is extended with a code image registered with loading, in pages assigned to no partition (R383). -/
def State.measureCode (s : State) (r : HeldRegion) : State :=
  let (i, s) := s.draw
  match Config.codeImage i with
  | none => s
  | some (pn, va) =>
    if s.unassigned (r.line * 64) (r.lines * 64) then
      let p := s.part (pn % 2048)
      let d := leBytes 2 (pn % 2048) ++ leBytes 8 va ++ leBytes 6 (r.lines * 64) ++ s.hbmRead (r.line * 64) (r.lines * 64)
      s.setPart (pn % 2048) { p with tmr := extend p.tmr (sha384 d), ncode := p.ncode + 1 }
    else s

/-- The region that MEM_CLc_HOLD_LO, _HI and _SIZE name. -/
def State.holdRegion (s : State) (c : Nat) (load : Bool) : HeldRegion :=
  { line := s.rd64 (MEM_CL_HOLD_LO c) / 64, lines := s.fget (MEM_CL_HOLD_SIZE c) 0 17, loaded := load, ring := none }

/-- A command of MEM_CLc_HOLD_CMD (R250): 1 add and load, 2 add, 3 remove; the write itself is accepted (R267). A refused
command changes nothing; else the command runs until HOLD_COMMAND_DONE. -/
def State.holdCmd (s : State) (c op : Nat) : State :=
  let s := s.fset (MEM_CL_ST c) 0 8 stOk
  let x := s.cluster c
  let r := s.holdRegion c (op == 1)
  let refuse (st : Nat) : State := s.fset (MEM_CL_HOLD_ST c) 0 8 st
  let run (s : State) : State :=
    (s.setCluster c { s.cluster c with holdCmd := some (op, r) }).fset (MEM_CL_HOLD_ST c) 8 1 1
  if s.fbit (MEM_CL_HOLD_ST c) 8 then refuse stBusy
  else if op = 3 then
    match firstIdx (fun q => q.line == r.line && q.lines == r.lines) 0 x.held with
    | some (i, _) => run (s.setHeld c (x.held.eraseIdx i))
    | none => refuse stArg
  else if hbmSize < (r.line + r.lines) * 64 then refuse stRange
  else if !x.roomFor r then refuse stNospace
  else
    let s := run (s.setHeld c (x.held ++ [r]))
    if op = 1 then
      ((List.range r.lines).foldl (fun s i => s.l2Fetch c (r.line + i)) s).measureCode r
    else s

/-- A held-region command finishes (R250). -/
def State.holdDone (s : State) (c : Nat) : State :=
  match (s.cluster c).holdCmd with
  | some _ =>
    ((s.setCluster c { s.cluster c with holdCmd := none }).fset (MEM_CL_HOLD_ST c) 8 1 0).fset (MEM_CL_HOLD_ST c) 0 8 stOk
  | none => s

/-! ## Meanings -/

/-- HOLD_ADD_LOAD. -/
def execHoldAddLoad (c : Clus) (s : State) : Host.Outcome State Fault Refusal := s.live (·.holdCmd c 1)
/-- HOLD_ADD. -/
def execHoldAdd (c : Clus) (s : State) : Host.Outcome State Fault Refusal := s.live (·.holdCmd c 2)
/-- HOLD_REMOVE. -/
def execHoldRemove (c : Clus) (s : State) : Host.Outcome State Fault Refusal := s.live (·.holdCmd c 3)
/-- HOLD_COMMAND_DONE. -/
def execHoldCommandDone (c : Clus) (s : State) : Host.Outcome State Fault Refusal := s.live (·.holdDone c)

end Sys2Proof.Machine
end

