-- ==== Sys2Proof/Machine/Shares.lean ====
section
/-! DEFINITION. The shares of partitions: weighted round robin over the partitions with demand (R402, R403, R406). -/

namespace Sys2Proof.Machine

/-- What is arbitrated among partitions (R402): the hit copies of a slice engine, the engines that QUEUED transactions take,
the PCIe link, an Ethernet sub-port, the HBM requests of a class. -/
inductive Arbiter where
  | copy (e : Nat) | engines | pcie | port (p : Nat) | hbm (cls : Nat)
deriving DecidableEq, Repr

def Arbiter.no : Arbiter → Nat
  | .copy e => e
  | .engines => 4
  | .pcie => 5
  | .port p => 6 + p
  | .hbm c => 14 + c

/-- The weight of a partition at an arbiter, as the last arbitration epoch took it (R402). -/
def State.weight (s : State) (a : Arbiter) (pn : Nat) : Nat :=
  let p := s.part pn
  match a with
  | .copy _ => bits p.qsd 0 16
  | .engines | .pcie | .port _ => bits p.qrd 0 16
  | .hbm _ => bits p.qhbm 0 16

/-- The grant units a partition may still take in the round of an arbiter that runs. -/
def State.credit (s : State) (a : Arbiter) (pn : Nat) : Int := tabGet 0 s.arb.credit (2048 * a.no + pn)

/-- The rounds that begin before a partition may take a grant again. -/
def State.roundsTo (s : State) (a : Arbiter) (pn : Nat) : Nat :=
  if 0 < s.credit a pn then 0 else (-(s.credit a pn)).toNat / s.weight a pn + 1

/-- The partitions of a demand that take part in the arbitration: RUNNING at the last arbitration epoch (R403, R404). -/
def State.contend (s : State) (demand : List Nat) : List Nat := demand.filter (fun q => (s.part q).inArb)

/-- The next grant of an arbiter may be a partition's: no other one with demand comes in an earlier round. A partition outside
the arbitration takes what those in it leave (R394, R403). -/
def State.mayGrant (s : State) (a : Arbiter) (demand : List Nat) (pn : Nat) : Bool :=
  let run := s.contend demand
  if (s.part pn).inArb then run.all (fun q => s.roundsTo a pn ≤ s.roundsTo a q) else run.isEmpty

/-- A partition takes grant units: the rounds up to its own begin, for those with demand; the rest of a share without demand
has passed to them (R403). -/
def State.charge (s : State) (a : Arbiter) (demand : List Nat) (pn units : Nat) : State :=
  if (s.part pn).inArb then
    let m := s.roundsTo a pn
    let new (q : Nat) : Int := s.credit a q + (m * s.weight a q : Nat) - (if q = pn then (units : Int) else 0)
    s.withArb { s.arb with
      credit := (s.contend (pn :: demand)).foldl (fun t q => tabPut 0 t (2048 * a.no + q) (new q))
        (s.arb.credit.filter (fun e => e.1 / 2048 != a.no)) }
  else s

/-! ## HBM requests of cores (R402, R406) -/

/-- The requests to HBM that wait, with their partitions. -/
def State.hbmReqs (s : State) : List (Nat × MissReq) :=
  s.cores.flatMap (fun e => (e.2.reqs.filter (fun r => r.2.hbm)).map (fun r => (e.2.pn, r.2)))

/-- The HBM requests of a partition outstanding (R402). -/
def State.hbmOut (s : State) (pn : Nat) : Nat := (s.hbmReqs.filter (fun r => r.1 == pn)).length

/-- The class a request is served in: that of its partition, or 1 once it has waited 16 arbitration epochs (R406). -/
def State.hbmClass (s : State) (pn : Nat) (r : MissReq) : Nat :=
  let c := bits (s.part pn).qhbm 28 2
  if c ≠ 0 && r.epoch + 16 ≤ s.arb.epochs then 1 else c

/-- The partitions with a request that waits in a class. -/
def State.hbmDemand (s : State) (cls : Nat) : List Nat :=
  (s.hbmReqs.filter (fun r => s.hbmClass r.1 r.2 == cls)).map (·.1)

/-- A request of core `k` is the next that HBM serves: class order, then weight (R406). -/
def State.hbmTurn (s : State) (k : Nat) (r : MissReq) : Bool :=
  let pn := (s.core k).pn
  let c := s.hbmClass pn r
  (List.range (if (s.part pn).inArb then c else 4)).all (fun d => (s.contend (s.hbmDemand d)).isEmpty) &&
    s.mayGrant (.hbm c) (s.hbmDemand c) pn

end Sys2Proof.Machine
end

