-- ==== Sys2Proof/Machine/Loss.lean ====
section
/-! DEFINITION. Tags, loss records and the end of a transaction (R310 to R316, R321, R331 to R335), and the release of a pin
(R130). -/

namespace Sys2Proof.Machine

/-! ## Records -/

def State.subch (s : State) (n : Nat) : Subch := tabGet {} s.readout.subch n
def State.setSubch (s : State) (n : Nat) (x : Subch) : State :=
  s.withReadout { s.readout with subch := tabPut {} s.readout.subch n x }
def State.txn (s : State) (t : Nat) : Option Txn := tabFind s.readout.txns t
def State.setTxn (s : State) (t : Nat) (x : Txn) : State :=
  s.withReadout { s.readout with txns := tabIns s.readout.txns t x }
def State.dropTxn (s : State) (t : Nat) : State :=
  s.withReadout { s.readout with txns := tabDel s.readout.txns t }

/-- CHS_WORK, CHS_RST (R301). -/
def State.work (s : State) : Nat := s.rd64 CHS_WORK_LO
/-- Word i of the descriptor of a subchannel (R301, R305). -/
def State.scWord (s : State) (n i : Nat) : Nat := s.hbmWord (s.work + 128 * n + 8 * i)
/-- A field of a subchannel's descriptor. -/
def State.scField (s : State) (n i lo w : Nat) : Nat := bits (s.scWord n i) lo w
/-- DEST of a subchannel's descriptor: 1 PCI Express, 8 to 15 an Ethernet port. -/
def State.scDest (s : State) (n : Nat) : Nat := s.scField n 0 60 4
def State.scPcie (s : State) (n : Nat) : Bool := s.scDest n == 1
/-- The logical port of a WRR subchannel. -/
def State.scPort (s : State) (n : Nat) : Nat := s.scDest n - 8
/-- The key of a partition's slot as a record engine loads it from the key table: where the entry there is not the one the
controller wrote, its tag fails and the key counts as absent (R376, R380). -/
def State.loadKey (s : State) (pn kid : Nat) : Option (List Byte) × State :=
  match tabGet .empty s.sec.keys (16 * pn + kid) with
  | .loaded key =>
    let e := (Config.ktabEntry s.sec.kek pn kid (tabGet 0 s.sec.vers (16 * pn + kid)) key).take 64
    let a := s.rd64 SEC_KTAB_LO + 64 * (16 * pn + kid)
    if s.hbmRead a 64 = e ++ List.replicate (64 - e.length) 0 && !s.isPoison (a / 64) then (some key, s)
    else (none, s.count SEC_KEYFAIL 1)
  | _ => (none, s)

/-- A key slot is LOADED. -/
def State.keyLoaded (s : State) (pn kid : Nat) : Bool :=
  match tabGet .empty s.sec.keys (16 * pn + kid) with
  | .loaded _ => true
  | _ => false

/-- The entries of the buffer ring, of the completion ring. -/
def State.brSize (s : State) (n : Nat) : Nat := 2 ^ (s.scField n 3 0 4 + 6)
def State.cqSize (s : State) (n : Nat) : Nat := 2 ^ (s.scField n 3 4 4 + 6)

/-! ## Tags -/

/-- A tag is taken by a transaction or is a loss tag (R311, R335). -/
def State.tagTaken (s : State) (t : Nat) : Bool :=
  (tabFind s.readout.txns t).isSome || (tabFind s.readout.lossTags t).isSome
/-- The tags not taken. -/
def State.freeTags (s : State) : List Nat := (List.range 8192).filter (fun t => !s.tagTaken t)
/-- Their number. -/
def State.freeCount (s : State) : Nat := 8192 - (s.readout.txns.length + s.readout.lossTags.length)
/-- A partition holds a loss tag. -/
def State.hasLossTag (s : State) (pn : Nat) : Bool := s.readout.lossTags.any (fun e => e.2.pn == pn)
/-- The reserve of R311. -/
def State.tagReserve (s : State) : Nat :=
  sumN ((List.range 4).map (fun n => ((s.subsOf n subReads).filter (fun pn => !s.hasLossTag pn)).length))
/-- The tags a partition's transactions hold (CHS_Pp_TAGUSE.USE). -/
def State.tagUse (s : State) (pn : Nat) : Nat := (s.readout.txns.filter (fun e => e.2.pn == pn)).length

/-- Takes a free tag for a partition: which one the spec leaves open (assumption 2); its generation advances (R311). -/
def State.takeTag (s : State) (pn : Nat) : Option (Nat × Nat × State) :=
  let l := s.freeTags
  let (i, s) := s.draw
  match l[(Config.freeWord i).toNat % max l.length 1]? with
  | none => none
  | some t =>
    let g := (tabGet 0 s.readout.gens t + 1) % 8
    some (t, g, (s.withReadout { s.readout with
      gens := tabPut 0 s.readout.gens t g, holders := tabIns s.readout.holders (8 * t + g) pn }))

/-- The transaction that a completion with a tag, a generation and an epoch belongs to; none where it is stale (R314). -/
def State.completes (s : State) (tag gen epoch : Nat) : Option Txn :=
  (s.txn tag).filter (fun x => x.gen == gen && s.epoch x.pn == epoch)

/-- A stale completion is counted, and in the partition that took the tag at that generation (R314, R397). -/
def State.staleDone (s : State) (tag gen epoch : Nat) : State :=
  let s := s.count CHS_STALE 1
  match tabFind s.readout.holders (8 * tag + gen) with
  | some pn => s.stale pn 3 epoch
  | none => s

/-- The unacknowledged loss records of a partition (R335). -/
def State.lossOwed (s : State) (pn : Nat) : Nat := s.fget (CHS_P_LOSS pn) 16 7 + s.rd (CHS_P_LSUM pn)

/-- COUNT of the loss tag of a partition, 0 where it holds none; CHS_Pp_LRUN shows its 18 bits (R336, R340). -/
def State.lossCount (s : State) (pn : Nat) : Nat := if s.hasLossTag pn then min (s.lossOwed pn) 262143 else 0

/-- A partition with an unacknowledged loss record holds a loss tag, which holds the stream and SN of the oldest one; a
partition with none holds none (R335). -/
def State.lossTag (s : State) (pn stream sn : Nat) : State :=
  let owed := s.lossOwed pn != 0
  if owed && !s.hasLossTag pn then
    match s.takeTag pn with
    | some (t, _, s) =>
      (s.withReadout { s.readout with lossTags := tabIns s.readout.lossTags t { pn := pn, stream := stream, sn := sn } }).fset (CHS_P_LOSS pn) 31 1 1
    | none => s
  else if !owed && s.hasLossTag pn then
    (s.withReadout { s.readout with lossTags := s.readout.lossTags.filter (fun e => e.2.pn != pn) }).fset
      (CHS_P_LOSS pn) 31 1 0
  else s

/-- The four words of a loss record (R332). -/
def lossWords (cause : Nat) (tag : Option (Nat × Nat)) (epoch pn sn scn fin stream phase : Nat) : List Nat :=
  let t := match tag with
    | some (tag, gen) => gen * 2 ^ 53 + tag * 2 ^ 40 + 2 ^ 39
    | none => 0
  [ cause * 2 ^ 56 + t + epoch * 2 ^ 24 + pn * 2 ^ 13, sn * 2 ^ 16 + scn, fin * 16 % 2 ^ 64 + stream, phase * 2 ^ 56 ]

/-- A loss record of a partition (R334): in its loss log, or in LSUM where the log is full. -/
def State.lossRecord (s : State) (pn : Nat) (ws : List Nat) : State :=
  let s := s.count CHS_LOSSES 1
  let occ := s.fget (CHS_P_LOSS pn) 16 7
  let s :=
    if occ = 64 then s.count (CHS_P_LSUM pn) 1
    else
      let i := (s.fget (CHS_P_LOSS pn) 0 6 + occ) % 64
      (s.agentWords (s.work + 0x800000 + 2048 * pn + 32 * i) ws).fset (CHS_P_LOSS pn) 16 7 (occ + 1)
  (s.lossTag pn (bits (ws.getD 2 0) 0 2) (bits (ws.getD 1 0) 16 48)).eventOf pn 0 (bits (ws.getD 0 0) 24 8)

/-! ## Pins -/

/-- The pin of slice k of stream n falls when every creation has taken place and no transaction is due (R130). -/
def State.pinCheck (s : State) (n k : Nat) : State :=
  if s.pins.any (fun p => p.stream == n && p.k == k && p.created && p.due == 0) then s.unpin n k else s

/-- A change of the pin of slice k of stream n. -/
def State.mapPin (s : State) (n k : Nat) (f : PinRec → PinRec) : State :=
  s.withPins (s.pins.map (fun p => if p.stream == n && p.k == k then f p else p))

/-- A transaction has finished its gather or is lost: its slice's pin no longer waits for it. -/
def State.pinDone (s : State) (n k : Nat) : State := (s.mapPin n k (fun p => { p with due := p.due - 1 })).pinCheck n k

/-! ## Engines -/

/-- CMP_ST.STATE (R358): 0 idle, 1 busy, 2 under test, 3 quarantined, 4 retired, 5 disabled. -/
def State.cmpState (s : State) (e : Nat) : Nat := s.fget (CMP_ST e) 16 3

/-- The number of records engine e holds, as CMP_ST.OCC shows it. -/
def State.cmpOcc (s : State) (e : Nat) : Nat := s.fget (CMP_ST e) 8 2

/-- The records of engine e counted anew, and its idle, busy or disabled state with them (R343, R358). -/
def State.cmpCount (s : State) (e : Nat) : State :=
  let n := (s.readout.txns.filter (fun x => x.2.engine == some e && (x.2.phase == .gather || x.2.phase == .sealing))).length
  let s := s.fset (CMP_ST e) 8 2 n
  let s :=
    if s.cmpState e = 0 || s.cmpState e = 1 || s.cmpState e = 5 then
      s.fset (CMP_ST e) 16 3 (if n != 0 then 1 else if s.fbit (CMP_CTL e) 0 then 0 else 5)
    else s
  s.reeval (90 + e)

/-! ## Completion entries -/

/-- The completion ring of a subchannel has a free slot (R322). -/
def State.cqRoom (s : State) (n : Nat) : Bool :=
  let x := s.subch n
  x.cqPi - x.cqCi < s.cqSize n - 1

/-- Writes the next completion entry of a subchannel, and sends its vector (R321). -/
def State.cqPut (s : State) (n cause gen tag bufIdx nbuf k recLen rseq : Nat) : State :=
  let x := s.subch n
  match x.owner with
  | none => s
  | some pn =>
    let phase := if x.cqPi / s.cqSize n % 2 = 0 then 1 else 0
    let ws := [ phase * 2 ^ 63 + cause * 2 ^ 48 + gen * 2 ^ 45 + tag * 2 ^ 32 + bufIdx % 65536 * 2 ^ 16 + nbuf % 65536,
      snOf k * 2 ^ 16, recLen, rseq % 2 ^ 48 ]
    let s := s.emit (.pcie pn false (s.scWord n 2 + 32 * (x.cqPi % s.cqSize n)) (ws.flatMap (leBytes 8)))
    let s := s.setSubch n { x with cqPi := x.cqPi + 1 }
    if s.scField n 0 56 1 = 1 then s.vfVector pn (s.scField n 0 52 4) else s

/-- The owner's VF may write host memory (R323). -/
def State.scMaster (s : State) (n : Nat) : Bool :=
  match (s.subch n).owner with
  | some pn => (s.part pn).busMaster
  | none => false

/-- Transactions lost after their creation whose turn has come take their completion entries while the ring has room. -/
def State.cqLost : Nat → State → Nat → State
  | 0, s, _ => s
  | fuel + 1, s, n =>
    match (s.subch n).turns with
    | .lost cause gen tag k rseq :: rest =>
      if s.cqRoom n && s.scMaster n then
        State.cqLost fuel ((s.setSubch n { s.subch n with turns := rest }).cqPut n cause gen tag 0 0 k 0 rseq) n
      else s
    | _ => s

/-- The code of a phase in a loss record (R332). -/
def Phase.code : Phase → Nat
  | .queued => 1
  | .gather => 2
  | .sealing => 3
  | .stored => 3
  | .deliver => 4
  | .waitack => 5

/-- A transaction leaves its subchannel, its engine and its slice's pin; its tag and pages are free (R312, R315). -/
def State.endTxn (s : State) (t : Nat) (x : Txn) (turns : List Turn → List Turn) : State :=
  let c := s.subch x.scn
  let s := s.setSubch x.scn { c with
    turns := turns c.turns
    window := c.window.filter (fun p => p.tag != t)
    txq := c.txq.filter (fun p => p.tag != t) }
  let s := s.dropTxn t
  let s := match x.engine with | some e => s.cmpCount e | none => s
  if x.pinned then s.pinDone x.stream x.k else s

/-- A transaction is lost (R315, R333): a loss record with its tag; on a PCIe subchannel it keeps its place for its
completion entry, unless that is written. `phase` is the phase reached. -/
def State.loseTxn (s : State) (t cause phase : Nat) : State :=
  match s.txn t with
  | none => s
  | some x =>
    let ws := lossWords cause (some (t, x.gen)) x.epoch x.pn (snOf x.k) x.scn x.fin x.stream phase
    let keep := s.scPcie x.scn
    let s := s.endTxn t x (fun l => if keep then
        l.map (fun y => if y = .txn t then .lost cause x.gen t x.k x.rseq else y)
      else l.filter (fun y => y != .txn t))
    s.lossRecord x.pn ws

/-- Every transaction that a test picks is lost, in the order of creation. -/
def State.loseAll (s : State) (cause : Nat) (p : Txn → Bool) : State :=
  let l := s.readout.txns.filter (fun e => p e.2)
  (l.mergeSort (fun a b => a.2.order ≤ b.2.order)).foldl (fun s e => s.loseTxn e.1 cause e.2.phase.code) s

/-- A transaction is DONE (R312). -/
def State.doneTxn (s : State) (t : Nat) : State :=
  match s.txn t with
  | none => s
  | some x => (s.endTxn t x (fun l => l.filter (fun y => y != .txn t))).count64 CHS_DONE_LO 1

end Sys2Proof.Machine
end

