-- ==== Sys2Proof/Machine/Decision.lean ====
section
/-! DEFINITION. Slices from their seal to their decision word (R54, R124, R128, R132 to R147), subscriptions and decision
slots, and the enable and stop of a stream (R149). -/

namespace Sys2Proof.Machine

/-- The capture tick has come, R141; the cut-off, R56; one tick before the end of the word slot, R55. -/
def State.cutTick (s : State) (n k : Nat) : Nat := s.sliceEnd n k + s.strD n - cutC s.period

/-! ## Marks and the seal -/

/-- The oldest mark on its way to an engine is applied (R124). -/
def State.sliceMark (s : State) (e : Nat) : State :=
  match (s.eng e).inMarks with
  | [] => s
  | m :: rest => (s.setEng e { s.eng e with inMarks := rest }).applyMark e m

/-- Copies admitted for a partition at an engine at a seal and not yet made, its seal flits at SYS included (R404, R405). -/
def State.sdOcc (s : State) (pn e : Nat) : Nat :=
  let x := s.sub pn
  (x.copies.filter (fun c => c.2.2 == e)).length + (x.flits.filter (fun f => !bit f.2.refused e)).length +
    (s.fabric.seals.filter (fun f => x.since ≤ f.serial && f.subs.any (fun q => q.pn == pn && !bit q.refused e))).length

/-- A delivering subscription as the seal finds it (R139, R405). -/
def State.sealSub (s : State) (pn : Nat) : SealSub :=
  let qlim := bits (s.part pn).qsd 16 8
  let refused := if s.subHq pn = 0 || (s.slotOf pn).isSome then 0
    else (List.range 4).foldl (fun m e => if s.sdOcc pn e < qlim then m else setBit m e) 0
  { pn := pn, refused := refused, full := s.subQd pn ≤ (s.sub pn).entries.length }

/-- A slice with its marks is sealed: its chains close, its directory entry is valid, TIM_STRn_SN shows it, the slice 64 later opens,
and absence registers that are spent are free (R53, R54, R124, R126, R128, R497). -/
def State.writeSealed (s : State) (n k : Nat) (r : SliceRec) : State :=
  let s := (List.range 4).foldl (fun s e => s.chainClose n k e) (s.setSlice n k r)
  let s := s.dirWrite n k true
  let s := (s.wr (TIM_STR_SN_LO n) (snOf k % 2 ^ 32)).wr (TIM_STR_SN_HI n) (2 ^ 31 + snOf k / 2 ^ 32)
  let s := s.setStream n { s.stream n with next := k + 1 }
  ((List.range 4).foldl (fun s e => s.openMarks e n (k + 64)) s).clearAbsent

/-- The four engines seal the next slice of a stream (R54, R126, R128, R136). -/
def State.sliceSeal (s : State) (n : Nat) : State :=
  let st := s.stream n
  let k := st.next
  let stopped := match st.stopEnd with | some e => e < s.sliceEnd n k | none => false
  if !s.strEn n || stopped || s.time.tick * 16 < s.closeT n k then s
  else
    let r := s.slice n k
    let serial := s.fabric.sealed
    let r := { r with absent := Nat.lor r.absent (s.absentMask n k), sealed := true, serial := serial }
    let t := s.writeSealed n k r
    let f : SealFlit :=
      { stream := n, k := k, fin := s.sliceEnd n k, hold := r.hold, corr := r.corr, lbloss := r.lbloss,
        absent := r.absent, serial := serial, subs := (t.subsOf n subDelivers).map t.sealSub }
    t.withFabric { t.fabric with seals := t.fabric.seals ++ [f], sealed := serial + 1 }

/-- SYS sends a seal flit around the ring in both directions, the lowest stream first; every cluster stop copies it for the
subscriptions that were enabled before the seal (R24, R134). -/
def State.sealInject (s : State) : State :=
  match (List.range 4).findSome? (fun n => firstIdx (fun f => f.stream == n) 0 s.fabric.seals) with
  | none => s
  | some (i, f) =>
    let s := s.withFabric { s.fabric with seals := s.fabric.seals.eraseIdx i }
    (f.subs.foldl (fun s q =>
      if s.subEn q.pn && (s.sub q.pn).since ≤ f.serial then s.setSub q.pn { s.sub q.pn with flits := (s.sub q.pn).flits ++ [(f, q)] } else s) s).emit
      (.flit 0 0 true true)

/-- The entry of a region in the region-sum format (R132). -/
def sumWord (c : Nat × Int) : Nat := c.1 % 2 ^ 24 * 2 ^ 40 + wrap 40 c.2

/-- Region-sum entries `lo` up to `lo + n` of a slice. -/
def SliceRec.sumWords (r : SliceRec) (lo n : Nat) : List Nat :=
  (List.range n).map (fun i => sumWord (tabGet (0, 0) r.sums (lo + i)))

/-- The merge unit writes the region sums of the oldest sealed slice not yet merged (R132). -/
def State.regionMerge (s : State) (n : Nat) : State :=
  match (s.stream n).recs.find? (fun e => e.2.sealed && !e.2.merged) with
  | none => s
  | some (k, r) =>
    let s := s.setSlice n k { r with merged := true }
    if s.dirPinned n k then s
    else s.agentWords (s.rsumAddr n k) (r.sumWords 0 s.nreg ++ List.replicate (s.rblk / 8 - s.nreg) 0)

/-! ## Delivery -/

/-- OCC and PEAK of a delivery queue (R150). -/
def State.subOcc (s : State) (pn : Nat) : State :=
  let n := (s.sub pn).entries.length
  (s.fset (SLC_SUB_OCC pn) 0 7 n).fset (SLC_SUB_OCC pn) 16 7 (max n (s.fget (SLC_SUB_OCC pn) 16 7))

/-- The entry of a slot is released (R139): copies into it are no longer made. -/
def State.releaseEntry (s : State) (pn slot : Nat) : State :=
  let x := s.sub pn
  (s.setSub pn { x with entries := x.entries.filter (fun q => q.slot != slot),
                        copies := x.copies.filter (fun c => c.2.1 != slot) }).subOcc pn

/-- The four words of a notice (R136). -/
def noticeWords (f : SealFlit) (nref slot : Nat) : List Word :=
  [ BitVec.ofNat 64 (snOf f.k * 2 ^ 16 + f.stream * 2 ^ 14 + b2n f.hold * 2 ^ 13 + b2n f.corr * 2 ^ 12
      + b2n f.lbloss * 2 ^ 11 + nref),
    BitVec.ofNat 64 (f.fin * 16), BitVec.ofNat 64 (slot * 2 ^ 58), BitVec.ofNat 64 f.absent ]

/-- A notice is refused (R139): counted, and the slot's default cause follows from it (R144). -/
def State.refuseNotice (s : State) (pn : Nat) (f : SealFlit) : State :=
  let s := s.count (SLC_SUB_NREF pn) 1
  let s := s.setSub pn { s.sub pn with nref := min ((s.sub pn).nref + 1) 255 }
  match tabFind (s.stream f.stream).recs f.k with
  | some r => s.setSlice f.stream f.k { r with refused := r.refused ++ [pn] }
  | none => s

/-- The logical pairs of a logical cluster (R14). -/
def lpsOf (c : Nat) : List Nat := (List.range 8).map (8 * c + ·)

/-- Wakes the pairs of logical cluster `c` that run the partition, with a wake source (R426). -/
def State.wakePairs (s : State) (c pn src : Nat) : State :=
  (lpsOf c).foldl (fun s l =>
    match s.ppOf l with
    | some pp => if (s.lp l).cur = some pn then s.wake pp src else s
    | none => s) s

/-- The address of header word k of a delivery slot (R135). -/
def State.slotAddr (s : State) (pn slot : Nat) : Nat := s.subRing pn + slot * s.slotSz pn

/-- The cluster stop forms the notice of the oldest seal flit that waits for a subscription, once the slice's region sums
are merged (R135, R136, R139, R391). -/
def State.noticeDelivery (s : State) (pn : Nat) : State :=
  let x := s.sub pn
  match x.flits with
  | [] => s
  | (f, q) :: rest =>
    let r := s.slice f.stream f.k
    if !r.merged then s
    else
      let s := s.setSub pn { x with flits := rest }
      let used := x.entries.map (·.slot)
      match emptyWay used (s.subQd pn) with
      | none => s.refuseNotice pn f
      | some slot =>
        if q.full || s.pstate pn != 2 then s.refuseNotice pn f
        else
          let c := s.pclOf (s.subCl pn)
          let hq := s.subHq pn
          let part (e : Nat) : Nat := if hq = 0 then 2 ^ 63 else if bit q.refused e then 3 * 2 ^ 62 else 0
          let block := r.sumWords (s.subRbase pn) (s.subRcnt pn)
          let pad := 8 * ceilDiv (s.subRcnt pn) 8 - s.subRcnt pn
          let ws := (List.range 4).map part ++ [snOf f.k * 2 ^ 16, 0, 0, 0] ++ block ++ List.replicate pad 0
          let s := s.stopWrite c (s.slotAddr pn slot) (ws.flatMap (leBytes 8))
          let s := (List.range 4).foldl (fun s e =>
            if hq != 0 && bit q.refused e then s.count (SLC_SUB_HTRUNC pn) 1 else s) s
          let copies := if hq = 0 then []
            else ((List.range 4).filter (fun e => !bit q.refused e)).map (fun e => (f.k, slot, e))
          let x := s.sub pn
          let entry : QEntry := { slot := slot, sn := snOf f.k, words := noticeWords f x.nref slot, takenBy := none }
          let s := s.setSub pn { x with entries := x.entries ++ [entry], copies := x.copies ++ copies, nref := 0 }
          (s.subOcc pn).wakePairs (s.subCl pn) pn 1

/-- The words of a stored record that a partition receives (R106, R135); none where no route names it. -/
def hitFor (pn : Nat) (ws : List Nat) : Option (List Nat) :=
  match ws with
  | a :: b :: c :: samples =>
    match (List.range 4).find? (fun i =>
        let r := bits c (16 * i) 16
        routeMode r != 0 && routePn r == pn) with
    | some i =>
      if routeMode (bits c (16 * i) 16) = 2 then some (a :: b :: samples) else some [putBits a 0 8 0, b]
    | none => none
  | _ => none

/-- Whole hits in record order until the next would not fit in `room` bytes: the hits, and true where hits are left
(R138, R307). -/
def takeHits : Nat → List (List Nat) → List (List Nat) × Bool
  | _, [] => ([], false)
  | room, h :: rest =>
    if room < 8 * h.length then ([], true)
    else
      let (l, t) := takeHits (room - 8 * h.length) rest
      (h :: l, t)

/-- The place of a subscription in the order of copying: its slot number, or after every slot (R138). -/
def State.copyRank (s : State) (pn : Nat) : Nat := (s.slotOf pn).getD 1024

/-- Engine e still has hits of stream n to copy for a subscription, of slice k or an older one; a waiting seal flit counts. -/
def State.copyDue (s : State) (pn e n k : Nat) : Bool :=
  let x := s.sub pn
  x.copies.any (fun c => c.2.2 == e && c.1 ≤ k) ||
    (s.subHq pn != 0 && x.flits.any (fun f => f.1.stream == n && f.1.k ≤ k && !bit f.2.refused e))

/-- The partitions without a decision slot that have a hit part to copy at engine e (R402). -/
def State.copyDemand (s : State) (e : Nat) : List Nat :=
  (s.subs.filter (fun x => (s.slotOf x.1).isNone && x.2.copies.any (fun c => c.2.2 == e))).map (·.1)

/-- The copy of slice k may be made: every deciding subscription of a lower slot number has its own (R138), and among the
subscriptions without a slot the next grant of the engine is the partition's (R402). -/
def State.copyTurn (s : State) (pn e k : Nat) : Bool :=
  let n := s.subStr pn
  (s.subsOf n subDelivers).all (fun q =>
    1024 ≤ s.copyRank q || s.copyRank pn ≤ s.copyRank q || !s.copyDue q e n k) &&
    ((s.slotOf pn).isSome || s.mayGrant (.copy e) (s.copyDemand e) pn)

/-- An engine makes its oldest copy for a subscription, in the order of R138 (R135). -/
def State.hitCopy (s : State) (pn e : Nat) : State :=
  let x := s.sub pn
  match firstIdx (fun c => c.2.2 == e) 0 x.copies with
  | none => s
  | some (i, k, slot, _) =>
    if !s.copyTurn pn e k then s else
    let hits := ((tabGet {} (s.slice (s.subStr pn) k).chains e).recs.map (·.map (·.toNat))).filterMap (hitFor pn)
    let hq := s.subHq pn
    let (l, trunc) := takeHits (64 * hq) hits
    let ws := l.flatten
    let c := s.pclOf (s.subCl pn)
    let a := s.slotAddr pn slot
    let s := if (s.slotOf pn).isSome then s else s.charge (.copy e) (s.copyDemand e) pn (max 1 (ceilDiv (8 * ws.length) 64))
    let s := s.setSub pn { x with copies := x.copies.eraseIdx i }
    let s := if ws.isEmpty then s
      else s.stopWrite c (a + 64 + 64 * ceilDiv (s.subRcnt pn) 8 + e * 64 * hq) (ws.flatMap (leBytes 8))
    let s := s.stopWrite c (a + 8 * e) (leBytes 8 (2 ^ 63 + b2n trunc * 2 ^ 62 + 8 * ws.length))
    if trunc then s.count (SLC_SUB_HTRUNC pn) 1 else s

/-! ## Subscriptions and slots -/

/-- A partition state that permits a subscription or slot enable (R391). -/
def State.permits (s : State) (pn : Nat) : Bool := s.pstate pn == 1 || s.pstate pn == 2

/-- QD summed over the enabled delivering subscriptions of a logical cluster (R134). -/
def State.qdSum (s : State) (c : Nat) : Nat :=
  sumN ((List.range 4).map (fun n =>
    sumN ((s.subsOf n (fun v => subDelivers v && bits v 24 3 == c)).map s.subQd)))

/-- The status of the enable of a subscription, 0 where it is accepted (R134). -/
def State.subCheck (s : State) (pn v : Nat) : Nat :=
  let qd := bits v 0 6 + 1
  let ring := s.subRing pn
  if !s.permits pn then stState
  else if 4096 < s.subRbase pn + s.subRcnt pn then stRange
  else if bit v 30 && !s.ownedBy pn ring (qd * s.slotSz pn) then stPerm
  else if bit v 30 && 512 < s.qdSum (bits v 24 3) + qd then stNospace
  else 0

/-- The fields of SLC_SUB_CTL (R150). -/
def subCtlBits (v : Nat) : Nat := bits v 24 8 * 2 ^ 24 + bits v 0 6

/-- No agent holds a notice of the partition any longer. -/
def State.unhold (s : State) (pn : Nat) : State :=
  (s.withTaken (s.taken.map (fun e => if e.2.pn = pn then (e.1, { e.2 with held := false }) else e)))

/-- The subscription of a partition is disabled: its queue empties, its ring is no longer held (R133, R250). -/
def State.subOff (s : State) (pn : Nat) : State :=
  let s := if s.fbit (SLC_SUB_CTL pn) 30 then s.unholdRing (s.pclOf (s.subCl pn)) pn else s
  let s := (s.fset (SLC_SUB_CTL pn) 31 1 0).setSub pn {}
  ((s.fset (SLC_SUB_OCC pn) 0 7 0).unhold pn).recomputeSubs

/-- A write of SLC_SUB_CTL (R133, R134, R250). -/
def State.subCtl (s : State) (pn v : Nat) : State :=
  let last (s : State) (st : Nat) : State := s.wr (SLC_SUB_ST pn) st
  if s.subEn pn then (if bit v 31 then last s stState else last (s.subOff pn) stOk)
  else if !bit v 31 then last (s.wr (SLC_SUB_CTL pn) (subCtlBits v)) stOk
  else
    let st := s.subCheck pn v
    if st ≠ 0 then last s st
    else
      let s' := (s.wr (SLC_SUB_CTL pn) (subCtlBits v)).setSub pn { since := s.fabric.sealed }
      let s' := s'.wr (SLC_SUB_OCC pn) 0
      if bit v 30 then
        let ring : HeldRegion :=
          { line := s.subRing pn / 64, lines := (bits v 0 6 + 1) * s.slotSz pn / 64, loaded := false, ring := some pn }
        match s'.holdRing (s.pclOf (bits v 24 3)) ring with
        | some s' => last s'.recomputeSubs stOk
        | none => last s stNospace
      else last s'.recomputeSubs stOk

/-- The enabled slots (DCF_SLOTS). -/
def State.countSlots (s : State) : State :=
  s.wr DCF_SLOTS (sumN ((List.range 4).map (fun n => (s.slotsOf n).length)))

/-- A write of DCF_SLOT_CTL (R140, R143). -/
def State.slotCtl (s : State) (t v : Nat) : State :=
  let old := s.rd (DCF_SLOT_CTL t)
  let last (s : State) (st : Nat) : State := s.wr (DCF_SLOT_ST t) st
  let new := bits v 28 4 * 2 ^ 28 + bits v 8 19 * 2 ^ 8
  let pn := bits v 16 11
  if bit old 31 && bits old 16 15 != bits new 16 15 then last s stState
  else if bit v 31 && !bit old 31 then
    let sub := s.rd (SLC_SUB_CTL pn)
    if (s.slotOf pn).isSome || !(bit sub 31 && bit sub 30 && bits sub 27 2 == bits v 28 2) then last s stConflict
    else if !s.permits pn then last s stState
    else last (((s.wr (DCF_SLOT_CTL t) new).wr (DCF_SLOT_PSCNT t) 0).countSlots.recomputeSubs) stOk
  else last ((s.wr (DCF_SLOT_CTL t) new).countSlots.recomputeSubs) stOk

/-! ## Decisions -/

/-- The configuration of a slot, as the capture takes it (R141). -/
def State.capture (s : State) (t : Nat) : SlotCap :=
  let c := s.rd (DCF_SLOT_CTL t)
  let d := s.rd (DCF_SLOT_DEF t)
  { slot := t, pn := bits c 16 11, veto := bit c 30, tmask := bits c 8 8, dacc := bit d 8, dtt := bits d 0 8,
    prescale := s.fget (DCF_SLOT_PRESCALE t) 0 24, done := none }

/-- At the capture tick E + F − c of the next sealed slice, every slot bound to its stream is captured (R141). -/
def State.slotCapture (s : State) (n : Nat) : State :=
  let st := s.stream n
  let k := st.cap
  if !s.strEn n || st.next ≤ k || s.time.tick + cutC s.period < s.sliceEnd n k + s.floor n then s
  else
    let s := s.setSlice n k { s.slice n k with caps := some ((s.slotsOf n).map s.capture) }
    s.setStream n { s.stream n with cap := k + 1 }

/-- A cluster stop sends up to four DECIDE messages, oldest first, towards SYS at position 0 (R22, R24). -/
def State.packetInject (s : State) (c : Nat) : State :=
  let x := s.cluster c
  if x.decq.isEmpty then s
  else
    let s := s.setCluster c { x with decq := x.decq.drop 4 }
    (s.withFabric { s.fabric with ring := s.fabric.ring ++ x.decq.take 4 }).sendFlit 1 (stopPos c) 0

/-- A DECIDE message reaches the decision fabric (R142, R397). -/
def State.decideArrival (s : State) : State :=
  match s.fabric.ring with
  | [] => s
  | m :: rest =>
    let s := s.withFabric { s.fabric with ring := rest }
    match s.slotOf m.pn with
    | none => s.count DCF_NOSLOT 1
    | some t =>
      if m.epoch ≠ s.epoch m.pn then (s.count (DCF_SLOT_STALE t) 1).stale m.pn 1 m.epoch
      else
        let n := s.fget (DCF_SLOT_CTL t) 28 2
        let st := s.stream n
        if s.strEn n && snRel m.sn (snOf st.cut) == .earlier then s.count (DCF_SLOT_LATE t) 1
        else
          match ((List.range (st.cap - st.cut)).map (st.cut + ·)).find? (fun k => snOf k == m.sn) with
          | none => s.count (DCF_SLOT_BADSN t) 1
          | some k =>
            let r := s.slice n k
            let caps := r.caps.getD []
            match firstIdx (fun q => q.slot == t && q.pn == m.pn) 0 caps with
            | none => s.count (DCF_SLOT_BADSN t) 1
            | some (i, q) =>
              if q.done.isSome then s.count (DCF_SLOT_DUP t) 1
              else s.setSlice n k { r with caps := some (setIdx caps i { q with done := some m.ty }) }

/-- The cause of a default decision of a slot's partition for a slice with cut-off `ct` (R144, R284, R285, R289,
R445). -/
def State.missCause (s : State) (pn : Nat) (r : SliceRec) (ct : Nat) : Nat :=
  let c := s.subCl pn
  let mine := (lpsOf c).filter (fun l => (s.lp l).cur == some pn || s.namesPn l pn)
  let inTakeover (l : Nat) : Bool :=
    s.lpState l == 1 || s.lpState l == 3 || (s.lp l).resetting || (match (s.lp l).tkCut with | some t => ct ≤ t | none => false)
  if !mine.isEmpty && s.fget (CLU_ST c) 8 2 ≠ 0 then 4
  else if mine.any inTakeover then 3
  else if r.refused.contains pn then 2
  else 1

/-- A default decision of a slot (R144, R408). -/
def State.defaultDecision (s : State) (q : SlotCap) (sn cause : Nat) : State :=
  let s := (s.count (DCF_SLOT_MISS q.slot) 1).count DCF_MISS 1
  let s := (s.wr (DCF_SLOT_LASTMISS_LO q.slot) (sn % 2 ^ 32)).wr (DCF_SLOT_LASTMISS_HI q.slot)
    (2 ^ 31 + cause * 2 ^ 16 + sn / 2 ^ 32)
  (s.countWrap (PRT_MISS q.pn) 1).partEvent q.pn 4

/-- The combination of R143 over the captured slots: the state, a, v and def. -/
def State.combine (s : State) (sn ct : Nat) (r : SliceRec) : List SlotCap → Nat → Nat → Bool → State × Nat × Nat × Bool
  | [], a, v, d => (s, a, v, d)
  | q :: rest, a, v, d =>
    let (s, t, d) := match q.done with
      | some t => (s, t, d)
      | none => (s.defaultDecision q sn (s.missCause q.pn r ct), if q.dacc then q.dtt else 0, true)
    let t := Nat.land t q.tmask
    if q.veto then
      let s := if t = 0 then s else s.countWrap (DCF_SLOT_ACC q.slot) 1
      State.combine s sn ct r rest a (Nat.lor v t) d
    else if t = 0 then State.combine s sn ct r rest a v d
    else
      let ps := s.fget (DCF_SLOT_PSCNT q.slot) 0 24
      let s := s.wr (DCF_SLOT_PSCNT q.slot) ((ps + 1) % max q.prescale 1)
      if ps ≠ 0 then State.combine s sn ct r rest a v d
      else State.combine (s.countWrap (DCF_SLOT_ACC q.slot) 1) sn ct r rest (Nat.lor a t) v d

/-- a and not v and not INHIBIT, eight bits (R143). -/
def maskTypes (a v inh : Nat) : Nat := Nat.land a (255 - Nat.lor v inh % 256)

/-- The accepted slice enters the creation queue, pinned where some partition reads it out; or every creation ends in a loss
record where the queue is full (R130, R310). -/
def State.queueCreate (s : State) (n k : Nat) (readers : List Nat) : State :=
  let fin := s.sliceEnd n k
  if 64 ≤ s.creq.length then
    readers.foldl (fun s pn => s.lossRecord pn (lossWords 2 none (s.epoch pn) pn (snOf k) 0 fin n 0)) s
  else
    let r := s.slice n k
    let pin : PinRec :=
      { stream := n, k := k, dir := s.dirIdx n k, chunks := r.chains.map (fun e => (e.1, e.2.chunks)),
        created := false, due := 0 }
    let q : CreateReq := { stream := n, k := k, fin := fin, left := readers }
    let s := s.setCreq (s.creq ++ [q])
    let s := s.fset CHS_CREQ 16 7 (max s.creq.length (s.fget CHS_CREQ 16 7))
    if readers.isEmpty then s else (s.withPins (s.pins ++ [pin])).dirFlag n k 6 true

/-- The registers in which the cut-off of a slice counts (R143, R144). -/
def cutRegs (caps : List SlotCap) : List Nat :=
  DCF_MISS :: caps.flatMap (fun q => [DCF_SLOT_MISS q.slot, DCF_SLOT_LASTMISS_LO q.slot, DCF_SLOT_LASTMISS_HI q.slot,
    DCF_SLOT_ACC q.slot, DCF_SLOT_PSCNT q.slot, PRT_MISS q.pn])

/-- The readers of slice k of a stream: the subscriptions with READOUT = 1 that were enabled before its seal (R134, R145). -/
def State.readersOf (s : State) (n k : Nat) : List Nat :=
  (s.subsOf n subReads).filter (fun pn => (s.sub pn).since ≤ (s.slice n k).serial)

/-- At the cut-off the fabric forms the decision of the oldest captured slice (R143 to R145); after a
power failure it is a rejection (R337). -/
def State.cutoff (s : State) (n : Nat) : State :=
  let st := s.stream n
  let k := st.cut
  if !s.strEn n || st.cap ≤ k || s.time.tick < s.cutTick n k then s
  else
    let r := s.slice n k
    let caps := r.caps.getD []
    let dying := match s.readout.powerFail with | some t => decide (t < s.cutTick n k) | none => false
    let regs := (cutRegs caps).map (fun a => (a, s.rd a))
    let (s, a, v, d) := s.combine (snOf k) (s.cutTick n k) r caps 0 0 false
    let tt := if dying then 0 else maskTypes a v (s.fget DCF_CTL 0 8)
    let acc := tt != 0
    let counted := (regs.map (fun c => (c.1, c.2, s.rd c.1))).filter (fun c => c.2.1 != c.2.2)
    let s := s.setSlice n k { s.slice n k with decided := some (acc, tt, d), counted := counted }
    let s := s.setStream n { s.stream n with cut := k + 1 }
    let s := ((s.dirFlag n k 8 acc).dirFlag n k 7 d).dirTt n k tt
    if acc then s.queueCreate n k (s.readersOf n k) else s

/-- The decision word of the oldest decided slice leaves DOL-A and DOL-B in its slot (R55, R146, R147). -/
def State.decisionWord (s : State) (n : Nat) : State :=
  let k := (s.stream n).out
  if !s.strEn n || (s.stream n).cut ≤ k || !s.slotBegun n k then s
  else
    let s := s.sendDecision n k
    let st := s.stream n
    s.setStream n { st with out := k + 1, recs := st.recs.filter (fun e => k < e.1 || s.sliceNeeded n e.1) }

/-! ## Streams -/

/-- Streams i and j would have a decision word in the same slot (R59). -/
def State.coincide (s : State) (i j : Nat) : Bool :=
  let g := Nat.gcd (s.strW i) (s.strW j)
  (s.strO i + s.strD i) % g == (s.strO j + s.strD j) % g

/-- The enable of stream n would raise the t_deliver of a subscription with a decision slot (R137, R149). -/
def State.raisesDelivery (s : State) (n : Nat) : Bool :=
  (List.range 4).any (fun m => m != n && s.tdlv m (s.otherStreams m) < s.tdlv m (s.otherStreams m + 1) &&
    (s.subsOf m subDelivers).any (fun pn => (s.slotOf pn).isSome))

/-- The bytes of the directory ring and of the region-sum ring of a stream (R125). -/
def State.rings (s : State) (n : Nat) : List (Nat × Nat) :=
  [(s.strDir n, 64 * s.strDepth n), (s.strRsum n, s.rblk * s.strDepth n)]

/-- Two ranges share a byte. -/
def rangesMeet (a b : Nat × Nat) : Bool := 0 < a.2 && 0 < b.2 && a.1 < b.1 + b.2 && b.1 < a.1 + a.2

/-- The rate of engine e's lane memberships in the given streams, in MB/s (R129). -/
def State.engineRate (s : State) (e : Nat) (ns : List Nat) : Nat :=
  sumN (ns.map (fun n => sumN ((List.range 16).map (fun i =>
    let l := 16 * e + i
    if bit (s.strLanes n) l then (if s.fget (FEL_CTL l) 1 2 = 1 then 3750 else 9375) else 0))))

/-- Σ RBLK / (W × T) exceeds 32 GB/s (R131): both sides times the product of the widths. -/
def State.sumRateHigh (s : State) (ns : List Nat) : Bool :=
  let p := ns.foldl (fun p n => p * s.strW n) 1
  32 * s.period * p < sumN (ns.map (fun n => s.rblk * 1000000 * (p / max (s.strW n) 1)))

/-- Some engine's ring, or the stream's directory, is too small for the retention (R129). -/
def State.tooSmall (s : State) (n : Nat) (ns : List Nat) : Bool :=
  let ret := maxN (ns.map (fun m => s.fget (TIM_STR_RET m) 0 17))
  s.strDepth n < ceilDiv (s.fget (TIM_STR_RET n) 0 17 * 1000000000) (s.strW n * s.period) + 64 ||
    (List.range 4).any (fun e =>
      let r := s.engineRate e ns
      r != 0 && s.fget (SLC_LB_SIZE e) 0 14 * 0x200000 < ret * r + 0x8000000)

/-- The status of the enable of a disabled stream, 0 where it is accepted (R149). -/
def State.enableCheck (s : State) (n : Nat) : Nat :=
  let ns := s.enabledStreams ++ [n]
  if s.tstate ≠ 2 || !s.fbit CTB_CTL 0 || s.strLanes n = 0 then stState
  else if s.enabledStreams.any (s.coincide n) || s.raisesDelivery n then stConflict
  else if s.strD n < s.floor n || (s.rings n).any (fun r => hbmSize < r.1 + r.2) ||
      (s.rings n).any (fun r => s.enabledStreams.any (fun m => (s.rings m).any (rangesMeet r))) ||
      s.sumRateHigh ns || (List.range 4).any (fun e => 150000 < s.engineRate e ns) then stRange
  else if (s.rings n).any (fun r => !s.unassigned r.1 r.2) then stPerm
  else if s.tooSmall n ns then stNospace
  else 0

/-- A write of TIM_STRn_CTL.EN = 1 (R51, R149). -/
def State.streamEnable (s : State) (n : Nat) : State :=
  let last (s : State) (st : Nat) : State := s.wr (TIM_STR_ST n) st
  if s.strEn n then
    match (s.stream n).stopEnd with
    | none => last s stOk
    | some e =>
      if s.time.tick < e then
        last ((s.setStream n { s.stream n with stopEnd := none }).fset (TIM_STR_CTL n) 1 1 0) stOk
      else last s stBusy
  else
    let st := s.enableCheck n
    if st ≠ 0 then last s st
    else
      let t := s.time.tick
      let k := if t < s.strO n then 0 else (t - s.strO n) / max (s.strW n) 1 + 1
      let s := s.setStream n { first := k, next := k, cap := k, cut := k, out := k }
      let s := ((s.fset (TIM_STR_CTL n) 0 1 1).fset (TIM_STR_SN_HI n) 31 1 0).recomputeSubs
      last ((List.range 4).foldl (fun s e => (List.range 64).foldl (fun s i => s.openMarks e n (k + i)) s) s) stOk

/-- A write of EN = 0 (R149): E_last is the first slice end after the write. -/
def State.streamStop (s : State) (n : Nat) : State :=
  let s := s.wr (TIM_STR_ST n) stOk
  if !s.strEn n || (s.stream n).stopEnd.isSome then s
  else
    let t := s.time.tick
    let k := if t < s.strO n then 0 else (t - s.strO n) / max (s.strW n) 1
    (s.setStream n { s.stream n with stopEnd := some (s.sliceEnd n k) }).fset (TIM_STR_CTL n) 1 1 1

/-- At tick E_last + D the stopping stream is disabled, its last decision word sent (R149). -/
def State.stopEnds (s : State) (n : Nat) : State :=
  match (s.stream n).stopEnd with
  | none => s
  | some e =>
    if s.time.tick < e + s.strD n || s.sliceEnd n (s.stream n).out ≤ e then s else s.streamOff n

/-! ## Meanings -/

/-- STREAM_ENABLE. -/
def execStreamEnable (n : Stream) (s : State) : Host.Outcome State Fault Refusal := s.live (·.streamEnable n)
/-- STREAM_STOP. -/
def execStreamStop (n : Stream) (s : State) : Host.Outcome State Fault Refusal := s.live (·.streamStop n)
/-- STOP_END. -/
def execStopEnd (n : Stream) (s : State) : Host.Outcome State Fault Refusal := s.live (·.stopEnds n)
/-- SLICE_MARK. -/
def execSliceMark (e : Fin 4) (s : State) : Host.Outcome State Fault Refusal := s.live (·.sliceMark e)
/-- SLICE_SEAL. -/
def execSliceSeal (n : Stream) (s : State) : Host.Outcome State Fault Refusal := s.live (·.sliceSeal n)
/-- SEAL_FLIT_INJECT. -/
def execSealFlitInject (s : State) : Host.Outcome State Fault Refusal := s.live (·.sealInject)
/-- REGION_SUM_MERGE. -/
def execRegionSumMerge (n : Stream) (s : State) : Host.Outcome State Fault Refusal := s.live (·.regionMerge n)
/-- NOTICE_DELIVERY. -/
def execNoticeDelivery (pn : Pn) (s : State) : Host.Outcome State Fault Refusal := s.live (·.noticeDelivery pn)
/-- HIT_COPY. -/
def execHitCopy (pn : Pn) (e : Fin 4) (s : State) : Host.Outcome State Fault Refusal := s.live (·.hitCopy pn e)
/-- SUB_CTL_WRITE. -/
def execSubCtlWrite (pn : Pn) (v : BitVec 32) (s : State) : Host.Outcome State Fault Refusal := s.live (·.subCtl pn v.toNat)
/-- SLOT_CTL_WRITE. -/
def execSlotCtlWrite (slot : SlotNo) (v : BitVec 32) (s : State) : Host.Outcome State Fault Refusal :=
  s.live (·.slotCtl slot v.toNat)
/-- SLOT_CAPTURE. -/
def execSlotCapture (n : Stream) (s : State) : Host.Outcome State Fault Refusal := s.live (·.slotCapture n)
/-- DECIDE_PACKET_INJECT. -/
def execDecidePacketInject (c : Clus) (s : State) : Host.Outcome State Fault Refusal := s.live (·.packetInject c)
/-- DECIDE_ARRIVAL. -/
def execDecideArrival (s : State) : Host.Outcome State Fault Refusal := s.live (·.decideArrival)
/-- CUTOFF. -/
def execCutoff (n : Stream) (s : State) : Host.Outcome State Fault Refusal := s.live (·.cutoff n)
/-- DECISION_WORD. -/
def execDecisionWord (n : Stream) (s : State) : Host.Outcome State Fault Refusal := s.live (·.decisionWord n)

end Sys2Proof.Machine
end

