-- ==== Sys2Proof/Machine/Programs.lean ====
section
/-! DEFINITION. Channel programs (R307 to R309), the gather of a slice for a partition (R312), the run-length coding (R345
to R348), and the sealed record (R317, R318, R382). -/

namespace Sys2Proof.Machine

/-! ## Channel programs -/

/-- A command of a channel program (R307). -/
inductive ProgCmd where
  | hits (rlo rhi : Nat) (flg : Bool) (count : Nat)
  | rsums (base cnt : Nat)
  | dir
  | copy (count va : Nat)
  | mark (v : Nat)
deriving DecidableEq, Repr

/-- The commands of a program, none where it is malformed: END is its last word (R307, R308). -/
def parseProg : List Nat → Option (List ProgCmd)
  | [] => none
  | w :: rest =>
    match bits w 58 6, rest with
    | 0x3F, [] => if bits w 0 58 = 0 then some [] else none
    | 0x01, rest =>
      if bits w 24 9 = 0 && bits w 46 12 ≤ bits w 34 12 then
        (parseProg rest).map (fun l => .hits (bits w 46 12) (bits w 34 12) (bit w 33) (bits w 0 24) :: l)
      else none
    | 0x02, rest =>
      if bits w 0 33 = 0 && bits w 33 13 != 0 then
        (parseProg rest).map (fun l => .rsums (bits w 46 12) (bits w 33 13) :: l)
      else none
    | 0x03, rest => if bits w 0 58 = 0 then (parseProg rest).map (fun l => .dir :: l) else none
    | 0x04, v :: rest =>
      if bits w 24 34 = 0 then (parseProg rest).map (fun l => .copy (bits w 0 24) v :: l) else none
    | 0x05, v :: rest => if bits w 0 58 = 0 then (parseProg rest).map (fun l => .mark v :: l) else none
    | _, _ => none

/-- The largest body of a section (R308). -/
def ProgCmd.largest : ProgCmd → Nat
  | .hits _ _ _ c => c / 8 * 8
  | .rsums _ n => 8 * n
  | .dir => 64
  | .copy c _ => c
  | .mark _ => 8

/-- The largest payload of a program (R308). -/
def largestPayload (l : List ProgCmd) : Nat := sumN (l.map (fun c => 8 + 8 * ceilDiv c.largest 8))

/-- Region sums beyond 4,096 entries (R308). -/
def ProgCmd.overRange : ProgCmd → Bool
  | .rsums b n => 4096 < b + n
  | _ => false

/-- The status of PG_LOAD for the words of a program, 0 where they pass (R308). -/
def progCheck (ws : List Nat) : Nat :=
  match parseProg ws with
  | none => stArg
  | some l => if l.any ProgCmd.overRange || 16777216 < largestPayload l then stRange else 0

/-- A section of the payload (R309). -/
def section_ (op : Nat) (trunc : Bool) (body : List Byte) : List Byte :=
  leBytes 8 (op * 2 ^ 58 + b2n trunc * 2 ^ 57 + body.length % 2 ^ 24) ++ body ++
    List.replicate (8 * ceilDiv body.length 8 - body.length) 0

/-- The words of a program slot up to END (R301, R307). -/
def State.progWords (s : State) (slot : Nat) : List Nat :=
  let ws := (List.range 64).map (fun i => s.hbmWord (s.work + 0x400000 + 512 * slot + 8 * i))
  let rec cut : List Nat → List Nat
    | [] => []
    | w :: rest =>
      if bits w 58 6 = 0x3F then [w]
      else if bits w 58 6 = 4 || bits w 58 6 = 5 then
        match rest with
        | [] => [w]
        | v :: rest => w :: v :: cut rest
      else w :: cut rest
  cut ws

/-- The commands of the program that a subchannel names. -/
def State.program (s : State) (scn : Nat) : List ProgCmd := (parseProg (s.progWords (s.scField scn 0 36 12))).getD []

/-! ## The gather -/

/-- The range carries poison (R255). -/
def State.rangePoison (s : State) (a n : Nat) : Bool := s.poison.any (fun l => a < 64 * l + 64 && 64 * l < a + n)

/-- The record bytes of a chain of `n` chunks from chunk `i` of engine e, and false where a chunk cannot be read (R126). -/
def State.chainBytes (s : State) (e : Nat) : Nat → Nat → List Byte × Bool
  | 0, _ => ([], true)
  | n + 1, i =>
    let a := s.lbBase e + 2048 * i
    let t := s.hbmWord (a + 2040)
    if s.rangePoison a 2048 then ([], false)
    else
      let (bs, ok) := State.chainBytes s e n (bits t 40 24)
      (s.hbmRead a (min (bits t 0 12) 2040) ++ bs, ok)

/-- The words of a byte string, lowest byte first. -/
def wordsOf : Nat → List Byte → List Nat
  | 0, _ => []
  | fuel + 1, bs => if bs.length < 8 then [] else ofLe (bs.take 8) :: wordsOf fuel (bs.drop 8)

/-- The stored records of a byte stream (R127). -/
def records : Nat → List Nat → List (List Nat)
  | 0, _ => []
  | fuel + 1, ws =>
    match ws with
    | a :: _ =>
      let n := 3 + ceilDiv (bits a 0 8) 4
      if ws.length < n then [] else ws.take n :: records fuel (ws.drop n)
    | [] => []

/-- The stored records of one engine for a directory entry, and false where one cannot be read (R128). -/
def State.engineRecords (s : State) (e entry : Nat) : List (List Nat) × Bool :=
  if bits entry 16 24 = 0 then ([], true)
  else
    let (bs, ok) := s.chainBytes e (bits entry 16 24) (bits entry 40 24)
    (records (bs.length / 24 + 1) (wordsOf (bs.length / 8 + 1) bs), ok)

/-- A HITS command takes a record of the partition (R307). -/
def wantsHit (rlo rhi : Nat) (flg : Bool) (ws : List Nat) : Bool :=
  let region := bits (ws.getD 1 0) 36 12
  rlo ≤ region && region ≤ rhi && (!flg || bit (ws.getD 0 0) 12)

/-- What one section of a gather gives: its bytes and hits, or the loss cause (R309, R312, R333). -/
inductive Gathered where
  | ok (bs : List Byte) (hits : Nat)
  | lost (cause : Nat)
deriving DecidableEq, Repr

/-- The section of a command for slice k of stream n, whose directory entry has words `dir` (R309). -/
def State.gatherCmd (s : State) (pn n k : Nat) (dir : List Nat) : ProgCmd → Gathered
  | .hits rlo rhi flg count =>
    let parts := (List.range 4).map (fun e => s.engineRecords e (dir.getD (4 + e) 0))
    if parts.any (fun p => !p.2) then .lost 5
    else
      let hits := ((parts.flatMap (·.1)).filter (wantsHit rlo rhi flg)).filterMap (hitFor pn)
      let (l, trunc) := takeHits count hits
      .ok (section_ 1 trunc (l.flatten.flatMap (leBytes 8))) l.length
  | .rsums b c =>
    let a := s.rsumAddr n k + 8 * b
    if s.rangePoison a (8 * c) then .lost 5 else .ok (section_ 2 false (s.hbmRead a (8 * c))) 0
  | .dir => .ok (section_ 3 false (((dir.take 4) ++ [0, 0, 0, 0]).flatMap (leBytes 8))) 0
  | .copy c va =>
    match s.walkRange pn 61 10 va c with
    | none => .lost 6
    | some l =>
      if l.any (fun p => s.rangePoison p.1 p.2) then .lost 5
      else .ok (section_ 4 false (l.flatMap (fun p => s.hbmRead p.1 p.2))) 0
  | .mark v => .ok (section_ 5 false (leBytes 8 v)) 0

/-- The payload of a program, section by section. -/
def State.gatherAll (s : State) (pn n k : Nat) (dir : List Nat) : List ProgCmd → Gathered
  | [] => .ok [] 0
  | c :: rest =>
    match s.gatherCmd pn n k dir c with
    | .lost x => .lost x
    | .ok bs h =>
      match State.gatherAll s pn n k dir rest with
      | .lost x => .lost x
      | .ok bs' h' => .ok (bs ++ bs') (h + h')

/-- A COPY whose page is not assigned to the partition (R176). -/
def State.copyPerm (s : State) (pn : Nat) : ProgCmd → Bool
  | .copy c va => c != 0 &&
      (List.range ((va % 0x200000 + c - 1) / 0x200000 + 1)).any (fun i => s.walk pn (va + 0x200000 * i) == .perm)
  | _ => false

/-! ## Run-length coding -/

/-- The count of words equal to `w` at the front of a list, at most `n`. -/
def runLen (w : Nat) : Nat → List Nat → Nat
  | 0, _ => 0
  | _, [] => 0
  | n + 1, x :: xs => if x = w then runLen w n xs + 1 else 0

/-- A literal block as words (R345). -/
def flushLit (lit : List Nat) : List Nat := if lit.isEmpty then [] else (lit.length - 1) :: lit

/-- The canonical coding of R347; `lit` is the literal block so far. -/
def encodeRle : Nat → List Nat → List Nat → List Nat
  | 0, lit, _ => flushLit lit
  | fuel + 1, lit, ws =>
    match ws with
    | [] => flushLit lit
    | w :: rest =>
      let r := runLen w 16384 ws
      if w = 0 && 2 ≤ r then flushLit lit ++ (0x4000 + (r - 1)) :: encodeRle fuel [] (ws.drop r)
      else if w ≠ 0 && 3 ≤ r then flushLit lit ++ (0x8000 + (r - 1)) :: w :: encodeRle fuel [] (ws.drop r)
      else if lit.length = 16383 then flushLit (lit ++ [w]) ++ encodeRle fuel [] rest
      else encodeRle fuel (lit ++ [w]) rest

/-- The 16-bit words of a payload (R345). -/
def halves : Nat → List Byte → List Nat
  | 0, _ => []
  | fuel + 1, bs => if bs.length < 2 then [] else ofLe (bs.take 2) :: halves fuel (bs.drop 2)

/-- The compressed form of a payload (R345, R347). -/
def compress (bs : List Byte) : List Byte :=
  let ws := halves (bs.length / 2 + 1) bs
  let out := (encodeRle (ws.length + 1) [] ws).flatMap (leBytes 2)
  out ++ List.replicate (8 * ceilDiv out.length 8 - out.length) 0

/-- The decoding that every receiver makes (R345, R346): none where the tokens are malformed. -/
def decodeRle : Nat → List Nat → Option (List Nat)
  | 0, ws => if ws.isEmpty then some [] else none
  | fuel + 1, ws =>
    match ws with
    | [] => some []
    | h :: rest =>
      let n := bits h 0 14 + 1
      match bits h 14 2, rest with
      | 0, rest => if rest.length < n then none else (decodeRle fuel (rest.drop n)).map (rest.take n ++ ·)
      | 1, rest => (decodeRle fuel rest).map (List.replicate n 0 ++ ·)
      | 2, v :: rest => (decodeRle fuel rest).map (List.replicate n v ++ ·)
      | _, _ => none

/-- The bound of R348 on the stored payload. -/
def storedBound (ulen : Nat) : Nat := ulen + 8 * ceilDiv (ceilDiv ulen 32768) 4

/-- The record-store pages a transaction reserves (R349). -/
def State.pagesFor (s : State) (scn : Nat) : Nat := ceilDiv (96 + storedBound (largestPayload (s.program scn))) 4096

/-! ## The record -/

/-- The header words of a record (R317). -/
def State.recHeader (s : State) (t : Nat) (x : Txn) (slen : Nat) : List Nat :=
  let d0 := x.dir.getD 0 0
  [ 0xC1A5 * 2 ^ 48 + 2 ^ 40 + s.scField x.scn 0 59 1 * 2 ^ 39 + s.scField x.scn 0 58 1 * 2 ^ 38
      + s.scField x.scn 0 57 1 * 2 ^ 37 + x.stream * 2 ^ 32 + x.epoch * 2 ^ 24 + x.pn * 2 ^ 13,
    snOf x.k * 2 ^ 16 + x.scn,
    x.gen * 2 ^ 61 + t * 2 ^ 48 + x.rseq % 2 ^ 48,
    x.fin * 16 % 2 ^ 64,
    x.nhit * 2 ^ 32 + x.body.length,
    slen,
    x.dir.getD 2 0,
    s.rd SEC_SESSION * 2 ^ 32 + bits (x.dir.getD 3 0) 56 8 * 2 ^ 24 + b2n (bit d0 12) * 2 ^ 23 + b2n (bit d0 11) * 2 ^ 22
      + b2n (bit d0 10) * 2 ^ 21 + b2n (bit d0 9) * 2 ^ 20 + b2n (bit d0 7) * 2 ^ 19 ]

/-- The IV of a record, first byte first (R318, R382). -/
def recIv (session scn rseq : Nat) : List Byte :=
  (leBytes 12 (session * 2 ^ 64 + scn * 2 ^ 48 + rseq % 2 ^ 48)).reverse

/-- The sealed record (R317, R318, R382): header, stored payload, trailer. -/
def State.sealRecord (s : State) (t : Nat) (x : Txn) : List Byte × Nat :=
  let payload := if s.scField x.scn 0 58 1 = 1 then compress x.body else x.body
  let header := (s.recHeader t x payload.length).flatMap (leBytes 8)
  let crc := if x.body.isEmpty then 0 else crc32c x.body
  let body := payload ++ leBytes 8 (crc * 2 ^ 32) ++ leBytes 8 0
  let iv := recIv (s.rd SEC_SESSION) x.scn x.rseq
  if s.scField x.scn 0 59 1 = 1 then
    let (ct, tag) := gcmSeal x.key iv header body
    (header ++ ct ++ tag, payload.length)
  else
    let (_, tag) := gcmSeal x.key iv (header ++ body) []
    (header ++ body ++ tag, payload.length)

end Sys2Proof.Machine
end

