-- ==== Sys2Proof/Machine/Wrr.lean ====
section
/-! DEFINITION. Walath Reliable Readout: packets (R324, R325), the window and its acknowledgements (R326), retransmission and
DOWN (R327), link loss (R328). The IPv4, IPv6 and UDP headers follow their published standards (assumption 11). -/

namespace Sys2Proof.Machine

/-- The one's-complement sum of 16-bit words, highest byte first. -/
def onesSum : Nat → List Byte → Nat
  | acc, a :: b :: rest => onesSum (acc + a.toNat * 256 + b.toNat) rest
  | acc, [a] => acc + a.toNat * 256
  | acc, [] => acc

/-- The Internet checksum. -/
def inetSum (bs : List Byte) : Nat :=
  let a := onesSum 0 bs
  let b := a % 65536 + a / 65536
  let c := b % 65536 + b / 65536
  65535 - c

/-- The IP source address of a sub-port (R341): 4 or 16 bytes. -/
def State.srcIp (s : State) (port : Nat) (v6 : Bool) : List Byte :=
  let p := port / 4
  let q := port % 4
  if v6 then
    beBytes 4 (s.rd (WRR_SP_IP6 p q 3)) ++ beBytes 4 (s.rd (WRR_SP_IP6 p q 2)) ++ beBytes 4 (s.rd (WRR_SP_IP6 p q 1)) ++
      beBytes 4 (s.rd (WRR_SP_IP6 p q 0))
  else beBytes 4 (s.rd (WRR_SP_IP4 p q))

/-- The frame that carries a WRR header and record bytes on a subchannel (R324). -/
def State.frame (s : State) (scn : Nat) (payload : List Byte) : List Byte :=
  let port := s.scPort scn
  let v6 := s.scField scn 7 9 1 = 1
  let w7 := s.scWord scn 7
  let eth := beBytes 6 (s.scField scn 6 0 48) ++
    beBytes 6 (s.rd (WRR_SP_MAC_LO (port / 4) (port % 4)) + s.fget (WRR_SP_MAC_HI (port / 4) (port % 4)) 0 16 * 2 ^ 32) ++
    (if bit w7 31 then beBytes 2 0x8100 ++ beBytes 2 (bits w7 28 3 * 2 ^ 13 + bits w7 16 12) else []) ++
    beBytes 2 (if v6 then 0x86DD else 0x0800)
  let src := s.srcIp port v6
  let dst := if v6 then beBytes 8 (s.scWord scn 4) ++ beBytes 8 (s.scWord scn 5) else beBytes 4 (s.scWord scn 5 % 2 ^ 32)
  let ulen := 8 + payload.length
  let udp (sum : Nat) := beBytes 2 (bits w7 48 16) ++ beBytes 2 (bits w7 32 16) ++ beBytes 2 ulen ++ beBytes 2 sum ++ payload
  let pseudo := if v6 then src ++ dst ++ beBytes 4 ulen ++ beBytes 4 17 else src ++ dst ++ beBytes 2 17 ++ beBytes 2 ulen
  let sum := inetSum (pseudo ++ udp 0)
  let tos := bits w7 10 6 * 4
  let ip4 (sum : Nat) := beBytes 2 (0x4500 + tos) ++ beBytes 2 (20 + ulen) ++ beBytes 2 0 ++ beBytes 2 0x4000 ++
    beBytes 2 (64 * 256 + 17) ++ beBytes 2 sum ++ src ++ dst
  let ip := if v6 then beBytes 4 (6 * 2 ^ 28 + tos * 2 ^ 20 + scn) ++ beBytes 2 ulen ++ beBytes 2 (17 * 256 + 64) ++ src ++ dst
    else ip4 (inetSum (ip4 0))
  eth ++ ip ++ udp (if sum = 0 then 0xFFFF else sum)

/-- The WRR header of a packet of a transaction (R325). -/
def wrrHeader (x : Txn) (inst : Nat) (p : WrrPkt) : List Byte :=
  beBytes 8 (0x11 * 2 ^ 56 + b2n p.first * 2 ^ 55 + b2n p.last * 2 ^ 54 + b2n (p.resends != 0) * 2 ^ 53 + x.epoch * 2 ^ 40
      + x.pn * 2 ^ 29 + x.scn * 2 ^ 14) ++
    beBytes 8 (inst * 2 ^ 32 + p.psn) ++
    beBytes 8 (x.gen * 2 ^ 61 + p.tag * 2 ^ 48 + p.bytes.length * 2 ^ 26 + p.ofs) ++ beBytes 8 (snOf x.k * 2 ^ 16)

/-- A sub-port takes part in traffic: its port is enabled and it has PCS alignment (R328, R341). -/
def State.portLive (s : State) (port : Nat) : Bool :=
  s.fbit (WRR_CTL (port / 4)) 0 && s.fbit (WRR_ST (port / 4)) (16 + port % 4)

/-- A received PAUSE frame holds the sub-port's transmission (R330). -/
def State.paused (s : State) (port : Nat) : Bool :=
  s.fbit (WRR_CTL (port / 4)) 3 && tabGet 0 s.readout.pause port != 0

/-- A sub-port sends. -/
def State.portOpen (s : State) (port : Nat) : Bool := s.portLive port && !s.paused port

/-- The time that a PAUSE frame requested may have passed: whether it has is free (assumption 2). -/
def State.pauseOver (s : State) (port : Nat) : State :=
  if s.paused port then
    let (i, s) := s.draw
    if Config.freeBool i then s.withReadout { s.readout with pause := tabDel s.readout.pause port } else s
  else s

/-- A packet leaves on its sub-port. -/
def State.sendPkt (s : State) (scn : Nat) (p : WrrPkt) : State :=
  match s.txn p.tag with
  | none => s
  | some x =>
    let port := s.scPort scn
    (s.emit (.wrr port scn p.psn (s.frame scn (wrrHeader x (s.subch scn).inst p ++ p.bytes)))).count64
      (WRR_TXPKT_LO (port / 4)) 1

/-- Waiting packets leave while the window has room and the sub-port sends (R326, R328, R330). -/
def State.pump : Nat → State → Nat → State
  | 0, s, _ => s
  | fuel + 1, s, scn =>
    let c := s.subch scn
    match c.txq with
    | [] => s
    | p :: rest =>
      if !s.portOpen (s.scPort scn) || c.window.length ≥ s.scField scn 8 44 10 + 1 || !(c.state == 1 || c.state == 2) then s
      else
        let p := { p with psn := c.psn }
        let s := s.setSubch scn { c with txq := rest, window := c.window ++ [p], psn := (c.psn + 1) % 2 ^ 32 }
        State.pump fuel (s.sendPkt scn p) scn

/-- Packets of a record of `m` bytes each, the last shorter (R324). -/
def cutPackets (tag m len : Nat) : Nat → Nat → List Byte → List WrrPkt
  | 0, _, _ => []
  | fuel + 1, ofs, bs =>
    if bs.isEmpty then []
    else
      { psn := 0, tag := tag, ofs := ofs, bytes := bs.take m, first := ofs == 0, last := len ≤ ofs + m } ::
        cutPackets tag m len fuel (ofs + m) (bs.drop m)

/-- The record bytes a packet of a subchannel carries at most (R324). -/
def State.pktBytes (s : State) (scn : Nat) : Nat :=
  s.fget (WRR_MTU (s.scPort scn / 4)) 0 14 - (if s.scField scn 7 9 1 = 1 then 40 else 20) - 40

/-- Transactions of a subchannel that have left whole wait for their acknowledgement (R312). -/
def State.wrrPhases (s : State) (scn : Nat) : State :=
  (s.readout.txns.filter (fun e => e.2.scn == scn && e.2.phase == .deliver)).foldl (fun s e =>
    if (s.subch scn).txq.any (fun p => p.tag == e.1) then s else s.setTxn e.1 { e.2 with phase := .waitack }) s

/-- Transactions of a subchannel with every packet acknowledged are DONE (R326). -/
def State.wrrDone (s : State) (scn : Nat) : State :=
  ((s.subch scn).turns.filterMap (fun t => match t with | .txn t => some t | _ => none)).foldl (fun s t =>
    match s.txn t with
    | some x =>
      if (x.phase == .deliver || x.phase == .waitack) && !(s.subch scn).window.any (fun p => p.tag == t) &&
          !(s.subch scn).txq.any (fun p => p.tag == t) then s.doneTxn t
      else s
    | none => s) s

/-- What waits is sent, and the phases follow. -/
def State.wrrGo (s : State) (scn : Nat) : State := ((s.pauseOver (s.scPort scn)).pump 4096 scn).wrrPhases scn

/-- Draws a new stream instance and starts PSN again (R325); packets not acknowledged are to be sent anew. -/
def State.newInst (s : State) (scn : Nat) : State :=
  let (i, s) := s.draw
  let c := s.subch scn
  s.setSubch scn { c with
    inst := (Config.freeWord32 i).toNat
    psn := 0
    window := []
    txq := c.window.map (fun p => { p with resends := 0 }) ++ c.txq
    probeInst := none }

/-- A subchannel enters DOWN: every transaction of it that is not DONE is lost (R327, R328). -/
def State.goDown (s : State) (scn cause : Nat) : State :=
  let c := s.subch scn
  let s := (s.setSubch scn { c with state := 3, probeInst := none }).loseAll cause (fun x => x.scn == scn)
  match c.owner with
  | some pn => s.partEvent pn 7
  | none => s

/-- SEC_RNG.FAIL (R375). -/
def State.rngFail (s : State) : Bool := s.fbit SEC_RNG 1

/-- The packet lies before CUMPSN or its SACK bit is set (R326). -/
def acked (oldest cum sack psn : Nat) : Bool :=
  let d := (psn + 2 ^ 32 - oldest) % 2 ^ 32
  let c := (cum + 2 ^ 32 - oldest) % 2 ^ 32
  let i := (psn + 2 ^ 32 - (cum + 1) % 2 ^ 32) % 2 ^ 32
  d < c || (i < 64 && bit sack i)

/-- A packet comes from the DIP and DPORT of a subchannel to its SPORT (R305, R326). -/
def State.fromPeer (s : State) (scn : Nat) (a : WrrAck) : Bool :=
  a.ip6 == (s.scField scn 7 9 1 == 1) && a.sip.toNat == s.scWord scn 4 * 2 ^ 64 + s.scWord scn 5 &&
    a.sport.toNat == s.scField scn 7 32 16 && a.dport.toNat == s.scField scn 7 48 16

/-- A WRR packet is received on a port (R325 to R327, R397). In DOWN the PROBE's PSN 0 is the one PSN of its instance. -/
def State.wrrAck (s : State) (port : Nat) (a : WrrAck) : State :=
  let p := port / 4
  let ty := a.ty.toNat
  let scn := a.scn.val
  let c := s.subch scn
  let stale := s.count (WRR_RXSTALE p) 1
  if !s.portLive port then s
  else if a.ver.toNat ≠ 1 || ty = 0 || 4 ≤ ty then s.count (WRR_RXBAD p) 1
  else if ty ≠ 2 || c.state = 0 || !c.loaded || s.scDest scn != port + 8 || !s.fromPeer scn a then s.count (WRR_RXDROP p) 1
  else if c.owner != some a.pn.val then stale
  else if a.epoch.toNat ≠ s.epoch a.pn then stale.stale a.pn 4 a.epoch.toNat
  else if c.state = 3 then
    if c.probeInst = some a.inst.toNat && a.cum.toNat ≤ 1 && !s.rngFail then
      ((s.setSubch scn { c with state := 2 }).newInst scn).count (WRR_RXACK p) 1
    else stale
  else
    let oldest := match c.window with | [] => c.psn | q :: _ => q.psn
    let cum := a.cum.toNat
    if a.inst.toNat ≠ c.inst || (c.psn + 2 ^ 32 - oldest) % 2 ^ 32 < (cum + 2 ^ 32 - oldest) % 2 ^ 32 then stale
    else
      let w := c.window.filter (fun q => !acked oldest cum a.sack.toNat q.psn)
      (((s.count (WRR_RXACK p) 1).setSubch scn { c with window := w }).wrrDone scn).wrrGo scn

/-- RTO after the last transmission of a packet it is sent again, or after RETRY further ones the subchannel enters DOWN
(R327). -/
def State.rto (s : State) (scn psn : Nat) : State :=
  let s := s.pauseOver (s.scPort scn)
  let c := s.subch scn
  if !s.portOpen (s.scPort scn) || !(c.state == 1 || c.state == 2) then s
  else
    match firstIdx (fun q => q.psn == psn) 0 c.window with
    | none => s
    | some (i, q) =>
      if q.resends < s.scField scn 8 40 4 then
        let q := { q with resends := q.resends + 1 }
        ((s.setSubch scn { c with window := setIdx c.window i q }).sendPkt scn q).count (WRR_RETX (s.scPort scn / 4)) 1
      else s.goDown scn 9

/-- A DOWN subchannel sends a PROBE with a new INST and PSN 0 (R327, R375). -/
def State.probe (s : State) (scn : Nat) : State :=
  let c := s.subch scn
  match c.owner with
  | none => s
  | some pn =>
    let s := s.pauseOver (s.scPort scn)
    if c.state ≠ 3 || !s.portOpen (s.scPort scn) || s.rngFail then s
    else
      let (i, s) := s.draw
      let inst := (Config.freeWord32 i).toNat
      let h := beBytes 8 (0x13 * 2 ^ 56 + s.epoch pn * 2 ^ 40 + pn * 2 ^ 29 + scn * 2 ^ 14) ++ beBytes 8 (inst * 2 ^ 32) ++
        beBytes 8 0 ++ beBytes 8 0
      let port := s.scPort scn
      ((s.setSubch scn { c with probeInst := some inst }).emit (.wrr port scn 0 (s.frame scn h))).count64
        (WRR_TXPKT_LO (port / 4)) 1

/-- The loaded subchannels of a sub-port. -/
def State.portSubs (s : State) (port : Nat) : List Nat :=
  (s.readout.subch.filter (fun e => e.2.loaded && s.scDest e.1 == port + 8)).map (·.1)

/-- What waits on a sub-port is sent. -/
def State.portGo (s : State) (port : Nat) : State := (s.portSubs port).foldl (fun s n => s.wrrGo n) s

/-- A sub-port loses PCS alignment: its subchannels stop sending and their timers stop (R328). -/
def State.pcsLoss (s : State) (port : Nat) : State := s.fset (WRR_ST (port / 4)) (16 + port % 4) 1 0

/-- The link of a sub-port returns: sending resumes (R328). -/
def State.pcsReturn (s : State) (port : Nat) : State :=
  (s.fset (WRR_ST (port / 4)) (16 + port % 4) 1 1).portGo port

/-- The link stays down past HOLD: the subchannel enters DOWN with cause LINKDOWN (R328). -/
def State.holdExpiry (s : State) (scn : Nat) : State :=
  let c := s.subch scn
  if !s.fbit (WRR_ST (s.scPort scn / 4)) (16 + s.scPort scn % 4) && 8 ≤ s.scDest scn && c.loaded && (c.state == 1 || c.state == 2) then s.goDown scn 0xA else s

/-- A received PAUSE frame is counted, and honoured where PAUSE = 1: transmission is held, or resumes where it requests no
time (R330, R341). -/
def State.pauseFrame (s : State) (port quanta : Nat) : State :=
  if !s.portLive port then s
  else
    let s := s.count (WRR_PAUSE (port / 4)) 1
    if s.fbit (WRR_CTL (port / 4)) 3 then
      let s := s.withReadout { s.readout with pause := tabPut 0 s.readout.pause port quanta }
      if quanta = 0 then s.portGo port else s
    else s

/-! ## Meanings -/

/-- WRR_ACK. -/
def execWrrAck (port : Fin 8) (ack : WrrAck) (s : State) : Host.Outcome State Fault Refusal := s.live (·.wrrAck port ack)
/-- RTO_EXPIRY. -/
def execRtoExpiry (scn : Scn) (psn : BitVec 32) (s : State) : Host.Outcome State Fault Refusal :=
  s.live (·.rto scn psn.toNat)
/-- PROBE. -/
def execProbe (scn : Scn) (s : State) : Host.Outcome State Fault Refusal := s.live (·.probe scn)
/-- PCS_ALIGNMENT_LOSS. -/
def execPcsAlignmentLoss (port : Fin 8) (s : State) : Host.Outcome State Fault Refusal := s.live (·.pcsLoss port)
/-- PCS_ALIGNMENT_RETURN. -/
def execPcsAlignmentReturn (port : Fin 8) (s : State) : Host.Outcome State Fault Refusal := s.live (·.pcsReturn port)
/-- LINK_HOLD_EXPIRY. -/
def execLinkHoldExpiry (scn : Scn) (s : State) : Host.Outcome State Fault Refusal := s.live (·.holdExpiry scn)
/-- PAUSE_FRAME_RECEIVED. -/
def execPauseFrameReceived (port : Fin 8) (quanta : BitVec 16) (s : State) : Host.Outcome State Fault Refusal :=
  s.live (·.pauseFrame port quanta.toNat)

end Sys2Proof.Machine
end

