-- ==== Sys2Proof/Machine/Readout.lean ====
section
/-! DEFINITION. The channel subsystem: subchannel and program commands (R302 to R308), transactions (R310 to R316), delivery
over PCI Express (R319 to R323, R353, R354), the loss log (R334, R335), the power-fail journal (R336, R337), and the
compression engines (R343, R349 to R352, R356 to R358). -/

namespace Sys2Proof.Machine

/-! ## Commands -/

/-- The command status register of an issuer: CHS_CMD_ST or PRT_CHS_CMD_ST. -/
def chsStReg : Issuer → Nat
  | .mgr => CHS_CMD_ST
  | .part pn => PRT_CHS_CMD_ST pn

/-- The end of a channel-subsystem command is an event of a partition (R408). -/
def State.chsEnded (s : State) : Issuer → State
  | .mgr => s
  | .part pn => s.partEvent pn 1

/-- A channel-subsystem command (R304): refused with ST_BUSY while one runs, and for a partition while it is QUIESCING
(R394); `f` gives the status of a refusal, or 0 with the state after the action. -/
def State.chsRun (s : State) (who : Issuer) (f : State → Nat × State) : State :=
  let reg := chsStReg who
  if s.fbit reg 8 then s.fset reg 0 8 stBusy
  else
    let (st, s') := match who with
      | .part pn => if s.pstate pn = 3 then (stState, s) else f s
      | .mgr => f s
    if st = 0 then s'.wr reg 0x100 else (s.wr reg st).chsEnded who

/-- A command completes, and its status is reported (R304). -/
def State.chsDone (s : State) (who : Issuer) : State :=
  if s.fbit (chsStReg who) 8 then (s.wr (chsStReg who) stOk).chsEnded who else s

/-- A partition owns the subchannel (R304). -/
def State.ownsSc (s : State) (pn n : Nat) : Bool := (s.subch n).owner == some pn

/-- A partition owns the program slot (R307). -/
def State.ownsSlot (s : State) (pn slot : Nat) : Bool :=
  let base := s.fget (CHS_P_PSLOT pn) 0 12
  base ≤ slot && slot < base + s.fget (CHS_P_PSLOT pn) 16 13

/-- Staging word k of an issuer (R303). -/
def State.stageWord (s : State) (who : Issuer) (k : Nat) : Nat :=
  match who with
  | .mgr => s.rd (CHS_STAGE k)
  | .part pn => (tabGet 0 (s.part pn).stage k).toNat

/-- The 64-bit words in staging. -/
def State.stageWords (s : State) (who : Issuer) (n : Nat) : List Nat :=
  (List.range n).map (fun i => s.stageWord who (2 * i) + s.stageWord who (2 * i + 1) * 2 ^ 32)

/-- A subchannel holds a transaction that is not DONE. -/
def State.scBusy (s : State) (n : Nat) : Bool := s.readout.txns.any (fun e => e.2.scn == n)

/-- SC_ASSIGN (R304). -/
def State.scAssign (s : State) (pn n : Nat) : State :=
  s.chsRun .mgr (fun s =>
    let c := s.subch n
    if c.state ≠ 0 then (stConflict, s)
    else (0, s.setSubch n { owner := some pn, state := 1, rseq := c.rseq, session := c.session }))

/-- SC_RELEASE (R304); RSEQ is never reset (R318). -/
def State.scRelease (s : State) (n : Nat) : State :=
  s.chsRun .mgr (fun s =>
    let c := s.subch n
    if c.state ≠ 1 || s.scBusy n then (stState, s)
    else (0, s.setSubch n { rseq := c.rseq, session := c.session }))

/-- PG_LOAD with the bits of its command word below OP (R303, R304, R308, R383). -/
def State.pgLoad (s : State) (who : Issuer) (w : Nat) : State :=
  let pn := who.acts (Fin.ofNat 2048 (bits w 45 11))
  let slot := bits w 18 12
  let nw := bits w 0 7
  s.chsRun who (fun s =>
    let ws := s.stageWords who nw
    let st := if nw = 0 || 64 < nw then stArg else progCheck ws
    if !s.ownsSlot pn slot then (stPerm, s)
    else if st ≠ 0 then (st, s)
    else if s.readout.subch.any (fun e => e.2.state == 2 && s.scField e.1 0 36 12 == slot) then (stState, s)
    else
      let s := s.agentWords (s.work + 0x400000 + 512 * slot) ws
      let s := s.withReadout { s.readout with progs := slot :: s.readout.progs.filter (fun x => x != slot) }
      let p := s.part pn
      let d := sha384 (leBytes 8 (0x03 * 2 ^ 56 + w) ++ ws.flatMap (leBytes 8))
      (0, s.setPart pn { p with cmr := extend p.cmr d, nprog := p.nprog + 1 }))

/-- A descriptor in the form R305 gives it: no reserved value or bit, no field of the group that does not apply, and the
addresses of R306. -/
def descOk (w : Nat → Nat) : Bool :=
  let d := bits (w 0) 60 4
  let reserved := bits (w 0) 0 36 != 0 || bits (w 3) 8 56 != 0 || bits (w 6) 48 16 != 0 || bits (w 7) 0 9 != 0 ||
    bits (w 8) 54 10 != 0 || bits (w 8) 0 8 != 0 || bits (w 9) 0 48 != 0 ||
    (List.range 5).any (fun i => w (10 + i) != 0) || bits (w 15) 0 32 != 0
  let noWrr := (List.range 6).all (fun i => w (4 + i) == 0)
  let noPcie := w 1 == 0 && w 2 == 0 && w 3 == 0 && bits (w 0) 56 1 == 0
  !reserved &&
    (if d = 1 then noWrr && bits (w 1) 0 6 == 0 && bits (w 2) 0 6 == 0 && bits (w 3) 0 4 ≤ 10 && bits (w 3) 4 4 ≤ 10
    else if 8 ≤ d then
      noPcie && bits (w 7) 48 16 != 0 && bits (w 7) 32 16 != 0 && bits (w 7) 16 12 != 0xFFF && bits (w 8) 40 4 != 0 &&
        10 ≤ bits (w 8) 24 16 && bits (w 8) 8 16 != 0 &&
        (bit (w 7) 9 || (w 4 == 0 && bits (w 5) 32 32 == 0)) && !bit (w 6) 40
    else false)

/-- SC_LOAD (R304, R306). -/
def State.scLoad (s : State) (who : Issuer) (pn n : Nat) : State :=
  s.chsRun who (fun s =>
    let ws := s.stageWords who 16
    let w (i : Nat) := ws.getD i 0
    let slot := bits (w 0) 36 12
    if !s.ownsSc pn n then (stPerm, s)
    else if crc32c ((ws.flatMap (leBytes 8)).take 120) ≠ bits (w 15) 32 32 || !descOk w then (stArg, s)
    else if !s.ownsSlot pn slot || !s.readout.progs.contains slot then (stPerm, s)
    else if bits (w 0) 60 4 = 1 &&
        (2 ^ (bits (w 3) 0 4 + 6) - 1) * 16777216 < largestPayload ((parseProg (s.progWords slot)).getD []) then (stRange, s)
    else if (s.subch n).state ≠ 1 then (stState, s)
    else
      let s := s.agentWords (s.work + 128 * n) ws
      (0, s.setSubch n { s.subch n with loaded := true }))

/-- The sub-ports of a mode (R330). -/
def subPorts (mode : Nat) : Nat := if mode = 0 then 1 else if mode = 1 then 2 else 4

/-- The port of a WRR subchannel is enabled, has the sub-port, and holds the address of the descriptor's IP version (R304,
R341). -/
def State.portReady (s : State) (n : Nat) : Bool :=
  let port := s.scPort n
  let v6 := s.scField n 7 9 1 = 1
  s.fbit (WRR_CTL (port / 4)) 0 && port % 4 < subPorts (s.fget (WRR_CTL (port / 4)) 1 2) &&
    s.fbit (WRR_SP_CFG (port / 4) (port % 4)) (if v6 then 1 else 0)

/-- SC_ENABLE (R304, R325, R375). -/
def State.scEnable (s : State) (who : Issuer) (pn n : Nat) : State :=
  s.chsRun who (fun s =>
    let c := s.subch n
    if !s.ownsSc pn n then (stPerm, s)
    else if c.state ≠ 1 || !c.loaded || !s.keyLoaded pn (s.scField n 0 48 4) then (stState, s)
    else if s.scPcie n then (0, s.setSubch n { c with state := 2 })
    else if !s.portReady n then (stState, s)
    else if s.rngFail then (stDown, s)
    else (0, ((s.setSubch n { c with state := 2 }).newInst n).wrrGo n))

/-- SC_DISABLE (R304). -/
def State.scDisable (s : State) (who : Issuer) (pn n : Nat) : State :=
  s.chsRun who (fun s =>
    let c := s.subch n
    if !s.ownsSc pn n then (stPerm, s)
    else if c.state = 1 then (stState, s)
    else (0, s.setSubch n { c with state := 1, probeInst := none }))

/-- A subchannel as SC_RESET leaves it (R304, R395): its transactions lost with a cause, in their completion entries while the
ring has room (R321, R334); its ring indices cleared. -/
def State.scClear (s : State) (n cause : Nat) : State :=
  let s := (s.loseAll cause (fun x => x.scn == n)).cqLost 8192 n
  let c := s.subch n
  s.setSubch n { c with state := 1, turns := [], window := [], txq := [], probeInst := none, brPi := 0, brCi := 0,
                        cqPi := 0, cqCi := 0, short := none }

/-- SC_RESET (R304, R315). -/
def State.scReset (s : State) (who : Issuer) (pn n : Nat) : State :=
  s.chsRun who (fun s => if !s.ownsSc pn n then (stPerm, s) else (0, s.scClear n 0xC))

/-- REC_ACK (R339). -/
def State.recAck (s : State) : State :=
  s.chsRun .mgr (fun s =>
    if !s.fbit CHS_ST 16 then (stState, s)
    else
      let s := s.withNvs { s.nvs with sealed := none }
      (0, ((s.fset CHS_ST 16 1 0).wr CHS_REC 0).wearControl))

/-! ## Transactions -/

/-- RSEQ of the next record of a subchannel (R318): 0 when SESSION changes. -/
def State.nextRseq (s : State) (n : Nat) : Nat × State :=
  let c := s.subch n
  let session := s.rd SEC_SESSION
  let r := if c.session = session then c.rseq else 0
  (r, s.setSubch n { c with rseq := r + 1, session := session })

/-- The creation of one transaction or loss record (R310, R311). -/
def State.createOne (s : State) (pn : Nat) (q : CreateReq) : State :=
  let n := (s.fget (CHS_P_RDSC pn) 0 15 + snOf q.k % (s.fget (CHS_P_RDSC pn) 16 6 + 1)) % 32768
  let c := s.subch n
  let lost (cause scn : Nat) : State :=
    s.lossRecord pn (lossWords cause none (s.epoch pn) pn (snOf q.k) scn q.fin q.stream 0)
  if s.pstate pn ≠ 2 then lost 4 0
  else if !s.fbit CHS_CTL 0 || c.owner != some pn || c.state ≠ 2 then lost 3 n
  else if s.fget (CHS_P_TAGLIM pn) 0 13 ≤ s.tagUse pn || s.freeCount ≤ s.tagReserve then lost 1 n
  else
    match s.takeTag pn with
    | none => lost 1 n
    | some (t, g, s) =>
      let (r, s) := s.nextRseq n
      let x : Txn :=
        { pn := pn, epoch := s.epoch pn, gen := g, scn := n, stream := q.stream, k := q.k, fin := q.fin, rseq := r,
          order := s.readout.created }
      let s := s.setTxn t x
      let s := s.withReadout { s.readout with created := s.readout.created + 1 }
      let s := s.setSubch n { s.subch n with turns := (s.subch n).turns ++ [.txn t] }
      let s := s.fset (CHS_P_TAGUSE pn) 16 13 (max (s.fget (CHS_P_TAGUSE pn) 16 13) (s.tagUse pn))
      s.mapPin q.stream q.k (fun p => { p with due := p.due + 1 })

/-- The oldest slice in the creation queue yields its next transaction or loss record (R310); after the last one its
creations have taken place (R130). -/
def State.txnCreate (s : State) : State :=
  match s.creq with
  | [] => s
  | q :: rest =>
    let ended (s : State) : State := ((s.setCreq rest).mapPin q.stream q.k (fun p => { p with created := true })).pinCheck q.stream q.k
    match q.left with
    | [] => ended s
    | pn :: left =>
      let s := s.createOne pn q
      if left.isEmpty then ended s else s.setCreq ({ q with left := left } :: rest)

/-- The pages of 4 KiB of the record store; those not reserved (R301, R349). -/
def State.storePages (s : State) : Nat := s.fget CHS_RST_SIZE 0 14 * 512
def State.freePages (s : State) : Nat := s.storePages - sumN (s.readout.txns.map (fun e => e.2.pages.length))

/-- A page of the record store that no transaction holds. -/
def State.pageFree (s : State) (p : Nat) : Bool := p < s.storePages && !s.readout.txns.any (fun e => e.2.pages.contains p)

/-- Pages of the record store reserved: which ones is free (assumption 2). -/
def State.takePages (s : State) (n : Nat) : List Nat × State :=
  let (i, s) := s.draw
  let l := Config.freePages i
  (if l.length = n && decide l.Nodup && l.all s.pageFree then l else ((List.range s.storePages).filter s.pageFree).take n, s)

/-- The address of a page of the record store. -/
def State.pageAddr (s : State) (p : Nat) : Nat := s.rd64 CHS_RST_LO + 4096 * p

/-- A record written to its pages (R301). -/
def State.storeRecord : State → List Nat → List Byte → State
  | s, [], _ => s
  | s, p :: ps, bs => (s.agentWrite (s.pageAddr p) (bs.take 4096)).storeRecord ps (bs.drop 4096)

/-- The record of a transaction, from the record store. -/
def State.recordOf (s : State) (x : Txn) : List Byte := (x.pages.flatMap (fun p => s.hbmRead (s.pageAddr p) 4096)).take x.recLen

/-- The uncompressed bytes assigned to engine e and not yet consumed (R343): a record whose gather runs counts its
program's largest payload. -/
def State.engineLoad (s : State) (e : Nat) : Nat :=
  sumN ((s.readout.txns.filter (fun x => x.2.engine == some e && (x.2.phase == .gather || x.2.phase == .sealing))).map
    (fun x => if x.2.phase = .gather then largestPayload (s.program x.2.scn) else x.2.body.length))

/-- Engine e takes a record (R343). -/
def State.engineFree (s : State) (e : Nat) : Bool :=
  s.fbit (CMP_CTL e) 0 && (s.cmpState e == 0 || s.cmpState e == 1) && s.cmpOcc e < 2

/-- The engine a transaction takes: the least loaded, the lowest on a tie, of every readout unit but one (R316, R343). -/
def State.pickEngine (s : State) (avoid : Option Nat) : Option Nat :=
  let l := (List.range 16).filter (fun e => s.engineFree e && avoid != some (e / 4))
  l.find? (fun e => l.all (fun f => s.engineLoad e ≤ s.engineLoad f))

/-- A QUEUED transaction finds an engine and room in the record store (R343, R349). -/
def State.canGather (s : State) (x : Txn) : Bool :=
  x.phase == .queued && (s.pickEngine x.avoid).isSome && s.pagesFor x.scn ≤ s.freePages

/-- The partitions with a QUEUED transaction that finds both (R402). -/
def State.gatherDemand (s : State) : List Nat := (s.readout.txns.filter (fun e => s.canGather e.2)).map (fun e => e.2.pn)

/-- The grant units of 4 KiB in a number of bytes, at least one (R403). -/
def grants4K (n : Nat) : Nat := max 1 (ceilDiv n 4096)

/-- A QUEUED transaction takes an engine and pages in the order of the readout shares, and its gather begins (R312, R343, R349,
R402); else it waits. -/
def State.gatherStart (s : State) (t : Nat) : State :=
  match s.txn t with
  | none => s
  | some x =>
    match s.pickEngine x.avoid with
    | none => s
    | some e =>
      let d := s.gatherDemand
      if !s.canGather x || !s.mayGrant .engines d x.pn then s
      else
        let s := s.charge .engines d x.pn (grants4K (largestPayload (s.program x.scn)))
        let (l, s) := s.takePages (s.pagesFor x.scn)
        let s := s.withReadout { s.readout with assigned := s.readout.assigned + 1 }
        (s.setTxn t { x with phase := .gather, engine := some e, pages := l, asgn := s.readout.assigned }).cmpCount e

/-- The reads of a gather count among its partition's HBM grants (R402). -/
def State.gatherReads (s : State) (pn n : Nat) : State :=
  let c := bits (s.part pn).qhbm 28 2
  s.charge (.hbm c) (s.hbmDemand c) pn (ceilDiv n 64)

/-- The gather of a transaction ends: its payload is whole and its record enters SEAL with its key, or it is lost (R309,
R312, R316, R380); a stale completion is discarded (R314). -/
def State.gatherComplete (s : State) (t gen epoch : Nat) (unc : Bool) : State :=
  match s.completes t gen epoch with
  | none => s.staleDone t gen epoch
  | some x =>
    if x.phase ≠ .gather then s
    else
      let s := if unc then s.count MEM_HBM_ECC_UNC 1 else s
      let n := x.stream
      let a := s.dirAddr n x.k
      let dir := (List.range 8).map (fun i => s.hbmWord (a + 8 * i))
      let prog := s.program x.scn
      if unc || s.isPoison (a / 64) || !s.dirHolds n x.k then s.loseTxn t 5 2
      else
        match s.gatherAll x.pn n x.k dir prog with
        | .lost c =>
          let s := if prog.any (s.copyPerm x.pn) then s.errLog stPerm srcChs (some x.pn) x.scn else s
          s.loseTxn t c 2
        | .ok bs hits =>
          let s := s.gatherReads x.pn bs.length
          match s.loadKey x.pn (s.scField x.scn 0 48 4) with
          | (none, s) => s.loseTxn t 0xD 3
          | (some key, s) => s.setTxn t { x with phase := .sealing, body := bs, nhit := hits, dir := dir, key := key }

/-- The records that an engine holds, the one in progress first: they were assigned to it in this order (R343). -/
def State.heldRecords (s : State) (e : Nat) : List (Nat × Txn) :=
  (s.readout.txns.filter (fun x => x.2.engine == some e && (x.2.phase == .gather || x.2.phase == .sealing))).mergeSort
    (fun a b => a.2.asgn ≤ b.2.asgn)

/-- The engines finish a record: it is in the record store, unused pages are free, and its slice's pin no longer waits for
it (R312, R349 to R351). A staged record waits; a stale completion is discarded (R314). -/
def State.sealComplete (s : State) (t gen epoch : Nat) : State :=
  match s.completes t gen epoch with
  | none => s.staleDone t gen epoch
  | some x =>
    match x.phase, x.engine with
    | .sealing, some e =>
      if (s.heldRecords e).head?.map (·.1) ≠ some t then s else
      let (rec_, slen) := s.sealRecord t x
      let ulen := x.body.length
      let s := ((s.count64 (CMP_IN_LO e) ulen).count64 (CMP_OUT_LO e) slen).count64 (CMP_RECS_LO e) 1
      let s := s.count64 (SEC_RE_RECS_LO e) 1
      let s := if ulen < slen then s.count (CMP_EXPAND e) 1 else s
      let pages := x.pages.take (ceilDiv rec_.length 4096)
      let s := s.storeRecord pages rec_
      let s := s.setTxn t { x with phase := .stored, recLen := rec_.length, slen := slen, key := [], pinned := false,
                                   pages := pages }
      (s.cmpCount e).pinDone x.stream x.k
    | _, _ => s

/-- An engine fails during the record in progress (R316, R352, R356): the engine is quarantined; the record is run again once,
on another readout unit, or lost. A staged record is QUEUED again. -/
def State.engineFailure (s : State) (e cause : Nat) : State :=
  let mine := s.heldRecords e
  let s := s.count (CMP_FAIL e) 1
  let (tag, gen) := match mine with | (t, x) :: _ => (t, x.gen) | [] => (0, 0)
  let s := s.wr (CMP_LASTERR e) (2 ^ 31 + cause * 2 ^ 24 + gen * 2 ^ 13 + tag)
  let s := s.fset (CMP_ST e) 16 3 3
  let again (x : Txn) : Txn := { x with phase := .queued, engine := none, pages := [], body := [], key := [] }
  match mine with
  | [] => s
  | (t, x) :: staged =>
    let s := staged.foldl (fun s y => s.setTxn y.1 (again y.2)) s
    let s := if x.rerun then s.loseTxn t 8 x.phase.code
      else (s.setTxn t { again x with rerun := true, avoid := some (e / 4) }).count CHS_REDO 1
    s.cmpCount e

/-- The test of a quarantined engine ends (R356, R430, R436). -/
def State.engineTestDone (s : State) (e misr steps : Nat) : State :=
  if s.cmpState e ≠ 3 || s.lcs = 0 || s.lcs = 5 then s
  else
    match testRes (90 + e) misr steps with
    | .pass => ((s.withAges (tabDel s.ages e)).fset (CMP_ST e) 16 3 (if s.fbit (CMP_CTL e) 0 then 0 else 5)).cmpCount e
    | .incomplete => s.count BST_TCNT 1
    | .fail => (s.fset (CMP_ST e) 16 3 4).retireUnit (90 + e) srcCmp stDown

/-! ## Delivery -/

/-- LEN of a buffer descriptor (R319). -/
def bufLen (b : BufDesc) : Nat := bits b.w1.toNat 0 25

/-- A buffer descriptor is malformed (R320). -/
def bufBad (b : BufDesc) : Bool :=
  b.w0.toNat % 64 != 0 || bufLen b == 0 || bufLen b % 64 != 0 || 16777216 < bufLen b || bits b.w1.toNat 25 39 != 0

/-- What the posted buffers do with a record of `n` bytes (R320, R353): the buffers used, a malformed one among those
needed, or too little room. -/
inductive Fit where
  | ok (used : List BufDesc) | bad | short
deriving DecidableEq, Repr

/-- The buffers that a record needs, in ring order. -/
def fitBufs : Nat → List BufDesc → Fit
  | _, [] => .short
  | n, b :: rest =>
    if bufBad b then .bad
    else if n ≤ bufLen b then .ok [b]
    else
      match fitBufs (n - bufLen b) rest with
      | .ok l => .ok (b :: l)
      | x => x

/-- The record bytes laid into buffers, each in full except the last: writes of address and bytes (R321). -/
def layBufs : List BufDesc → List Byte → List (Nat × List Byte)
  | [], _ => []
  | b :: rest, bs => (b.w0.toNat, bs.take (bufLen b)) :: layBufs rest (bs.drop (bufLen b))

/-- The first transaction of a subchannel whose delivery has not begun (R313). -/
def State.nextTurn (s : State) (n : Nat) : Option (Nat × Txn) :=
  (s.subch n).turns.findSome? (fun y => match y with
    | .txn t => match s.txn t with
      | some x => if x.phase = .deliver || x.phase = .waitack then none else some (t, x)
      | none => none
    | .lost _ _ _ _ _ => none)

/-- The link of a subchannel (R402). -/
def State.linkOf (s : State) (n : Nat) : Arbiter := if s.scPcie n then .pcie else .port (s.scPort n)

/-- The next record of a subchannel waits in the record store for its link alone (R313, R321, R353): a PCIe ring has posted
buffers, more than were found too few, and room for the completion entry; a WRR subchannel has sent the record before. -/
def State.linkReady (s : State) (n : Nat) : Bool :=
  let c := s.subch n
  (c.state == 1 || c.state == 2) && (match s.nextTurn n with | some (_, x) => x.phase == .stored | none => false) &&
    (if s.scPcie n then s.scMaster n && s.cqRoom n && c.brPi != c.brCi && c.short != some c.brPi
    else s.portOpen (s.scPort n) && c.txq.isEmpty)

/-- The partitions with a record that waits for a link alone (R402). -/
def State.linkDemand (s : State) (a : Arbiter) : List Nat :=
  (s.readout.subch.filter (fun e => s.linkReady e.1 && s.linkOf e.1 == a)).filterMap (·.2.owner)

/-- A record takes its grants of the link (R402, R403). -/
def State.takeLink (s : State) (n : Nat) (x : Txn) : State :=
  s.charge (s.linkOf n) (s.linkDemand (s.linkOf n)) x.pn (grants4K x.recLen)

/-- A sealed record is delivered into posted buffers, and its completion entry written (R321). -/
def State.pcieDeliver (s : State) (n t : Nat) (x : Txn) (used : List BufDesc) : State :=
  let s := s.takeLink n x
  let c := s.subch n
  let s := (layBufs used (s.recordOf x)).foldl (fun s w => s.emit (.pcie x.pn true w.1 w.2)) s
  let s := s.setTxn t { x with phase := .waitack, cq := some c.cqPi }
  let turns := c.turns.filter (fun y => y != .txn t)
  let s := s.setSubch n { c with brCi := c.brCi + used.length, turns := turns }
  (s.cqPut n 0 x.gen t c.brCi used.length x.k x.recLen x.rseq).cqLost 8192 n

/-- A Z512 record above its limit fails as a whole (R354, R414). -/
def State.z512Fail (s : State) (n t : Nat) (x : Txn) : State :=
  let s := s.partErr x.pn 2 stNospace n
  let s := match x.engine with | some e => s.count (CMP_NOSPACE e) 1 | none => s
  s.loseTxn t 7 3

/-- The device reads the posted descriptors of a buffer ring through the owner's VF (R319). -/
def State.readDescs (s : State) (pn n k : Nat) : State :=
  (List.range k).foldl (fun s i => s.emit (.pcieRead pn (s.scWord n 1 + 16 * (((s.subch n).brCi + i) % s.brSize n)) 16)) s

/-- The record of a PCIe subchannel whose turn has come meets the posted buffers, whose descriptors the host's answers give
(R319 to R321, R353, R354). -/
def State.pcieTurn (s : State) (n t : Nat) (x : Txn) (bufs : List BufDesc) : State :=
  let c := s.subch n
  let avail := c.brPi - c.brCi
  let posted := bufs.take avail
  let s := s.readDescs x.pn n posted.length
  let error : State :=
    let s := s.setSubch n { c with state := 4, lastSt := stArg }
    s.partEvent x.pn 7
  if s.scField n 0 57 1 = 1 then
    match posted with
    | [] => s
    | b :: _ =>
      if bufBad b then error
      else if bufLen b < 96 + x.slen then (s.z512Fail n t x).cqLost 8192 n
      else s.pcieDeliver n t x [b]
  else
    match fitBufs x.recLen posted with
    | .ok used => s.pcieDeliver n t x used
    | .bad => error
    | .short =>
      if posted.length ≠ avail then s
      else if avail = s.brSize n - 1 then (s.loseTxn t 7 x.phase.code).cqLost 8192 n
      else s.setSubch n { c with short := some c.brPi }

/-- The record of a WRR subchannel whose turn has come is cut into packets (R324, R354). -/
def State.wrrTurn (s : State) (n t : Nat) (x : Txn) : State :=
  if s.scField n 0 57 1 = 1 && 1048576 < 96 + x.slen then s.z512Fail n t x
  else
    let s := s.takeLink n x
    let m := s.pktBytes n
    let pkts := cutPackets t m x.recLen (x.recLen + 1) 0 (s.recordOf x)
    let s := s.setTxn t { x with phase := .deliver }
    (s.setSubch n { s.subch n with txq := pkts }).wrrGo n

/-- A sealed record whose turn has come is delivered, in the order of the readout shares (R313, R321, R353, R402). -/
def State.deliver (s : State) (n : Nat) (bufs : List BufDesc) : State :=
  let s := if s.scPcie n then s.cqLost 8192 n else s.wrrGo n
  match s.nextTurn n with
  | some (t, x) =>
    if !s.linkReady n || !s.mayGrant (s.linkOf n) (s.linkDemand (s.linkOf n)) x.pn then s
    else if s.scPcie n then s.pcieTurn n t x bufs
    else s.wrrTurn n t x
  | none => s

/-- The writer of a doorbell may use the subchannel (R322). -/
def State.dbPermits (s : State) (src : Src) (n : Nat) : Bool :=
  match src with
  | .pf => (s.subch n).owner.isSome
  | .vf pn => (s.subch n).owner == some pn.val

/-- A doorbell with KIND 0 (R322). -/
def State.bufDoorbell (s : State) (src : Src) (w : Nat) : State :=
  let n := bits w 32 15
  let c := s.subch n
  let unused := (bits w 0 16 + 65536 - c.brCi % 65536) % 65536
  if !s.dbPermits src n then s.count CHS_DBPERM 1
  else if s.brSize n - 1 < unused then s.count CHS_DBSTALE 1
  else s.setSubch n { c with brPi := c.brCi + unused }

/-- A doorbell with KIND 1 (R322). -/
def State.cqDoorbell (s : State) (src : Src) (w : Nat) : State :=
  let n := bits w 32 15
  let c := s.subch n
  let adv := (bits w 0 16 + 65536 - c.cqCi % 65536) % 65536
  if !s.dbPermits src n then s.count CHS_DBPERM 1
  else if c.cqPi - c.cqCi < adv then s.count CHS_DBSTALE 1
  else
    let s := s.setSubch n { c with cqCi := c.cqCi + adv }
    let done := s.readout.txns.filter (fun e => e.2.scn == n &&
      (match e.2.cq with | some i => i < c.cqCi + adv | none => false))
    (done.foldl (fun s e => s.doneTxn e.1) s).cqLost 8192 n

/-- A PCIe link-down (R323). -/
def State.linkDown (s : State) : State := s.loseAll 0xA (fun x => s.scPcie x.scn)

/-- Loss of Bus Master Enable on a VF (R323). -/
def State.busMasterOff (s : State) (pn : Nat) : State :=
  let s := s.setPart pn { s.part pn with busMaster := false }
  s.loseAll 0xA (fun x => x.pn == pn && s.scPcie x.scn)

/-! ## The loss log and the journal -/

/-- POP (R334, R335). -/
def State.popLoss (s : State) (pn : Nat) : State :=
  let occ := s.fget (CHS_P_LOSS pn) 16 7
  if occ = 0 then s
  else
    let h := (s.fget (CHS_P_LOSS pn) 0 6 + 1) % 64
    let s := (s.fset (CHS_P_LOSS pn) 0 6 h).fset (CHS_P_LOSS pn) 16 7 (occ - 1)
    let a := s.work + 0x800000 + 2048 * pn + 32 * h
    let s := if occ = 1 then s
      else
        let l : LossTag := { pn := pn, stream := bits (s.hbmWord (a + 16)) 0 2, sn := bits (s.hbmWord (a + 8)) 16 48 }
        (s.withReadout { s.readout with
            lossTags := s.readout.lossTags.map (fun e => if e.2.pn = pn then (e.1, l) else e) })
    s.lossTag pn 0 0

/-- CLRSUM (R335). -/
def State.clrSum (s : State) (pn : Nat) : State := (s.wr (CHS_P_LSUM pn) 0).lossTag pn 0 0

/-- The journal entry of a tag (R336). -/
def State.journal (s : State) (t : Nat) : Nat :=
  match s.txn t, tabFind s.readout.lossTags t with
  | some x, _ =>
    (if x.phase = .deliver || x.phase = .waitack then 2 else 1) * 2 ^ 62 + x.pn * 2 ^ 51 + x.stream * 2 ^ 49
      + x.gen * 2 ^ 46 + x.scn * 2 ^ 31 + snOf x.k % 2 ^ 31
  | none, some l =>
    3 * 2 ^ 62 + l.pn * 2 ^ 51 + l.stream * 2 ^ 49
      + min (s.lossOwed l.pn) 262143 * 2 ^ 31 + l.sn % 2 ^ 31
  | none, none => 0

/-- Step 2 of the power-fail sequence: every creation still in the creation queue is added to its partition's loss tag (R337). -/
def State.closeCreations (s : State) : State :=
  let s := s.creq.foldl (fun s q => q.left.foldl (fun s pn =>
    ((s.count CHS_LOSSES 1).count (CHS_P_LSUM pn) 1).lossTag pn q.stream (snOf q.k)) s) s
  s.setCreq []

/-- The journal: one entry for each tag (R336). -/
def State.journalWords (s : State) : List Nat := (List.range 8192).map s.journal

/-- PWRFAILn is seen asserted (R337): later slices are rejected, creations still queued enter their loss tags, the journal
is written to the journal-flush region and sealed, unless the region keeps a report still pending (R339). A sequence that has
started runs on (R470). -/
def State.powerFailSeq (s : State) : State :=
  if s.readout.powerFail.isSome then s
  else
    let s : State :=
      (s.withReadout { s.readout with powerFail := some (s.time.tick + 1) }).closeCreations.storeAbandon
    if s.fbit CHS_ST 16 then s
    else
      let j := s.journalWords
      let n := (j.filter (fun w => w != 0)).length
      (s.withNvs { s.nvs with flush := j.map (BitVec.ofNat 64),
                                    sealed := some (n, s.rd SEC_SESSION, crc32c (j.flatMap (leBytes 8))),
                                    wearJ := s.nvs.wearJ + 1 }).wearControl

/-- The journal-flush region of a power-fail sequence that did not reach its step 5 carries no valid seal (R337). -/
def State.sealLost (s : State) : State :=
  if s.readout.powerFail.isSome && s.hold.isNone then (s.withNvs { s.nvs with sealed := none }) else s

/-! ## Control registers -/

/-- The two areas of R301. -/
def State.chsAreas (s : State) : List (Nat × Nat) :=
  [(s.work, 0x1000000), (s.rd64 CHS_RST_LO, s.fget CHS_RST_SIZE 0 14 * 0x200000)]

/-- A write of CHS_CTL (R339, R340). -/
def State.chsCtl (s : State) (v : Nat) : State :=
  let last (s : State) (st : Nat) : State := s.fset CHS_ST 0 8 st
  if bit v 0 then
    if s.fbit CHS_CTL 0 then last s stOk
    else if s.fbit CHS_ST 16 then last s stState
    else if s.chsAreas.any (fun r => hbmSize < r.1 + r.2) ||
        rangesMeet (s.work, 0x1000000) (s.rd64 CHS_RST_LO, s.fget CHS_RST_SIZE 0 14 * 0x200000) then last s stRange
    else if s.chsAreas.any (fun r => !s.unassigned r.1 r.2) then last s stPerm
    else last ((s.wr CHS_CTL 1).fset CHS_CREQ 16 7 s.creq.length) stOk
  else if (List.range 4).any (fun n => !(s.subsOf n subReads).isEmpty) then last s stState
  else last (s.wr CHS_CTL 0) stOk

/-- A write of WRR_CTL (R330, R341). -/
def State.wrrCtl (s : State) (p v : Nat) : State :=
  let last (s : State) (st : Nat) : State := s.fset (WRR_ST p) 0 8 st
  let mode := bits v 1 2
  let old := s.fget (WRR_CTL p) 1 2
  let names (f : Subch → Bool) (q : Nat → Bool) : Bool :=
    s.readout.subch.any (fun e => f e.2 && 8 ≤ s.scDest e.1 && s.scPort e.1 / 4 == p && q (s.scPort e.1 % 4))
  if mode = 3 then (last s stArg).errLog stArg srcWrr none (WRR_CTL p)
  else if (s.fbit (WRR_CTL p) 0 && mode != old) ||
      (!bit v 0 && names (fun c => c.state == 2) (fun _ => true)) ||
      names (fun c => c.loaded) (fun q => q < subPorts old && subPorts mode ≤ q) then last s stState
  else
    let s := last (s.wr (WRR_CTL p) (bits v 0 4)) stOk
    let s := (List.range 4).foldl (fun s q => s.portGo (4 * p + q)) s
    (s.reeval (122 + 2 * p)).reeval (123 + 2 * p)

/-- An engine is enabled and usable (R343, R358). -/
def State.cmpUsable (s : State) (e : Nat) : Bool := s.cmpState e != 4 && s.cmpState e != 3

/-- A write of CMP_CTL (R357, R358). -/
def State.cmpCtl (s : State) (e v : Nat) : State :=
  let last (s : State) (st : Nat) : State := s.fset (CMP_ST e) 0 8 st
  if s.cmpState e = 2 then last s stTesting
  else if bit v 0 then (if s.cmpState e = 4 then last s stState else last ((s.wr (CMP_CTL e) 1).cmpCount e) stOk)
  else if !(List.range 16).any (fun f => f != e && s.fbit (CMP_CTL f) 0 && s.cmpUsable f) then last s stState
  else last ((s.wr (CMP_CTL e) 0).cmpCount e) stOk

/-! ## Meanings -/

/-- SC_ASSIGN. -/
def execScAssign (pn : Pn) (scn : Scn) (s : State) : Host.Outcome State Fault Refusal := s.live (·.scAssign pn scn)
/-- SC_RELEASE. -/
def execScRelease (scn : Scn) (s : State) : Host.Outcome State Fault Refusal := s.live (·.scRelease scn)
/-- PG_LOAD: the command word below its OP, as the two registers take it (R303). -/
def execPgLoad (who : Issuer) (hi : BitVec 24) (lo : BitVec 32) (s : State) : Host.Outcome State Fault Refusal :=
  s.live (·.fromPart (issuerSide who) 0x60 (·.pgLoad who (hi ++ lo).toNat))
/-- SC_LOAD. -/
def execScLoad (who : Issuer) (sc : ScRef) (s : State) : Host.Outcome State Fault Refusal :=
  s.live (·.fromPart (issuerSide who) 0x60 (·.scLoad who (who.acts sc.pn) sc.scn))
/-- SC_ENABLE. -/
def execScEnable (who : Issuer) (sc : ScRef) (s : State) : Host.Outcome State Fault Refusal :=
  s.live (·.fromPart (issuerSide who) 0x60 (·.scEnable who (who.acts sc.pn) sc.scn))
/-- SC_DISABLE. -/
def execScDisable (who : Issuer) (sc : ScRef) (s : State) : Host.Outcome State Fault Refusal :=
  s.live (·.fromPart (issuerSide who) 0x60 (·.scDisable who (who.acts sc.pn) sc.scn))
/-- SC_RESET. -/
def execScReset (who : Issuer) (sc : ScRef) (s : State) : Host.Outcome State Fault Refusal :=
  s.live (·.fromPart (issuerSide who) 0x60 (·.scReset who (who.acts sc.pn) sc.scn))
/-- REC_ACK. -/
def execRecAck (s : State) : Host.Outcome State Fault Refusal := s.live (·.recAck)
/-- CHS_COMMAND_DONE. -/
def execChsCommandDone (who : Issuer) (s : State) : Host.Outcome State Fault Refusal := s.live (·.chsDone who)
/-- TRANSACTION_CREATE. -/
def execTransactionCreate (s : State) : Host.Outcome State Fault Refusal := s.live (·.txnCreate)
/-- GATHER_START. -/
def execGatherStart (tag : Tag) (s : State) : Host.Outcome State Fault Refusal := s.live (·.gatherStart tag)
/-- GATHER_COMPLETE. -/
def execGatherComplete (c : Completion) (unc : Bool) (s : State) : Host.Outcome State Fault Refusal :=
  s.live (·.gatherComplete c.tag c.gen c.epoch.toNat unc)
/-- SEAL_COMPLETE. -/
def execSealComplete (c : Completion) (s : State) : Host.Outcome State Fault Refusal :=
  s.live (·.sealComplete c.tag c.gen c.epoch.toNat)
/-- ENGINE_FAILURE. -/
def execEngineFailure (e : EngineNo) (cause : BitVec 4) (s : State) : Host.Outcome State Fault Refusal :=
  s.live (·.engineFailure e cause.toNat)
/-- RECORD_DELIVER. -/
def execRecordDeliver (scn : Scn) (bufs : List BufDesc) (s : State) : Host.Outcome State Fault Refusal :=
  s.live (·.deliver scn bufs)
/-- BUFFER_DOORBELL. -/
def execBufferDoorbell (src : Src) (w : BitVec 64) (s : State) : Host.Outcome State Fault Refusal :=
  s.live (·.fromPart (srcSide src) 0x74 (·.bufDoorbell src w.toNat))
/-- CONSUMER_DOORBELL. -/
def execConsumerDoorbell (src : Src) (w : BitVec 64) (s : State) : Host.Outcome State Fault Refusal :=
  s.live (·.fromPart (srcSide src) 0x74 (·.cqDoorbell src w.toNat))
/-- PCIE_LINK_DOWN. -/
def execPcieLinkDown (s : State) : Host.Outcome State Fault Refusal := s.live (·.linkDown)
/-- BUS_MASTER_DISABLE. -/
def execBusMasterDisable (pn : Pn) (s : State) : Host.Outcome State Fault Refusal := s.live (·.busMasterOff pn)
/-- POP. -/
def execPop (src : Src) (pn : Pn) (s : State) : Host.Outcome State Fault Refusal :=
  s.live (·.fromPart (srcSide src) 0x88 (fun s => if src = .pf || src = .vf pn then s.popLoss pn else s))
/-- CLRSUM. -/
def execClrsum (src : Src) (pn : Pn) (s : State) : Host.Outcome State Fault Refusal :=
  s.live (·.fromPart (srcSide src) 0x88 (fun s => if src = .pf || src = .vf pn then s.clrSum pn else s))
/-- CHS_CTL_WRITE. -/
def execChsCtlWrite (v : BitVec 32) (s : State) : Host.Outcome State Fault Refusal := s.live (·.chsCtl v.toNat)
/-- WRR_CTL_WRITE. -/
def execWrrCtlWrite (p : Fin 2) (v : BitVec 32) (s : State) : Host.Outcome State Fault Refusal :=
  s.live (·.wrrCtl p v.toNat)
/-- CMP_CTL_WRITE. -/
def execCmpCtlWrite (e : EngineNo) (v : BitVec 32) (s : State) : Host.Outcome State Fault Refusal :=
  s.live (·.cmpCtl e v.toNat)
/-- ENGINE_TEST_DONE. -/
def execEngineTestDone (e : EngineNo) (misr : BitVec 64) (steps : BitVec 32) (s : State) :
    Host.Outcome State Fault Refusal := s.live (·.engineTestDone e misr.toNat steps.toNat)
/-- POWER_FAIL. -/
def execPowerFail (s : State) : Host.Outcome State Fault Refusal := s.live (·.powerFailSeq)

end Sys2Proof.Machine
end

