-- ==== Sys2Proof/Machine/ClavorCode.lean ====
section
/-! DEFINITION. The words of core instructions (R185 to R188, R215): an encoder and a decoder of the one or two 32-bit words
of an instruction, both written from the formats of R186 and R215 and the operation maps. A word that the decoder refuses
traps ILLEGAL_INSTR. -/

namespace Sys2Proof.Machine

/-! ## Formats (R186, R215) -/

/-- Format R. -/
def wR (op rd ra rb x fn : Nat) : Nat := op * 2 ^ 26 + rd * 2 ^ 21 + ra * 2 ^ 16 + rb * 2 ^ 11 + x * 2 ^ 6 + fn
/-- Formats I and, with KIND and SHAMT in its low half, S. -/
def wI (op rd ra imm : Nat) : Nat := op * 2 ^ 26 + rd * 2 ^ 21 + ra * 2 ^ 16 + imm
/-- Format M. -/
def wM (op r : Nat) (m : MemOp) : Nat :=
  op * 2 ^ 26 + r * 2 ^ 21 + m.ra.val * 2 ^ 16 + m.am.toNat * 2 ^ 14 + m.ms.toNat * 2 ^ 12 + m.ofs.toNat
/-- Format A. -/
def wA (op rd ra rb ad sel fn : Nat) : Nat :=
  op * 2 ^ 26 + rd * 2 ^ 21 + ra * 2 ^ 16 + rb * 2 ^ 11 + ad * 2 ^ 9 + sel * 2 ^ 7 + fn
/-- Format Y. -/
def wY (rd ra csr fn : Nat) : Nat := 0x34 * 2 ^ 26 + rd * 2 ^ 21 + ra * 2 ^ 16 + csr * 2 ^ 4 + fn
/-- The first word of format W. -/
def wW (rd ra wop wx : Nat) : Nat := 0x3F * 2 ^ 26 + rd * 2 ^ 21 + ra * 2 ^ 16 + wop * 2 ^ 8 + wx
/-- The two words of a MACD (R228). -/
def wMacd (wop : Nat) (m : MacdOp) : Nat × Option Nat :=
  (wW m.rd.val m.ra.val wop (m.acc.val * 2 ^ 6 + m.msx.toNat * 2 ^ 4 + m.msy.toNat * 2 ^ 2),
    some (m.xinc.toNat * 2 ^ 16 + m.yinc.toNat))

/-! ## Encoder -/

/-- The words of a core instruction; none for any other command. -/
def encode : Instr → Option (Nat × Option Nat)
  | .add _ rd ra rb => some (wR 0x01 rd.val ra.val rb.val 0 0x00, none)
  | .addf _ rd ra rb => some (wR 0x01 rd.val ra.val rb.val 0 0x01, none)
  | .sub _ rd ra rb => some (wR 0x01 rd.val ra.val rb.val 0 0x02, none)
  | .subf _ rd ra rb => some (wR 0x01 rd.val ra.val rb.val 0 0x03, none)
  | .adds _ rd ra rb => some (wR 0x01 rd.val ra.val rb.val 0 0x04, none)
  | .subs _ rd ra rb => some (wR 0x01 rd.val ra.val rb.val 0 0x05, none)
  | .addt _ rd ra rb => some (wR 0x01 rd.val ra.val rb.val 0 0x06, none)
  | .subt _ rd ra rb => some (wR 0x01 rd.val ra.val rb.val 0 0x07, none)
  | .min _ rd ra rb => some (wR 0x01 rd.val ra.val rb.val 0 0x0A, none)
  | .max _ rd ra rb => some (wR 0x01 rd.val ra.val rb.val 0 0x0B, none)
  | .minu _ rd ra rb => some (wR 0x01 rd.val ra.val rb.val 0 0x0C, none)
  | .maxu _ rd ra rb => some (wR 0x01 rd.val ra.val rb.val 0 0x0D, none)
  | .adc _ rd ra rb => some (wR 0x01 rd.val ra.val rb.val 0 0x0E, none)
  | .sbc _ rd ra rb => some (wR 0x01 rd.val ra.val rb.val 0 0x0F, none)
  | .and _ rd ra rb => some (wR 0x01 rd.val ra.val rb.val 0 0x10, none)
  | .or _ rd ra rb => some (wR 0x01 rd.val ra.val rb.val 0 0x11, none)
  | .xor _ rd ra rb => some (wR 0x01 rd.val ra.val rb.val 0 0x12, none)
  | .andn _ rd ra rb => some (wR 0x01 rd.val ra.val rb.val 0 0x13, none)
  | .orn _ rd ra rb => some (wR 0x01 rd.val ra.val rb.val 0 0x14, none)
  | .xnor _ rd ra rb => some (wR 0x01 rd.val ra.val rb.val 0 0x15, none)
  | .sll _ rd ra rb => some (wR 0x01 rd.val ra.val rb.val 0 0x20, none)
  | .srl _ rd ra rb => some (wR 0x01 rd.val ra.val rb.val 0 0x21, none)
  | .sra _ rd ra rb => some (wR 0x01 rd.val ra.val rb.val 0 0x22, none)
  | .ror _ rd ra rb => some (wR 0x01 rd.val ra.val rb.val 0 0x23, none)
  | .slt _ rd ra rb => some (wR 0x01 rd.val ra.val rb.val 0 0x28, none)
  | .sltu _ rd ra rb => some (wR 0x01 rd.val ra.val rb.val 0 0x29, none)
  | .abs _ rd ra => some (wR 0x01 rd.val ra.val 0 0 0x08, none)
  | .abss _ rd ra => some (wR 0x01 rd.val ra.val 0 0 0x09, none)
  | .clz _ rd ra => some (wR 0x01 rd.val ra.val 0 0 0x16, none)
  | .ctz _ rd ra => some (wR 0x01 rd.val ra.val 0 0 0x17, none)
  | .popc _ rd ra => some (wR 0x01 rd.val ra.val 0 0 0x18, none)
  | .sextb _ rd ra => some (wR 0x01 rd.val ra.val 0 0 0x30, none)
  | .sexth _ rd ra => some (wR 0x01 rd.val ra.val 0 0 0x31, none)
  | .sextw _ rd ra => some (wR 0x01 rd.val ra.val 0 0 0x32, none)
  | .zextb _ rd ra => some (wR 0x01 rd.val ra.val 0 0 0x33, none)
  | .zexth _ rd ra => some (wR 0x01 rd.val ra.val 0 0 0x34, none)
  | .zextw _ rd ra => some (wR 0x01 rd.val ra.val 0 0 0x35, none)
  | .csel _ rd ra rb cond => some (wR 0x01 rd.val ra.val rb.val (cond.toNat * 2) 0x38, none)
  | .addi _ rd ra imm => some (wI 0x02 rd.val ra.val imm.toNat, none)
  | .addif _ rd ra imm => some (wI 0x03 rd.val ra.val imm.toNat, none)
  | .andi _ rd ra imm => some (wI 0x04 rd.val ra.val imm.toNat, none)
  | .ori _ rd ra imm => some (wI 0x05 rd.val ra.val imm.toNat, none)
  | .xori _ rd ra imm => some (wI 0x06 rd.val ra.val imm.toNat, none)
  | .slti _ rd ra imm => some (wI 0x0A rd.val ra.val imm.toNat, none)
  | .sltiu _ rd ra imm => some (wI 0x0B rd.val ra.val imm.toNat, none)
  | .lui _ rd imm => some (wI 0x07 rd.val 0 imm.toNat, none)
  | .cmpi _ ra imm => some (wI 0x09 0 ra.val imm.toNat, none)
  | .shiSll _ rd ra sh => some (wI 0x08 rd.val ra.val (0 * 2 ^ 14 + sh.toNat), none)
  | .shiSrl _ rd ra sh => some (wI 0x08 rd.val ra.val (1 * 2 ^ 14 + sh.toNat), none)
  | .shiSra _ rd ra sh => some (wI 0x08 rd.val ra.val (2 * 2 ^ 14 + sh.toNat), none)
  | .shiRor _ rd ra sh => some (wI 0x08 rd.val ra.val (3 * 2 ^ 14 + sh.toNat), none)
  | .br _ ofs => some (0x10 * 2 ^ 26 + ofs.toNat, none)
  | .bl _ ofs => some (0x11 * 2 ^ 26 + ofs.toNat, none)
  | .bcc _ cond ofs => some (0x12 * 2 ^ 26 + cond.toNat * 2 ^ 22 + ofs.toNat, none)
  | .cbz _ ra ofs => some (0x13 * 2 ^ 26 + ra.val * 2 ^ 21 + ofs.toNat, none)
  | .cbnz _ ra ofs => some (0x14 * 2 ^ 26 + ra.val * 2 ^ 21 + ofs.toNat, none)
  | .jr _ ra => some (wR 0x15 0 ra.val 0 0 0x00, none)
  | .jlr _ ra => some (wR 0x15 0 ra.val 0 0 0x01, none)
  | .loop _ rc uofs => some (0x16 * 2 ^ 26 + rc.val * 2 ^ 21 + uofs.toNat, none)
  | .loopi _ count uofs => some (0x17 * 2 ^ 26 + count.toNat * 2 ^ 12 + uofs.toNat, none)
  | .lb _ r m => some (wM 0x18 r.val m, none)
  | .lbu _ r m => some (wM 0x19 r.val m, none)
  | .lh _ r m => some (wM 0x1A r.val m, none)
  | .lhu _ r m => some (wM 0x1B r.val m, none)
  | .lw _ r m => some (wM 0x1C r.val m, none)
  | .lwu _ r m => some (wM 0x1D r.val m, none)
  | .ld _ r m => some (wM 0x1E r.val m, none)
  | .sb _ r m => some (wM 0x20 r.val m, none)
  | .sh _ r m => some (wM 0x21 r.val m, none)
  | .sw _ r m => some (wM 0x22 r.val m, none)
  | .sd _ r m => some (wM 0x23 r.val m, none)
  | .amoswap _ sz rd ra rb => some (wR 0x28 rd.val ra.val rb.val 0 (b2n sz * 16 + 0), none)
  | .amoadd _ sz rd ra rb => some (wR 0x28 rd.val ra.val rb.val 0 (b2n sz * 16 + 1), none)
  | .amoand _ sz rd ra rb => some (wR 0x28 rd.val ra.val rb.val 0 (b2n sz * 16 + 2), none)
  | .amoor _ sz rd ra rb => some (wR 0x28 rd.val ra.val rb.val 0 (b2n sz * 16 + 3), none)
  | .cas _ sz rd ra rb => some (wR 0x28 rd.val ra.val rb.val 0 (b2n sz * 16 + 4), none)
  | .zline _ ra imm => some (wI 0x29 0 ra.val imm.toNat, none)
  | .clean _ ra imm => some (wI 0x29 1 ra.val imm.toNat, none)
  | .inval _ ra imm => some (wI 0x29 2 ra.val imm.toNat, none)
  | .flush _ ra imm => some (wI 0x29 3 ra.val imm.toNat, none)
  | .iinv _ ra imm => some (wI 0x29 4 ra.val imm.toNat, none)
  | .fenceC _ => some (0x2A * 2 ^ 26 + 0 * 2 ^ 24, none)
  | .fenceL _ => some (0x2A * 2 ^ 26 + 1 * 2 ^ 24, none)
  | .fenceS _ => some (0x2A * 2 ^ 26 + 2 * 2 ^ 24, none)
  | .addiw _ rd ra imm => some (wW rd.val ra.val 0x00 0, some imm.toNat)
  | .inshw _ rd ra imm => some (wW rd.val ra.val 0x01 0, some imm.toNat)
  | .andiw _ rd ra imm => some (wW rd.val ra.val 0x02 0, some imm.toNat)
  | .oriw _ rd ra imm => some (wW rd.val ra.val 0x03 0, some imm.toNat)
  | .xoriw _ rd ra imm => some (wW rd.val ra.val 0x04 0, some imm.toNat)
  | .cmpiw _ ra imm => some (wW 0 ra.val 0x05 0, some imm.toNat)
  | .mul _ rd ra rb => some (wR 0x30 rd.val ra.val rb.val 0 0x00, none)
  | .muls _ rd ra rb => some (wR 0x30 rd.val ra.val rb.val 0 0x01, none)
  | .mult _ rd ra rb => some (wR 0x30 rd.val ra.val rb.val 0 0x02, none)
  | .mulh _ rd ra rb => some (wR 0x30 rd.val ra.val rb.val 0 0x03, none)
  | .mulhu _ rd ra rb => some (wR 0x30 rd.val ra.val rb.val 0 0x04, none)
  | .mulhsu _ rd ra rb => some (wR 0x30 rd.val ra.val rb.val 0 0x05, none)
  | .div _ rd ra rb => some (wR 0x30 rd.val ra.val rb.val 0 0x08, none)
  | .divu _ rd ra rb => some (wR 0x30 rd.val ra.val rb.val 0 0x09, none)
  | .rem _ rd ra rb => some (wR 0x30 rd.val ra.val rb.val 0 0x0A, none)
  | .remu _ rd ra rb => some (wR 0x30 rd.val ra.val rb.val 0 0x0B, none)
  | .aclr _ ad => some (wA 0x31 0 0 0 ad.val 0 0x00, none)
  | .ald _ ad ra => some (wA 0x31 0 ra.val 0 ad.val 0 0x01, none)
  | .aadd _ ad ra => some (wA 0x31 0 ra.val 0 ad.val 0 0x04, none)
  | .aadds _ ad ra => some (wA 0x31 0 ra.val 0 ad.val 0 0x05, none)
  | .asub _ ad ra => some (wA 0x31 0 ra.val 0 ad.val 0 0x06, none)
  | .asubs _ ad ra => some (wA 0x31 0 ra.val 0 ad.val 0 0x07, none)
  | .asra _ ad ra => some (wA 0x31 0 ra.val 0 ad.val 0 0x0A, none)
  | .asll _ ad ra => some (wA 0x31 0 ra.val 0 ad.val 0 0x0B, none)
  | .aslls _ ad ra => some (wA 0x31 0 ra.val 0 ad.val 0 0x0C, none)
  | .amov _ ad asrc => some (wA 0x31 0 0 0 ad.val asrc.val 0x02, none)
  | .aadda _ ad asrc => some (wA 0x31 0 0 0 ad.val asrc.val 0x08, none)
  | .aaddas _ ad asrc => some (wA 0x31 0 0 0 ad.val asrc.val 0x09, none)
  | .aext _ rd ra ad ext => some (wA 0x31 rd.val ra.val ext.toNat ad.val 0 0x10, none)
  | .macH _ ad ra rb => some (wA 0x32 0 ra.val rb.val ad.val 0 0x00, none)
  | .macHs _ ad ra rb => some (wA 0x32 0 ra.val rb.val ad.val 0 0x01, none)
  | .msuH _ ad ra rb => some (wA 0x32 0 ra.val rb.val ad.val 0 0x02, none)
  | .msuHs _ ad ra rb => some (wA 0x32 0 ra.val rb.val ad.val 0 0x03, none)
  | .macH2 _ ad ra rb => some (wA 0x32 0 ra.val rb.val ad.val 0 0x04, none)
  | .macH2s _ ad ra rb => some (wA 0x32 0 ra.val rb.val ad.val 0 0x05, none)
  | .macH4 _ ad ra rb => some (wA 0x32 0 ra.val rb.val ad.val 0 0x06, none)
  | .macH4s _ ad ra rb => some (wA 0x32 0 ra.val rb.val ad.val 0 0x07, none)
  | .macW _ ad ra rb => some (wA 0x32 0 ra.val rb.val ad.val 0 0x08, none)
  | .macWs _ ad ra rb => some (wA 0x32 0 ra.val rb.val ad.val 0 0x09, none)
  | .msuW _ ad ra rb => some (wA 0x32 0 ra.val rb.val ad.val 0 0x0A, none)
  | .msuWs _ ad ra rb => some (wA 0x32 0 ra.val rb.val ad.val 0 0x0B, none)
  | .macD _ ad ra rb => some (wA 0x32 0 ra.val rb.val ad.val 0 0x0C, none)
  | .macDs _ ad ra rb => some (wA 0x32 0 ra.val rb.val ad.val 0 0x0D, none)
  | .macdH4 _ m => some (wMacd 0x10 m)
  | .macdH4s _ m => some (wMacd 0x11 m)
  | .msudH4 _ m => some (wMacd 0x12 m)
  | .msudH4s _ m => some (wMacd 0x13 m)
  | .macdH1 _ m => some (wMacd 0x14 m)
  | .macdH1s _ m => some (wMacd 0x15 m)
  | .macdW2 _ m => some (wMacd 0x16 m)
  | .macdW2s _ m => some (wMacd 0x17 m)
  | .maci _ ad ra imm => some (wW ad.val ra.val 0x18 0, some imm.toNat)
  | .macis _ ad ra imm => some (wW ad.val ra.val 0x19 0, some imm.toNat)
  | .slget _ rd wait => some (wR 0x33 rd.val 0 0 (b2n wait) 0x00, none)
  | .decide _ rd ra rb => some (wR 0x33 rd.val ra.val rb.val 0 0x01, none)
  | .tsnow _ rd => some (wR 0x33 rd.val 0 0 0 0x02, none)
  | .dlrem _ rd => some (wR 0x33 rd.val 0 0 0 0x03, none)
  | .csrr _ rd csr => some (wY rd.val 0 csr.toNat 0x0, none)
  | .csrw _ csr ra => some (wY 0 ra.val csr.toNat 0x1, none)
  | .csrrw _ rd csr ra => some (wY rd.val ra.val csr.toNat 0x2, none)
  | .ecall _ => some (wY 0 0 0 0x8, none)
  | .brk _ => some (wY 0 0 0 0x9, none)
  | .tret _ => some (wY 0 0 0 0xA, none)
  | .wfi _ => some (wY 0 0 0 0xB, none)
  | _ => none

/-! ## Decoder -/

/-- The general register in bits [lo + 4 : lo]. -/
def grAt (w lo : Nat) : Gr := ⟨bits w lo 5, Nat.mod_lt _ (by decide)⟩
/-- The accumulator in bits [lo + 1 : lo]. -/
def accAt (w lo : Nat) : AccNo := ⟨bits w lo 2, Nat.mod_lt _ (by decide)⟩
/-- The instruction where a condition on its word holds. -/
def ifOk (ok : Bool) (i : Instr) : Option Instr := if ok then some i else none

/-- The addressing fields of a format M word. -/
def memAt (w : Nat) : MemOp :=
  { ra := grAt w 16, am := BitVec.ofNat 2 (bits w 14 2), ms := BitVec.ofNat 2 (bits w 12 2), ofs := BitVec.ofNat 12 w }

/-- The base register is updated (R203). -/
def memPost (m : MemOp) : Bool := m.am.toNat == 1 || m.am.toNat == 3

/-- The addressing fields hold no reserved encoding (R186, R188, R203). -/
def memOk (m : MemOp) : Bool :=
  m.ms.toNat != 3 && (memPost m || m.ms.toNat == 0) && (m.am.toNat < 2 || bits m.ofs.toNat 0 7 == 0)

/-- The fields of a load into `r` hold no reserved combination (R203). -/
def memLoadOk (m : MemOp) (r : Gr) : Bool := memOk m && !(memPost m && r == m.ra)

/-- The fields of a MACD hold no reserved encoding (R228). -/
def macdOk (m : MacdOp) : Bool := m.msx.toNat != 3 && m.msy.toNat != 3 && m.rd != m.ra

/-- The EXT field of AEXT holds no reserved encoding (R223). -/
def extOk (ext : BitVec 5) : Bool := bits ext.toNat 3 2 != 3 && bits ext.toNat 1 2 != 3

/-- RD of SLGET is 4, 8, 12, 16, 20 or 24 (R231). -/
def slgetOk (rd : Gr) : Bool := rd.val % 4 == 0 && 4 ≤ rd.val && rd.val ≤ 24

/-- ALU words with RB (R192). -/
def decAlu3 (k : CoreNo) (rd ra rb : Gr) (fn : Nat) : Option Instr :=
  match fn with
  | 0x00 => some (.add k rd ra rb)
  | 0x01 => some (.addf k rd ra rb)
  | 0x02 => some (.sub k rd ra rb)
  | 0x03 => some (.subf k rd ra rb)
  | 0x04 => some (.adds k rd ra rb)
  | 0x05 => some (.subs k rd ra rb)
  | 0x06 => some (.addt k rd ra rb)
  | 0x07 => some (.subt k rd ra rb)
  | 0x0A => some (.min k rd ra rb)
  | 0x0B => some (.max k rd ra rb)
  | 0x0C => some (.minu k rd ra rb)
  | 0x0D => some (.maxu k rd ra rb)
  | 0x0E => some (.adc k rd ra rb)
  | 0x0F => some (.sbc k rd ra rb)
  | 0x10 => some (.and k rd ra rb)
  | 0x11 => some (.or k rd ra rb)
  | 0x12 => some (.xor k rd ra rb)
  | 0x13 => some (.andn k rd ra rb)
  | 0x14 => some (.orn k rd ra rb)
  | 0x15 => some (.xnor k rd ra rb)
  | 0x20 => some (.sll k rd ra rb)
  | 0x21 => some (.srl k rd ra rb)
  | 0x22 => some (.sra k rd ra rb)
  | 0x23 => some (.ror k rd ra rb)
  | 0x28 => some (.slt k rd ra rb)
  | 0x29 => some (.sltu k rd ra rb)
  | _ => none

/-- Unary ALU words (R192). -/
def decAlu2 (k : CoreNo) (rd ra : Gr) (fn : Nat) : Option Instr :=
  match fn with
  | 0x08 => some (.abs k rd ra)
  | 0x09 => some (.abss k rd ra)
  | 0x16 => some (.clz k rd ra)
  | 0x17 => some (.ctz k rd ra)
  | 0x18 => some (.popc k rd ra)
  | 0x30 => some (.sextb k rd ra)
  | 0x31 => some (.sexth k rd ra)
  | 0x32 => some (.sextw k rd ra)
  | 0x33 => some (.zextb k rd ra)
  | 0x34 => some (.zexth k rd ra)
  | 0x35 => some (.zextw k rd ra)
  | _ => none

/-- ALU words (R192). -/
def decAlu (k : CoreNo) (w : Nat) : Option Instr :=
  let rd := grAt w 21
  let ra := grAt w 16
  let rb := grAt w 11
  let fn := bits w 0 6
  if fn = 0x38 then ifOk (!bit w 6) (.csel k rd ra rb (BitVec.ofNat 4 (bits w 7 4)))
  else if bits w 6 5 ≠ 0 then none
  else
    match decAlu3 k rd ra rb fn with
    | some i => some i
    | none => if rb = 0 then decAlu2 k rd ra fn else none

/-- Words with a 16-bit immediate (R196), loads and stores (R203) by their major opcode. -/
def decImm (k : CoreNo) (op w : Nat) : Option Instr :=
  let rd := grAt w 21
  let ra := grAt w 16
  let imm := BitVec.ofNat 16 w
  let m := memAt w
  match op with
  | 0x02 => some (.addi k rd ra imm)
  | 0x03 => some (.addif k rd ra imm)
  | 0x04 => some (.andi k rd ra imm)
  | 0x05 => some (.ori k rd ra imm)
  | 0x06 => some (.xori k rd ra imm)
  | 0x0A => some (.slti k rd ra imm)
  | 0x0B => some (.sltiu k rd ra imm)
  | 0x07 => ifOk (ra == 0) (.lui k rd imm)
  | 0x09 => ifOk (rd == 0) (.cmpi k ra imm)
  | 0x18 => ifOk (memLoadOk m rd) (.lb k rd m)
  | 0x19 => ifOk (memLoadOk m rd) (.lbu k rd m)
  | 0x1A => ifOk (memLoadOk m rd) (.lh k rd m)
  | 0x1B => ifOk (memLoadOk m rd) (.lhu k rd m)
  | 0x1C => ifOk (memLoadOk m rd) (.lw k rd m)
  | 0x1D => ifOk (memLoadOk m rd) (.lwu k rd m)
  | 0x1E => ifOk (memLoadOk m rd) (.ld k rd m)
  | 0x20 => ifOk (memOk m) (.sb k rd m)
  | 0x21 => ifOk (memOk m) (.sh k rd m)
  | 0x22 => ifOk (memOk m) (.sw k rd m)
  | 0x23 => ifOk (memOk m) (.sd k rd m)
  | _ => none

/-- SHI words (R197). -/
def decShi (k : CoreNo) (w : Nat) : Option Instr :=
  let rd := grAt w 21
  let ra := grAt w 16
  let sh := BitVec.ofNat 6 w
  if bits w 6 8 ≠ 0 then none
  else
    match bits w 14 2 with
    | 0 => some (.shiSll k rd ra sh)
    | 1 => some (.shiSrl k rd ra sh)
    | 2 => some (.shiSra k rd ra sh)
    | _ => some (.shiRor k rd ra sh)

/-- Control transfers and loop set-up (R200, R202). -/
def decBranch (k : CoreNo) (op w : Nat) : Option Instr :=
  match op with
  | 0x10 => some (.br k (BitVec.ofNat 26 w))
  | 0x11 => some (.bl k (BitVec.ofNat 26 w))
  | 0x12 => some (.bcc k (BitVec.ofNat 4 (bits w 22 4)) (BitVec.ofNat 22 w))
  | 0x13 => some (.cbz k (grAt w 21) (BitVec.ofNat 21 w))
  | 0x14 => some (.cbnz k (grAt w 21) (BitVec.ofNat 21 w))
  | 0x15 =>
    if bits w 21 5 ≠ 0 || bits w 6 10 ≠ 0 then none
    else if bits w 0 6 = 0 then some (.jr k (grAt w 16))
    else if bits w 0 6 = 1 then some (.jlr k (grAt w 16)) else none
  | 0x16 => ifOk (bits w 16 5 == 0) (.loop k (grAt w 21) (BitVec.ofNat 16 w))
  | 0x17 => some (.loopi k (BitVec.ofNat 14 (bits w 12 14)) (BitVec.ofNat 12 w))
  | _ => none

/-- AMO words (R206). -/
def decAmo (k : CoreNo) (w : Nat) : Option Instr :=
  let rd := grAt w 21
  let ra := grAt w 16
  let rb := grAt w 11
  let sz := bit w 4
  if bits w 6 5 ≠ 0 || bit w 5 then none
  else
    match bits w 0 4 with
    | 0 => some (.amoswap k sz rd ra rb)
    | 1 => some (.amoadd k sz rd ra rb)
    | 2 => some (.amoand k sz rd ra rb)
    | 3 => some (.amoor k sz rd ra rb)
    | 4 => some (.cas k sz rd ra rb)
    | _ => none

/-- CACHE and FENCE words (R210, R212). -/
def decCache (k : CoreNo) (op w : Nat) : Option Instr :=
  let ra := grAt w 16
  let imm := BitVec.ofNat 16 w
  if op = 0x29 then
    match bits w 21 5 with
    | 0 => some (.zline k ra imm)
    | 1 => some (.clean k ra imm)
    | 2 => some (.inval k ra imm)
    | 3 => some (.flush k ra imm)
    | 4 => some (.iinv k ra imm)
    | _ => none
  else if bits w 0 24 ≠ 0 then none
  else
    match bits w 24 2 with
    | 0 => some (.fenceC k)
    | 1 => some (.fenceL k)
    | 2 => some (.fenceS k)
    | _ => none

/-- MULDIV words (R218). -/
def decMul (k : CoreNo) (w : Nat) : Option Instr :=
  let rd := grAt w 21
  let ra := grAt w 16
  let rb := grAt w 11
  if bits w 6 5 ≠ 0 then none
  else
    match bits w 0 6 with
    | 0x00 => some (.mul k rd ra rb)
    | 0x01 => some (.muls k rd ra rb)
    | 0x02 => some (.mult k rd ra rb)
    | 0x03 => some (.mulh k rd ra rb)
    | 0x04 => some (.mulhu k rd ra rb)
    | 0x05 => some (.mulhsu k rd ra rb)
    | 0x08 => some (.div k rd ra rb)
    | 0x09 => some (.divu k rd ra rb)
    | 0x0A => some (.rem k rd ra rb)
    | 0x0B => some (.remu k rd ra rb)
    | _ => none

/-- ACC words that take RA, or AS (R222). -/
def decAcc (k : CoreNo) (w : Nat) : Option Instr :=
  let ra := grAt w 16
  let ad := accAt w 9
  let asrc := accAt w 7
  let fn := bits w 0 6
  if bit w 6 then none
  else if fn = 0x10 then ifOk (bits w 7 2 == 0 && extOk (BitVec.ofNat 5 (bits w 11 5)))
    (.aext k (grAt w 21) ra ad (BitVec.ofNat 5 (bits w 11 5)))
  else if bits w 21 5 ≠ 0 || bits w 11 5 ≠ 0 then none
  else
    match fn with
    | 0x00 => ifOk (ra == 0 && asrc == 0) (.aclr k ad)
    | 0x01 => ifOk (asrc == 0) (.ald k ad ra)
    | 0x04 => ifOk (asrc == 0) (.aadd k ad ra)
    | 0x05 => ifOk (asrc == 0) (.aadds k ad ra)
    | 0x06 => ifOk (asrc == 0) (.asub k ad ra)
    | 0x07 => ifOk (asrc == 0) (.asubs k ad ra)
    | 0x0A => ifOk (asrc == 0) (.asra k ad ra)
    | 0x0B => ifOk (asrc == 0) (.asll k ad ra)
    | 0x0C => ifOk (asrc == 0) (.aslls k ad ra)
    | 0x02 => ifOk (ra == 0) (.amov k ad asrc)
    | 0x08 => ifOk (ra == 0) (.aadda k ad asrc)
    | 0x09 => ifOk (ra == 0) (.aaddas k ad asrc)
    | _ => none

/-- MAC words (R225). -/
def decMac (k : CoreNo) (w : Nat) : Option Instr :=
  let ra := grAt w 16
  let rb := grAt w 11
  let ad := accAt w 9
  if bits w 21 5 ≠ 0 || bits w 6 3 ≠ 0 then none
  else
    match bits w 0 6 with
    | 0x00 => some (.macH k ad ra rb)
    | 0x01 => some (.macHs k ad ra rb)
    | 0x02 => some (.msuH k ad ra rb)
    | 0x03 => some (.msuHs k ad ra rb)
    | 0x04 => some (.macH2 k ad ra rb)
    | 0x05 => some (.macH2s k ad ra rb)
    | 0x06 => some (.macH4 k ad ra rb)
    | 0x07 => some (.macH4s k ad ra rb)
    | 0x08 => some (.macW k ad ra rb)
    | 0x09 => some (.macWs k ad ra rb)
    | 0x0A => some (.msuW k ad ra rb)
    | 0x0B => some (.msuWs k ad ra rb)
    | 0x0C => some (.macD k ad ra rb)
    | 0x0D => some (.macDs k ad ra rb)
    | _ => none

/-- TRIG words (R231). -/
def decTrig (k : CoreNo) (w : Nat) : Option Instr :=
  let rd := grAt w 21
  let ra := grAt w 16
  let rb := grAt w 11
  match bits w 0 6 with
  | 0x00 => ifOk (slgetOk rd && ra == 0 && rb == 0 && bits w 7 4 == 0) (.slget k rd (bit w 6))
  | 0x01 => ifOk (bits w 6 5 == 0) (.decide k rd ra rb)
  | 0x02 => ifOk (bits w 6 15 == 0) (.tsnow k rd)
  | 0x03 => ifOk (bits w 6 15 == 0) (.dlrem k rd)
  | _ => none

/-- SYS words (R237). -/
def decSys (k : CoreNo) (w : Nat) : Option Instr :=
  let rd := grAt w 21
  let ra := grAt w 16
  let csr := BitVec.ofNat 12 (bits w 4 12)
  match bits w 0 4 with
  | 0x0 => ifOk (ra == 0) (.csrr k rd csr)
  | 0x1 => ifOk (rd == 0) (.csrw k csr ra)
  | 0x2 => some (.csrrw k rd csr ra)
  | 0x8 => ifOk (bits w 4 22 == 0) (.ecall k)
  | 0x9 => ifOk (bits w 4 22 == 0) (.brk k)
  | 0xA => ifOk (bits w 4 22 == 0) (.tret k)
  | 0xB => ifOk (bits w 4 22 == 0) (.wfi k)
  | _ => none

/-- The fields of a MACD (R228). -/
def macdAt (w v : Nat) : MacdOp :=
  { rd := grAt w 21, ra := grAt w 16, acc := accAt w 6, msx := BitVec.ofNat 2 (bits w 4 2),
    msy := BitVec.ofNat 2 (bits w 2 2), xinc := BitVec.ofNat 16 (bits v 16 16), yinc := BitVec.ofNat 16 v }

/-- Wide words (R198, R227). -/
def decWide (k : CoreNo) (w v : Nat) : Option Instr :=
  let rd := grAt w 21
  let ra := grAt w 16
  let imm := BitVec.ofNat 32 v
  let m := macdAt w v
  let mok := macdOk m && bits w 0 2 == 0
  let x0 := bits w 0 8 == 0
  match bits w 8 8 with
  | 0x00 => ifOk x0 (.addiw k rd ra imm)
  | 0x01 => ifOk x0 (.inshw k rd ra imm)
  | 0x02 => ifOk x0 (.andiw k rd ra imm)
  | 0x03 => ifOk x0 (.oriw k rd ra imm)
  | 0x04 => ifOk x0 (.xoriw k rd ra imm)
  | 0x05 => ifOk (x0 && rd == 0) (.cmpiw k ra imm)
  | 0x10 => ifOk mok (.macdH4 k m)
  | 0x11 => ifOk mok (.macdH4s k m)
  | 0x12 => ifOk mok (.msudH4 k m)
  | 0x13 => ifOk mok (.msudH4s k m)
  | 0x14 => ifOk mok (.macdH1 k m)
  | 0x15 => ifOk mok (.macdH1s k m)
  | 0x16 => ifOk mok (.macdW2 k m)
  | 0x17 => ifOk mok (.macdW2s k m)
  | 0x18 => ifOk (x0 && bits w 23 3 == 0) (.maci k (accAt w 21) ra imm)
  | 0x19 => ifOk (x0 && bits w 23 3 == 0) (.macis k (accAt w 21) ra imm)
  | _ => none

/-- The instruction that core `k` executes for a first word `w` and, in the wide forms, a second word `v` (R187). -/
def decodeWords (k : CoreNo) (w v : Nat) : Option Instr :=
  let op := bits w 26 6
  if op = 0x01 then decAlu k w
  else if op = 0x08 then decShi k w
  else if op < 0x10 || (0x18 ≤ op && op < 0x28) then decImm k op w
  else if op < 0x18 then decBranch k op w
  else if op = 0x28 then decAmo k w
  else if op = 0x29 || op = 0x2A then decCache k op w
  else if op = 0x30 then decMul k w
  else if op = 0x31 then decAcc k w
  else if op = 0x32 then decMac k w
  else if op = 0x33 then decTrig k w
  else if op = 0x34 then decSys k w
  else if op = 0x3F then decWide k w v
  else none

/-- A first word that no second word makes an instruction: it traps ILLEGAL_INSTR (R188). In a wide word only the second
word's fields are free, and no value of them is reserved. -/
def illegalWord (k : CoreNo) (w : Nat) : Bool := (decodeWords k w 0).isNone

/-- The first word of an instruction, as ILLEGAL_INSTR and PRIV report it (R168). -/
def firstWord (i : Instr) : Word :=
  match encode i with
  | some (w, _) => BitVec.ofNat 64 w
  | none => 0

/-- The bytes of an instruction. -/
def instrSize (i : Instr) : Nat :=
  match encode i with
  | some (_, some _) => 8
  | _ => 4

end Sys2Proof.Machine
end

