-- ==== Sys2Proof/Machine/Flags.lean ====
section
/-! DEFINITION. FLG (R157, R160): the flag computations of R193, saturation (R194, R221) and the conditions of R199. -/

namespace Sys2Proof.Machine

/-- FLG as its six bits: Z, N, C, V, SAT, DZ from bit 0 (R160). -/
structure Flg where
  z : Bool
  n : Bool
  c : Bool
  v : Bool
  sat : Bool
  dz : Bool
deriving DecidableEq, Repr

/-- The flags in a word. -/
def Flg.ofWord (w : Word) : Flg :=
  { z := w.getLsbD 0, n := w.getLsbD 1, c := w.getLsbD 2, v := w.getLsbD 3, sat := w.getLsbD 4, dz := w.getLsbD 5 }

/-- The word that holds the flags. -/
def Flg.toWord (f : Flg) : Word :=
  BitVec.ofNat 64 (b2n f.z + 2 * b2n f.n + 4 * b2n f.c + 8 * b2n f.v + 16 * b2n f.sat + 32 * b2n f.dz)

/-- An integer lies outside the signed range of `w` bits. -/
def outside (w : Nat) (x : Int) : Bool := x < -(2 ^ (w - 1) : Nat) || (2 ^ (w - 1) : Nat) ≤ x

/-- The integer clipped to the signed range of `w` bits (R194, R221). -/
def clip (w : Nat) (x : Int) : Int :=
  if x < -(2 ^ (w - 1) : Nat) then -(2 ^ (w - 1) : Nat)
  else if (2 ^ (w - 1) : Nat) ≤ x then (2 ^ (w - 1) : Nat) - 1 else x

/-- Z, N, C and V of a result, its carry and its exact signed value (R193); SAT and DZ stay. -/
def Flg.result (f : Flg) (r : Word) (carry : Bool) (exact : Int) : Flg :=
  { f with z := r == 0, n := r.msb, c := carry, v := outside 64 exact }

/-- The flags of ra + rb + cin (R193). -/
def Flg.add (f : Flg) (a b : Word) (cin : Bool) : Flg :=
  f.result (a + b + BitVec.ofNat 64 (b2n cin)) (2 ^ 64 ≤ a.toNat + b.toNat + b2n cin) (a.toInt + b.toInt + b2n cin)

/-- The flags of ra − rb − bin (R193): C is set when no borrow occurs. -/
def Flg.sub (f : Flg) (a b : Word) (bin : Bool) : Flg :=
  f.result (a - b - BitVec.ofNat 64 (b2n bin)) (b.toNat + b2n bin ≤ a.toNat) (a.toInt - b.toInt - b2n bin)

/-- The conditions of R199. -/
def Flg.cond (f : Flg) (c : BitVec 4) : Bool :=
  match c.toNat with
  | 0x0 => true
  | 0x1 => f.z
  | 0x2 => !f.z
  | 0x3 => !f.c
  | 0x4 => f.c
  | 0x5 => !f.c || f.z
  | 0x6 => f.c && !f.z
  | 0x7 => f.n != f.v
  | 0x8 => f.n == f.v
  | 0x9 => f.z || f.n != f.v
  | 0xA => !f.z && f.n == f.v
  | 0xB => f.n
  | 0xC => !f.n
  | 0xD => f.v
  | 0xE => !f.v
  | _ => f.sat

end Sys2Proof.Machine
end

