-- ==== Sys2Proof/Machine/Cores.lean ====
section
/-! DEFINITION. A Clavor core between and around its instructions: registers (R155, R158, R160), hardware loops (R162 to R165),
trap entry and return (R168 to R172), translation and fetch (R174 to R177, R242), windows (R178 to R181), retirement groups
(R273). -/

namespace Sys2Proof.Machine

/-! ## Trap causes (R168) -/

def tIllegal : Nat := 0x01
def tPriv : Nat := 0x02
def tMisaligned : Nat := 0x03
def tAccess : Nat := 0x04
def tDown : Nat := 0x05
def tOverflow : Nat := 0x06
def tDivZero : Nat := 0x07
def tLoopDepth : Nat := 0x08
def tLoopRange : Nat := 0x09
def tStoreError : Nat := 0x0A
def tDeadline : Nat := 0x0B
def tEcall : Nat := 0x0C
def tBreak : Nat := 0x0D
def tTranslate : Nat := 0x0E
def tLocal : Nat := 0x0F

/-! ## Registers of a context -/

/-- The reset value of a control register (R160). -/
def csrReset (n : Nat) : Word := if n = 0x40A then 0x0FFFFFFFFFFFFFFF else 0

/-- A control register as it is held. -/
def Arch.csrv (a : Arch) (n : Nat) : Word := tabGet (csrReset n) a.csr n

/-- The context with a control register holding `v`. -/
def Arch.setCsrv (a : Arch) (n : Nat) (v : Word) : Arch := { a with csr := tabPut (csrReset n) a.csr n v }

/-- A field of a control register. -/
def Arch.csrf (a : Arch) (n lo w : Nat) : Nat := bits (a.csrv n).toNat lo w

/-- The context with a field of a control register replaced. -/
def Arch.setCsrf (a : Arch) (n lo w v : Nat) : Arch :=
  a.setCsrv n (BitVec.ofNat 64 (putBits (a.csrv n).toNat lo w v))

/-- A general register; G0 reads as zero (R155). -/
def Arch.gr (a : Arch) (i : Nat) : Word := if i = 0 then 0 else tabGet 0 a.g i

/-- The context after a write of a general register; a write to G0 is discarded (R155). -/
def Arch.setGr (a : Arch) (i : Nat) (v : Word) : Arch := if i = 0 then a else { a with g := tabPut 0 a.g i v }

/-- An accumulator (R158). -/
def Arch.accv (a : Arch) (i : Nat) : AccWord := tabGet 0 a.acc i

/-- The context after a write of an accumulator. -/
def Arch.setAcc (a : Arch) (i : Nat) (v : AccWord) : Arch := { a with acc := tabPut 0 a.acc i v }

/-- FLG. -/
def Arch.flg (a : Arch) : Flg := Flg.ofWord (a.csrv 0)

/-- The context with other flags. -/
def Arch.setFlg (a : Arch) (f : Flg) : Arch := a.setCsrv 0 f.toWord

/-- Sets SAT when a saturating operation has clipped (R157). -/
def Arch.saturate (a : Arch) (clipped : Bool) : Arch := if clipped then a.setFlg { a.flg with sat := true } else a

/-- CTL.FT, OVT, DZT and DLT are bits 0 to 3 (R160). -/
def Arch.ctl (a : Arch) (i : Nat) : Bool := bit (a.csrv 0x400).toNat i

/-! ## Hardware loops (R162 to R165) -/

/-- LPSTAT.DEPTH. -/
def Arch.depth (a : Arch) : Nat := a.csrf 0x01C 0 3
def Arch.setDepth (a : Arch) (d : Nat) : Arch := a.setCsrv 0x01C (BitVec.ofNat 64 d)
def Arch.lps (a : Arch) (i : Nat) : Nat := (a.csrv (0x010 + i)).toNat
def Arch.lpe (a : Arch) (i : Nat) : Nat := (a.csrv (0x014 + i)).toNat
def Arch.lpc (a : Arch) (i : Nat) : Nat := (a.csrv (0x018 + i)).toNat
def Arch.setLpc (a : Arch) (i n : Nat) : Arch := a.setCsrv (0x018 + i) (BitVec.ofNat 64 n)

/-- The end test of R163 over `d` levels: the next pc is `hi`, and a level closes whose LPE lies above `lo` and not above
`hi`. It answers the address at which execution continues. -/
def Arch.endTest (lo hi : Nat) : Nat → Arch → Arch × Nat
  | 0, a => (a.setDepth 0, hi)
  | d + 1, a =>
    if lo < a.lpe d && a.lpe d ≤ hi then
      if 1 < a.lpc d then ((a.setLpc d (a.lpc d - 1)).setDepth (d + 1), a.lps d)
      else Arch.endTest lo hi d (a.setLpc d 0)
    else (a.setDepth (d + 1), hi)

/-- A taken transfer to `t` leaves every level whose body does not contain it (R164). -/
def Arch.leave (t : Nat) : Nat → Arch → Arch
  | 0, a => a.setDepth 0
  | d + 1, a => if t < a.lps d || a.lpe d ≤ t then Arch.leave t d (a.setLpc d 0) else a.setDepth (d + 1)

/-! ## Traps (R169, R172) -/

/-- The encoding of a mode (R153). -/
def Mode.code : Mode → Nat
  | .user => 0
  | .supervisor => 1
  | .monitor => 3

/-- The mode of an encoding. -/
def Mode.ofCode (n : Nat) : Mode := if n = 0 then .user else if n = 1 then .supervisor else .monitor

/-- XSTAT of a mode; XTVEC, XEPC, XCAUSE and XVAL follow it (R160). -/
def Mode.stat : Mode → Nat
  | .monitor => 0x800
  | _ => 0x401

/-- TD of the registers of a mode. -/
def Arch.td (a : Arch) (m : Mode) : Bool := bit (a.csrv m.stat).toNat 1
/-- IE of the registers of a mode. -/
def Arch.ie (a : Arch) (m : Mode) : Bool := bit (a.csrv m.stat).toNat 0

/-- The mode that takes a trap (R169). -/
def Arch.trapMode (a : Arch) (cause : Nat) (precise : Bool) : Mode :=
  match a.mode with
  | .monitor => .monitor
  | m =>
    if cause = tEcall then (if m = .user then .supervisor else .monitor)
    else if bit (a.csrv 0x806).toNat cause then .monitor
    else if precise && m = .supervisor && a.td .supervisor then .monitor
    else .supervisor

/-- Trap entry into mode `m` at code `code` with trap value `val` (R172). -/
def Arch.enter (a : Arch) (m : Mode) (int : Bool) (code : Nat) (val : Word) : Arch :=
  let n := m.stat
  let stat := a.depth * 2 ^ 9 + a.mode.code * 2 ^ 5 + b2n (a.ie m) * 2 ^ 4 + 2
  let base := (a.csrv (n + 1)).toNat
  let a1 := ((a.setCsrv n (BitVec.ofNat 64 stat)).setCsrv (n + 2) (BitVec.ofNat 64 a.pc.toNat)).setCsrv (n + 3)
    (BitVec.ofNat 64 (b2n int * 2 ^ 63 + code))
  { (a1.setCsrv (n + 4) val).setDepth 0 with
    mode := m, pc := BitVec.ofNat 48 (if int then base else base + 0x40 * code) }

/-- The precise trap of an instruction (R169, R170). -/
def Arch.trap (a : Arch) (cause : Nat) (val : Word) : Arch := a.enter (a.trapMode cause true) false cause val

/-- The return from a trap in mode `m`, with the depth to restore (R172). -/
def Arch.tret (a : Arch) (m : Mode) (depth : Nat) : Arch :=
  let n := m.stat
  let w := (a.csrv n).toNat
  let stat := putBits (putBits w 0 1 (bits w 4 1)) 1 1 0
  { (a.setCsrv n (BitVec.ofNat 64 stat)).setDepth depth with
    mode := Mode.ofCode (bits w 5 2), pc := BitVec.ofNat 48 (a.csrv (n + 2)).toNat }

/-! ## Which core acts -/

/-- The core number is an agent of its own: the main core of a pair, or either core of a split pair (R269, R291). -/
def State.agent (s : State) (k : Nat) : Bool := k % 2 == 0 || s.isSplit (k / 2)

/-- The core that holds what core `k` executes: the main copy of a lockstep pair. -/
def State.coreKey (s : State) (k : Nat) : Nat := if s.isSplit (k / 2) then k else k - k % 2

/-- Its number as an agent of its logical pair: 2 × LP + HALF (R160). -/
def State.agentNo (s : State) (k : Nat) : Option Nat :=
  (s.lpOf (k / 2)).map (fun l => 2 * l + (if s.isSplit (k / 2) then k % 2 else 0))

/-- The partition whose window the pair of core `k` runs. -/
def State.curPn (s : State) (k : Nat) : Option Nat :=
  match s.lpOf (k / 2) with
  | some l => (s.lp l).cur
  | none => none

/-- A core waits for nothing. -/
def CoreWait.ready : CoreWait → Bool
  | .run => true
  | .oneStep => true
  | _ => false

/-! ## Address ranges and translation (R27 to R31, R174 to R177) -/

/-- The ranges of the physical address space (R27). -/
inductive AddrRange where
  | hbm | own | core (k : Nat) | dev | window | reserved
deriving DecidableEq, Repr

/-- The range of an address (R27). -/
def region (a : Nat) : AddrRange :=
  if a < 0x800000000 then .hbm
  else if 0xE000000000 ≤ a && a < 0xE000010000 then .own
  else if 0xE100000000 ≤ a && a < 0xE100A20000 then .core ((a - 0xE100000000) / 0x10000)
  else if 0xF000000000 ≤ a && a < 0xF004000000 then .dev
  else if 0xF800000000 ≤ a && a < 0xF800001000 then .window
  else .reserved

/-- The access traps PRIV (R30, R31). -/
def privFault (m : Mode) : AddrRange → Bool
  | .dev => m != .monitor
  | .core _ => m != .monitor
  | .window => m == .user
  | _ => false

/-- The Monitor range of R241: normal uncached where an enabled MEM_MONUC range holds the page. -/
def State.monUncached (s : State) (a : Nat) : Bool :=
  (List.range 4).any (fun i =>
    let r := s.rd (MEM_MONUC i)
    bit r 31 && bits r 0 14 ≤ a / 0x200000 && a / 0x200000 ≤ bits r 16 14)

/-- The locked entry of a VPN (R177). -/
def Arch.locked (a : Arch) (vpn : Nat) : Option Word :=
  match (List.range 16).find? (fun n => bit (a.csrv (0x410 + n)).toNat 63 && a.csrf (0x410 + n) 0 14 == vpn) with
  | some n => some (tabGet 0 a.tlb n)
  | none => none

/-- The unlocked entry of a VPN (R177). -/
def CoreSt.unlocked (c : CoreSt) (vpn : Nat) : Option Word := (c.utlb.find? (fun e => e.2.1 == vpn)).map (·.2.2)

/-- The translation of an address of the partition that core `k` runs: a locked entry, an unlocked one, else a walk (R176,
R177). -/
def State.xlate (s : State) (k va : Nat) : Walk :=
  let c := s.core k
  match (c.arch.locked (va / 0x200000)).or (c.unlocked (va / 0x200000)) with
  | some e => .ok e.toNat
  | none => s.walk c.pn va

/-- A translation that has been used is kept: one that was walked takes one of the entries 16 to 63, at random (R177). Which one is
free (assumption 53). -/
def State.tlbFill (s : State) (k va : Nat) : State :=
  let c := s.core k
  if c.arch.mode = .monitor || region va ≠ .hbm || ((c.arch.locked (va / 0x200000)).or (c.unlocked (va / 0x200000))).isSome then s
  else
    match s.walk c.pn va with
    | .ok e =>
      let (i, s) := s.draw
      s.setCore k { c with
        utlb := tabIns c.utlb (16 + (Config.freeWord i).toNat % 48) (va / 0x200000, BitVec.ofNat 64 e) }
    | _ => s

/-- A translation failed because its page is not assigned to the partition: ST_PERM is recorded (R176). -/
def State.walkPerm (s : State) (k va : Nat) : State :=
  let pn := (s.core k).pn
  s.errLog stPerm srcMem (some pn) (bits (s.pte pn (va / 0x200000)) 21 14 * 0x200000)

/-- A fetch from HBM: the key table is closed (R376). -/
def State.keyFetch (s : State) (pa : Nat) : Option (Nat × State) :=
  if s.keyPage pa then some (tAccess, s.count SEC_PERMFAIL 1) else none

/-- What the fetch of a word meets (R170, R174, R176, R242): none, or a cause with the state that has recorded it. -/
def State.fetchWord (s : State) (k va : Nat) : Option (Nat × State) :=
  let m := (s.core k).arch.mode
  let r := region va
  if privFault m r then some (tPriv, s)
  else if r ≠ .hbm then some (tAccess, s)
  else if m = .monitor then (if s.monUncached va then some (tAccess, s) else s.keyFetch va)
  else
    match s.xlate k va with
    | .fault => some (tTranslate, s)
    | .perm => some (tTranslate, s.walkPerm k va)
    | .ok e => if !bit e 59 || (m = .user && !bit e 62) || bits e 57 2 ≠ 0 then some (tAccess, s) else s.keyFetch (paOf e va)

/-- What the fetch of an instruction of `n` bytes at the pc meets: cause, address and state. -/
def State.fetchTrap (s : State) (k n : Nat) : Option (Nat × Nat × State) :=
  let pc := (s.core k).arch.pc.toNat
  match s.fetchWord k pc with
  | some (c, s') => some (c, pc, s')
  | none =>
    if n = 8 then
      match s.fetchWord k ((pc + 4) % 2 ^ 48) with
      | some (c, s') => some (c, (pc + 4) % 2 ^ 48, s')
      | none => none
    else none

/-- LMW, L1DEN and ILOCK in force (R247). -/
def State.lmw (s : State) (k : Nat) : Nat := s.fget (MEM_C_L1CFG (s.coreKey k)) 4 2
def State.l1den (s : State) (k : Nat) : Bool := s.fbit (MEM_C_L1CFG (s.coreKey k)) 0
def State.ilock (s : State) (k : Nat) : Nat := s.fget (MEM_C_L1CFG (s.coreKey k)) 8 2

/-- The first line of the locked code (R245). -/
def State.ilLine (s : State) (k : Nat) : Nat := s.rd64 (MEM_C_ILBASE_LO (s.coreKey k)) / 64

/-- The line of an address from which core `k` may fetch ahead: in normal cacheable memory (R242). -/
def State.fetchLine (s : State) (k va : Nat) : Option Nat :=
  if region va ≠ .hbm then none
  else if (s.core k).arch.mode = .monitor then (if s.monUncached va then none else some (va / 64))
  else
    match s.xlate k va with
    | .ok e => if bits e 57 2 = 0 then some (paOf e va / 64) else none
    | _ => none

/-- The next instruction lies in the locked code that a change reloads: its fetch waits (R245). -/
def State.reloading (s : State) (k : Nat) : Bool :=
  match (s.core k).change, s.fetchLine k (s.core k).arch.pc.toNat with
  | some x, some line => x.reload && s.ilLine k ≤ line && line < s.ilLine k + 256 * bits x.cfg 8 2
  | _, _ => false

/-- A pair domain is steady in RUN. -/
def State.running (s : State) (pp : Nat) : Bool := s.dstate pp == 0 && s.dphase pp == 0

/-- The core issues an instruction that is sent to it: its pair is in service and in RUN, the core is an agent, no retry runs,
it waits for nothing and its fetch waits for no reload. The instructions of a checker copy repeat those of the main copy
(R269). -/
def State.issues (s : State) (k : Nat) : Bool :=
  let pp := k / 2
  s.agent k && s.role pp == 0 && (s.lpOf pp).isSome && s.running pp
    && (s.core k).wait.ready && (s.core k).attempt == 0 && !s.reloading k

/-! ## Retirement groups (R273, R274) -/

/-- A group begins at the context as it stands: the retry checkpoint is taken. -/
def CoreSt.addGroup (c : CoreSt) : CoreSt := { c with groups := c.groups ++ [{ check := c.arch, inputs := c.inbuf }], inbuf := [] }

/-- The youngest group changed. -/
def CoreSt.onLast (c : CoreSt) (f : Group → Group) : CoreSt :=
  match c.groups.getLast? with
  | some g => { c with groups := c.groups.dropLast ++ [f g] }
  | none => c

/-- Instructions of the open group; none where no group is open. -/
def CoreSt.openN (c : CoreSt) : Option Nat :=
  match c.groups.getLast? with
  | some g => if g.n < 16 then some g.n else none
  | none => none

/-- The open group is closed. -/
def CoreSt.shut (c : CoreSt) : CoreSt := c.onLast (fun g => { g with n := 16 })

/-- The group of the instruction ends with it. -/
def CoreSt.lastOfGroup (c : CoreSt) : CoreSt := c.onLast (fun g => { g with n := 15 })

/-- The instruction forms a group of its own: the older one is closed before it. -/
def CoreSt.ownGroup (c : CoreSt) : CoreSt :=
  (if c.openN = some 0 then c else c.shut.addGroup).lastOfGroup

/-- A value sampled at the input port stays in the replay buffer until its group commits (R271). -/
def CoreSt.input (c : CoreSt) (v : Sample) : CoreSt :=
  if c.openN.isSome then c.onLast (fun g => { g with inputs := g.inputs ++ [v] }) else { c with inbuf := c.inbuf ++ [v] }

/-- An instruction begins: a group is open for it. Whether the replay span of the open one would pass 40 cycles with it, so that
it is closed before it, is a matter of timing and is free (assumption 54). -/
def State.beginGroup (s : State) (k : Nat) : State :=
  match (s.core k).openN with
  | none => s.setCore k (s.core k).addGroup
  | some 0 => s
  | some (_ + 1) =>
    let (i, s) := s.draw
    if Config.freeBool i then s.setCore k (s.core k).shut.addGroup else s

/-- The group of the instruction ends with it (R273). -/
def State.closeGroup (s : State) (k : Nat) : State := s.setCore k (s.core k).lastOfGroup

/-- The instruction forms a retirement group of its own (R209, R235, R273). -/
def State.ownGroup (s : State) (k : Nat) : State := s.setCore k (s.core k).ownGroup

/-- The value of a data input is kept for a retry (R271). -/
def State.sampled (s : State) (k : Nat) (v : Word) : State := s.setCore k ((s.core k).input (.word v))

/-! ## Mismatches (R270, R275, R278) -/

/-- PAI_MIS and PAI_MISPC: attempt, kind and register, and the address of the first instruction of the group. -/
def State.recordMis (s : State) (pp att kind reg : Nat) : State :=
  let c := s.core (2 * pp)
  let pc := ((c.groups.getLast?.map (·.check)).getD c.arch).pc.toNat
  (s.wr (PAI_MIS pp) (2 ^ 31 + att * 2 ^ 24 + kind * 2 ^ 16 + reg)).wr64 (PAI_MISPC_LO pp) pc

/-- A pair runs in lockstep and compares: in service, in RUN, not halted. -/
def State.compares (s : State) (pp : Nat) : Bool :=
  s.role pp == 0 && (s.lpOf pp).isSome && !s.isSplit pp && s.running pp
    && (s.core (2 * pp)).wait != .halted && (s.core (2 * pp)).wait != .oneStep

/-- An error event of a kind in the first execution of a group: attempt 1 of its retry begins. What a retry re-executes gives
what the first execution gave, from the replay buffer; nothing is sent again. -/
def State.mismatch (s : State) (pp kind reg : Nat) : State :=
  if !s.compares pp || (s.core (2 * pp)).attempt ≠ 0 then s
  else
    let s := (s.recordMis pp 0 kind reg).count (PAI_RTEV pp) 1
    s.setCore (2 * pp) { s.core (2 * pp) with attempt := 1, injOne := false }

/-- The first register in which two contexts differ, as KIND and REG of PAI_MIS name it: a general register, or another one by
its control-register number. INSTRET counts without a write. -/
def regChange (a b : Arch) : Option (Nat × Nat) :=
  match (List.range 32).find? (fun i => a.gr i != b.gr i) with
  | some i => some (1, i)
  | none =>
    match ((a.csr ++ b.csr).map (·.1)).find? (fun n => n != 0xC01 && a.csrv n != b.csrv n) with
    | some n => some (2, n)
    | none => ((List.range 4).find? (fun i => a.accv i != b.accv i)).map (fun i => (2, 0x030 + 2 * i))

/-- PAI_INJ makes the checker copy differ on the next register write (ONE) or on every one (HARD) of core `k`, whose context was
`before` its instruction (R299). Whether an instruction that changes no register has written one is free (assumption 54). -/
def State.inject (s : State) (k : Nat) (before : Arch) : State :=
  if k % 2 = 0 && ((s.core k).injOne || s.fbit (PAI_INJ (k / 2)) 1) then
    match regChange before (s.core k).arch with
    | some (kind, reg) => s.mismatch (k / 2) kind reg
    | none =>
      let (i, s) := s.draw
      if Config.freeBool i then s.mismatch (k / 2) 1 ((Config.freeWord i).toNat % 32) else s
  else s

/-! ## Execution -/

/-- How an instruction ends: at the next address, at a body end that an empty loop skips to, with a taken transfer, with a
precise trap, or not yet. -/
inductive Ends where
  | seq | skip (e : Nat) | jump (t : Nat) | trap (cause : Nat) (val : Word) | stall
deriving DecidableEq, Repr

/-- The context after an instruction of `n` bytes that completes, trap or not (R163, R164, R170). -/
def Arch.finish (a : Arch) (n : Nat) : Ends → Arch
  | .seq => let (a', t) := Arch.endTest a.pc.toNat (a.pc.toNat + n) a.depth a; { a' with pc := BitVec.ofNat 48 t }
  | .skip e => let (a', t) := Arch.endTest (e - 1) e a.depth a; { a' with pc := BitVec.ofNat 48 t }
  | .jump t => { Arch.leave t a.depth a with pc := BitVec.ofNat 48 t }
  | .trap c v => a.trap c v
  | .stall => a

/-- INSTRET (0xC01) after one more retired instruction (R160). -/
def Arch.counted (a : Arch) : Arch := a.setCsrv 0xC01 (a.csrv 0xC01 + 1)

/-- The instruction is retired; a trap closes the retirement group (R273). -/
def CoreSt.retire (c : CoreSt) (n : Nat) (e : Ends) : CoreSt :=
  let w : CoreWait := if c.wait = .oneStep then .halted else c.wait
  match e with
  | .stall => c
  | .trap _ _ => CoreSt.shut { c with arch := c.arch.finish n e, wait := w }
  | _ => CoreSt.onLast { c with arch := (c.arch.finish n e).counted, wait := w } (fun g => { g with n := min (g.n + 1) 16 })

/-- Lantern trace of an instruction that has retired (R297): it leaves as a record in the trace buffer. The form and length of
a record are not stated: its bytes, at most 64, are free (assumption 2). -/
def State.traced (s : State) (k pc : Nat) (m : Mode) : State :=
  let pp := k / 2
  let w := s.rd (PAI_TRC_CTL pp)
  if !bit w 31 || (bit w 30 && (m == .monitor || bits w 0 11 != (s.core k).pn)) then s
  else
    match s.lpOf pp with
    | none => s
    | some l =>
      let c := k / 18
      let size := 4096 * s.fget (CLU_TRC_SIZE (l / 8)) 0 16
      let base := s.rd64 (CLU_TRC_LO (l / 8))
      let (i, s) := s.draw
      let n := (Config.freeWord i).toNat % 65
      let at_ := (s.cluster c).trcPos
      let wraps := size < at_ + n
      let at_ := if wraps then 0 else at_
      let s := s.agentWrite (base + at_) ((List.range n).map (Config.freeByte i))
      let s := s.setCluster c { s.cluster c with trcPos := at_ + n }
      (if wraps then s.fset (PAI_TRC_ST pp) 8 1 1 else s).emit (.trace pp pc)

/-- An instruction that ends so has retired. -/
def Ends.retires : Ends → Bool
  | .stall => false
  | .trap _ _ => false
  | _ => true

/-- The instruction of `n` bytes that core `k` began in context `before` ends as `e`. -/
def State.endInstr (s : State) (k n : Nat) (before : Arch) (e : Ends) : State :=
  let s := s.setCore k ((s.core k).retire n e)
  let s := if e.retires then s.traced k before.pc.toNat before.mode else s
  if e = .stall then s else s.inject k before

/-- An instruction of `n` bytes has been fetched and begins: its translations are kept, a group is open for it. -/
def State.beginInstr (s : State) (k n : Nat) : State :=
  let pc := (s.core k).arch.pc.toNat
  let s := s.tlbFill k pc
  (if n = 8 then s.tlbFill k ((pc + 4) % 2 ^ 48) else s).beginGroup k

/-- Core `k` executes an instruction of `n` bytes with effect `f`, where it issues one and its fetch meets nothing. -/
def State.instr (s : State) (k n : Nat) (f : State → State × Ends) : State :=
  if s.issues k then
    let before := (s.core k).arch
    match s.fetchTrap k n with
    | some (c, va, s') => (s'.beginGroup k).endInstr k n before (.trap c (BitVec.ofNat 64 va))
    | none =>
      let (s', e) := f (s.beginInstr k n)
      s'.endInstr k n before e
  else s

/-- An instruction whose effect is one on the context of its core alone. -/
def State.instrArch (s : State) (k n : Nat) (f : Arch → Arch × Ends) : Host.Outcome State Fault Refusal :=
  s.live (fun s => s.instr k n (fun s =>
    let c := s.core k
    let (a, e) := f c.arch
    (s.setCore k { c with arch := a }, e)))

/-- An instruction with an effect on the whole state. -/
def State.instrState (s : State) (k n : Nat) (f : State → State × Ends) : Host.Outcome State Fault Refusal :=
  s.live (fun s => s.instr k n f)

/-! ## Windows (R178 to R181) -/

/-- The frame origin of a bank. -/
def State.frameOrigin (s : State) (l b : Nat) : Nat := (if b = 0 then s.rd64 (CLU_LP_FOA_LO l) else s.rd64 (CLU_LP_FOB_LO l)) % 2 ^ 60

/-- The ticks since the last beginning of window 0 of a bank. -/
def State.frameOfs (s : State) (l b mf : Nat) : Nat :=
  (((s.time.tick : Int) - (s.frameOrigin l b : Int)) % (mf : Int)).toNat

/-- The window that holds offset `o` of the frame: its number and the ticks it has left. -/
def windowAt : List (Option Nat × Nat) → Nat → Nat → Option (Nat × Nat)
  | [], _, _ => none
  | w :: ws, i, o => if o < w.2 then some (i, w.2 - o) else windowAt ws (i + 1) (o - w.2)

/-- The window of the bank in force at the current tick: its number and the ticks it has left; none without windows, or
before window 0 of a bank that has just come into force (R179). -/
def State.windowNow (s : State) (l : Nat) : Option (Nat × Nat) :=
  let ws := s.windows l (s.cbank l)
  if ws.isEmpty || s.time.tick < (s.lp l).wfrom then none
  else windowAt ws 0 (s.frameOfs l (s.cbank l) (majorFrame ws))

/-- The partition the window of the current tick runs; a partition that is not RUNNING leaves it IDLE (R179, R391). -/
def State.windowPn (s : State) (l : Nat) : Option Nat :=
  match s.windowNow l with
  | some (i, _) =>
    match (s.windows l (s.cbank l)).getD i (none, 1) with
    | (some pn, _) => if s.pstate pn = 2 then some pn else none
    | _ => none
  | none => none

/-- The ticks of the leading windows that name a partition. -/
def runLength (pn : Nat) : List (Option Nat × Nat) → Nat
  | [] => 0
  | w :: ws => if w.1 = some pn then w.2 + runLength pn ws else 0

/-- WREM (R181). -/
def State.wrem (s : State) (k : Nat) : Nat :=
  match s.lpOf (k / 2), s.curPn k with
  | some l, some pn =>
    let ws := s.windows l (s.cbank l)
    if ws.all (fun w => w.1 == some pn) then 0xFFFFFFFF
    else
      match s.windowNow l with
      | some (i, left) => left + runLength pn (ws.drop (i + 1) ++ ws.take i)
      | none => 0
  | _, _ => 0

/-! ## Pending interrupts (R160, R171) -/

/-- IPEND of core `k`: NOTICE, MSGQ, TIMER, MGT from bit 0. -/
def State.ipend (s : State) (k : Nat) : Nat :=
  let timer := ((s.core k).arch.csrv 0x40A).toNat ≤ s.time.tick
  match s.curPn k with
  | some pn =>
    let notice := (s.sub pn).entries.any (fun q => q.takenBy.isNone)
    let mgt := Nat.land (s.rd (PRT_EVT pn)) (s.fget (PRT_EVTEN pn) 16 8) != 0
    b2n notice + 2 * b2n ((s.part pn).msgs != 0) + 4 * b2n timer + 8 * b2n mgt
  | none => 4 * b2n timer

/-- MIPEND: MBOX, ERR, RINGQ from bit 0. -/
def State.mipend (s : State) : Nat :=
  b2n (s.fbit MGT_MBX_ST 8) + 2 * b2n (s.fbit MGT_FWEVT 0) + 4 * b2n (s.mgmt.fwMsgs != 0)

/-- The lowest set bit of `v` below `n`. -/
def lowBit (v n : Nat) : Option Nat := (List.range n).find? (fun i => bit v i)

/-- An interrupt source of the current mode is pending with its enable bit set (R239). -/
def State.wakesWfi (s : State) (k : Nat) : Bool :=
  let a := (s.core k).arch
  if a.mode = .monitor then Nat.land s.mipend (a.csrv 0x807).toNat != 0
  else Nat.land (s.ipend k) (a.csrv 0x407).toNat != 0

/-- The pending STORE_ERROR that is delivered first: of a Monitor store, or of a store of the partition and epoch the pair
runs (R265). -/
def State.storeErr (s : State) (k : Nat) : Option (Nat × StoreErr) :=
  let c := s.core k
  firstIdx (fun (e : StoreErr) => e.mode == .monitor || (s.curPn k == some e.pn && e.epoch == c.epoch)) 0 c.errs

/-- What is delivered at the next instruction boundary (R171): STORE_ERROR, DEADLINE, then interrupts in ascending source
number, those of the Supervisor before those of the Monitor. Each gives the mode, whether it is an interrupt, code and value. -/
def State.deliverable (s : State) (k : Nat) : Option (Mode × Bool × Nat × Word) :=
  let c := s.core k
  let a := c.arch
  let open_ (m : Mode) : Bool := !a.td m
  let err : Option (Mode × Bool × Nat × Word) :=
    match s.storeErr k with
    | some (_, e) =>
      let m := if e.mode == .monitor then .monitor else a.trapMode tStoreError false
      if open_ m then some (m, false, tStoreError, BitVec.ofNat 64 e.va) else none
    | none => none
  let dead : Option (Mode × Bool × Nat × Word) :=
    match c.dlines.head? with
    | some sn => let m := a.trapMode tDeadline false; if open_ m then some (m, false, tDeadline, BitVec.ofNat 64 sn) else none
    | none => none
  let sint : Option (Mode × Bool × Nat × Word) :=
    if a.mode != .monitor && a.ie .supervisor && open_ .supervisor then
      (lowBit (Nat.land (s.ipend k) (a.csrv 0x407).toNat) 4).map (fun i => (.supervisor, true, i, 0))
    else none
  let mint : Option (Mode × Bool × Nat × Word) :=
    if a.ie .monitor && open_ .monitor then
      (lowBit (Nat.land s.mipend (a.csrv 0x807).toNat) 3).map (fun i => (.monitor, true, i, 0))
    else none
  err.or (dead.or (sint.or mint))

/-- What is delivered is pending no longer; interrupts stay pending at their sources. -/
def CoreSt.delivered (c : CoreSt) (code : Nat) (int : Bool) (i : Nat) : CoreSt :=
  if int then c
  else if code = tStoreError then { c with errs := c.errs.eraseIdx i }
  else { c with dlines := c.dlines.drop 1 }

/-- The core can go on from a wait: its pair is in service and in RUN, and no retry runs. -/
def State.awake (s : State) (k : Nat) : Bool :=
  s.agent k && s.role (k / 2) == 0 && s.running (k / 2) && (s.core k).attempt == 0

/-- An agreed interrupt or asynchronous trap is delivered; a waiting SLGET has no effect, and WFI has ended (R171, R232,
R239). -/
def State.deliverEvent (s : State) (k : Nat) : State :=
  let c := s.core k
  let stopped := c.wait == .halted || c.wait == .fenced
  if !s.awake k || stopped then s
  else
    match s.deliverable k with
    | some (m, int, code, val) =>
      let i := match s.storeErr k with | some (i, _) => i | none => 0
      let c := c.delivered code int i
      s.setCore k (CoreSt.shut { c with arch := c.arch.enter m int code val, wait := .run })
    | none => s

end Sys2Proof.Machine
end

