-- ==== Sys2Proof/Machine/Operands.lean ====
section
/-! DEFINITION. Operand forms of core instructions: signed immediates, memory operands (R203), modulo addressing (R166),
lanes (R225). -/

namespace Sys2Proof.Machine

/-- The sign-extended value of a field. -/
def sextW {w : Nat} (v : BitVec w) : Word := v.signExtend 64
/-- The zero-extended value of a field. -/
def zextW {w : Nat} (v : BitVec w) : Word := v.zeroExtend 64

/-- The updated address of a modulo access: buffer n of MOD0 and MOD1, address a, increment i (R166). -/
def Arch.modupd (x : Arch) (n : Nat) (a i : Word) : Word :=
  let b := (x.csrv (0x020 + 2 * n)).toNat
  let l := (x.csrv (0x021 + 2 * n)).toNat
  if l ≠ 0 && b ≤ a.toNat && a.toNat < b + l then
    BitVec.ofNat 64 (b + (((a.toNat : Int) - b + i.toInt) % (l : Int)).toNat)
  else a + i

/-- A pointer after modification: MS 0 linear, 1 MOD0, 2 MOD1 (R203, R228). -/
def Arch.updated (x : Arch) (ms : Nat) (a i : Word) : Word := if ms = 0 then a + i else x.modupd (ms - 1) a i

/-- RB of a format M word. -/
def memRb (m : MemOp) : Nat := bits m.ofs.toNat 7 5

/-- The access address of a load or store of `sz` bytes (R203). -/
def Arch.memAddr (x : Arch) (m : MemOp) (sz : Nat) : Word :=
  match m.am.toNat with
  | 0 => x.gr m.ra.val + sextW m.ofs * BitVec.ofNat 64 sz
  | 2 => x.gr m.ra.val + x.gr (memRb m) * BitVec.ofNat 64 sz
  | _ => x.gr m.ra.val

/-- The base register after the access (R203). -/
def Arch.memBase (x : Arch) (m : MemOp) (sz : Nat) : Arch :=
  let a := x.gr m.ra.val
  match m.am.toNat with
  | 1 => x.setGr m.ra.val (x.updated m.ms.toNat a (sextW m.ofs * BitVec.ofNat 64 sz))
  | 3 => x.setGr m.ra.val (x.updated m.ms.toNat a (x.gr (memRb m)))
  | _ => x

/-- The bytes of an access, its signedness apart (R203). -/
def LdSize.bytes : LdSize → Nat
  | .b => 1
  | .bu => 1
  | .h => 2
  | .hu => 2
  | .w => 4
  | .wu => 4
  | .d => 8

/-- The register value of loaded bytes (R204). -/
def LdSize.extend (sz : LdSize) (v : Nat) : Word :=
  match sz with
  | .b => sextW (BitVec.ofNat 8 v)
  | .h => sextW (BitVec.ofNat 16 v)
  | .w => sextW (BitVec.ofNat 32 v)
  | _ => BitVec.ofNat 64 v

/-- The signed lane of `w` bits at position `i`. -/
def laneOf (w i v : Nat) : Int := sext w (v / 2 ^ (w * i))

/-- The sum of the lane products of `n` lanes of `w` bits (R225). -/
def laneSum (w : Nat) (x y : Nat) : Nat → Int
  | 0 => 0
  | n + 1 => laneSum w x y n + laneOf w n x * laneOf w n y

end Sys2Proof.Machine
end

