-- ==== Sys2Proof/Machine/Lsu.lean ====
section
/-! DEFINITION. The parts of loads and stores that no register block takes part in: the checks of an access (R30, R31, R205,
R494), local memory (R246), the pre-commit queue and the store buffer as loads see them (R257, R258), the commit of stores
(R274), poison (R255). -/

namespace Sys2Proof.Machine

/-! ## Local memory -/

/-- The bytes of each bank that core `k` has converted (R246). -/
def State.bankBytes (s : State) (k : Nat) : Nat := 8192 * s.fget (MEM_C_L1CFG (s.coreKey k)) 4 2

/-- The `n` bytes from local offset `o` on lie in the converted bytes of one bank (R30). -/
def State.localOk (s : State) (k o n : Nat) : Bool :=
  o + n ≤ s.bankBytes k || (0x8000 ≤ o && o + n ≤ 0x8000 + s.bankBytes k)

/-- A byte of local memory by its offset: LMX below 0x8000, LMY from it on. -/
def CoreSt.localByte (c : CoreSt) (o : Nat) : Byte :=
  if o < 0x8000 then tabGet 0 c.lmx o else tabGet 0 c.lmy (o - 0x8000)

/-- The core with a byte of local memory written. -/
def CoreSt.putLocal (c : CoreSt) (o : Nat) (b : Byte) : CoreSt :=
  if o < 0x8000 then { c with lmx := tabPut 0 c.lmx o b } else { c with lmy := tabPut 0 c.lmy (o - 0x8000) b }

/-- The base of a core's own local memory (R27). -/
def ownBase : Nat := 0xE000000000

/-! ## Queued stores as loads see them (R258) -/

/-- The byte that a queued store writes at an address of its type, if it writes one. -/
def Store.byteAt (st : Store) (ty : MemTy) (a : Nat) : Option Byte :=
  if st.ty = ty && st.pa ≤ a then (st.bytes[a - st.pa]?).join else none

/-- The byte of the youngest queued store that writes an address. -/
def CoreSt.queued (c : CoreSt) (ty : MemTy) (a : Nat) : Option Byte :=
  (c.sb ++ c.preq).foldl (fun b st => (st.byteAt ty a).or b) none

/-- What a load of `n` bytes finds in the queues of core `k` (R258): no store writes one of them; the youngest store that does
writes them all; it writes them in part, and the load waits until it has drained. -/
inductive Queued where
  | none | all | part
deriving DecidableEq, Repr

/-- The youngest queued store that writes one of `n` bytes from `a` on, and whether it writes them all. -/
def CoreSt.overlap (c : CoreSt) (ty : MemTy) (a n : Nat) : Queued :=
  match (c.sb ++ c.preq).reverse.find? (fun st => (List.range n).any (fun i => (st.byteAt ty (a + i)).isSome)) with
  | Option.none => .none
  | some st => if (List.range n).all (fun i => (st.byteAt ty (a + i)).isSome) then .all else .part

/-- A byte of memory behind the queues: own local memory, the coherent view of the core's cluster, or HBM. -/
def State.memByte (s : State) (k : Nat) (ty : MemTy) (a : Nat) : Byte :=
  match ty with
  | .loc => (s.core k).localByte (a - ownBase)
  | .uncached => s.hbmByte a
  | _ => s.cohByte (k / 18) a

/-- The byte a load of core `k` gets. -/
def State.seenByte (s : State) (k : Nat) (ty : MemTy) (a : Nat) : Byte :=
  match (s.core k).queued ty a with
  | some b => b
  | none => s.memByte k ty a

/-- The `n` bytes a load gets, as a number. -/
def State.seen (s : State) (k : Nat) (ty : MemTy) (a : Nat) : Nat → Nat
  | 0 => 0
  | n + 1 => (s.seenByte k ty a).toNat + 256 * State.seen s k ty (a + 1) n

/-- A line of memory reads poisoned (R255). -/
def State.poisoned (s : State) (k : Nat) (ty : MemTy) (a : Nat) : Bool :=
  match ty with
  | .cacheable => s.cohPoison (k / 18) (a / 64)
  | .uncached => s.isPoison (a / 64)
  | _ => false

/-- A load or atomic reads poisoned bytes: the address is recorded (R255; the spec states no status code for the entry). -/
def State.poisonLog (s : State) (a : Nat) : State :=
  let (i, s) := s.draw
  s.errLog ((Config.freeWord i).toNat % 16) srcMem none a

/-! ## Checks of an access -/

/-- What an access needs of its page. -/
inductive Need where
  | read | write | both | exec
deriving DecidableEq, Repr

/-- A page-table entry permits an access from a mode (R176). -/
def pagePermits (e : Nat) (m : Mode) (n : Need) : Bool :=
  (m != .user || bit e 62) &&
    match n with
    | .read => bit e 61
    | .write => bit e 60
    | .both => bit e 61 && bit e 60
    | .exec => bit e 59

/-- What the checks of an access find: a trap cause with the state that has recorded it, or memory type and address. -/
inductive Check where
  | trap (cause : Nat) (s : State)
  | ok (ty : MemTy) (pa : Nat)

/-- A block is gated (R418): the MEM_ registers of a core whose pair domain is in BIVOUAC. -/
def State.gated (s : State) (off : Nat) : Bool :=
  0x88000 ≤ off && off < 0x88000 + 162 * 0x40 && s.dstate ((off - 0x88000) / 0x40 / 2) == 3

/-- The local memory of a core is out of reach (R30): in retention, or its pair is gated and out of service. -/
def State.localGone (s : State) (k : Nat) : Bool := s.dstate (k / 2) == 3 || s.role (k / 2) == 5

/-- A data access to HBM: the key table is closed (R376). -/
def State.hbmCheck (s : State) (ty : MemTy) (pa : Nat) : Check :=
  if s.keyPage pa then .trap tAccess (s.count SEC_PERMFAIL 1) else .ok ty pa

/-- The checks of a data access of `n` bytes at `va`, in the order of R170 (R205). -/
def State.check (s : State) (k : Nat) (need : Need) (va n : Nat) : Check :=
  let m := (s.core k).arch.mode
  let r := region va
  let odd := va % n != 0
  if privFault m r then .trap tPriv s
  else
    match r with
    | .hbm =>
      if odd then .trap tMisaligned s
      else if m = .monitor then s.hbmCheck (if s.monUncached va then .uncached else .cacheable) va
      else
        match s.xlate k va with
        | .fault => .trap tTranslate s
        | .perm => .trap tTranslate (s.walkPerm k va)
        | .ok e =>
          if pagePermits e m need then s.hbmCheck (if bits e 57 2 = 0 then .cacheable else .uncached) (paOf e va)
          else .trap tAccess s
    | .own => if odd then .trap tMisaligned s else if s.localOk k (va - ownBase) n then .ok .loc va else .trap tLocal s
    | .core j =>
      if odd then .trap tMisaligned s
      else if !s.localOk j (va % 0x10000) n then .trap tLocal s
      else if s.localGone j then .trap tDown s
      else .ok .device va
    | .dev =>
      if n < 4 || odd || (blockAt (va - 0xF000000000)).isNone then .trap tAccess s
      else if s.gated (va - 0xF000000000) then .trap tDown s
      else .ok .device va
    | .window => if n < 4 || odd || (s.curPn k).isNone then .trap tAccess s else .ok .device va
    | .reserved => if odd then .trap tMisaligned s else .trap tAccess s

/-! ## Stores (R257) -/

/-- A store of the mode, partition and epoch under which core `k` runs (R265). -/
def State.newStore (s : State) (k : Nat) (op : StoreOp) (ty : MemTy) (va pa : Nat) (bytes : List Byte) : Store :=
  let c := s.core k
  { op := op, ty := ty, pa := pa, va := va, bytes := bytes.map some, mode := c.arch.mode, pn := c.pn, epoch := c.epoch }

/-- A store enters the pre-commit queue with its group; with 16 entries there, or in the store buffer, it waits (R204, R257,
R274). -/
def State.enqueue (s : State) (k : Nat) (st : Store) : Option State :=
  let c := s.core k
  if 16 ≤ c.preq.length || 16 ≤ c.sb.length then none
  else some (s.setCore k (CoreSt.onLast { c with preq := c.preq ++ [st] } (fun g => { g with stores := g.stores + 1 })))

/-- The bytes of a store laid over those of an older one in the same line (R257): both counted from the line's base. -/
def Store.overLine (st : Store) : List (Option Byte) :=
  List.replicate (st.pa % 64) none ++ st.bytes ++ List.replicate (64 - st.pa % 64 - st.bytes.length) none

/-- Two stores of one line merged: the younger one's bytes win. -/
def Store.merge (old new : Store) : Store :=
  { new with
    pa := new.pa / 64 * 64
    bytes := (List.zip new.overLine old.overLine).map (fun p => p.1.or p.2) }

/-- The younger store merges into the older (R257): same line, same memory type, no device region. The entry carries the mode,
PN and epoch of the younger, which the spec does not state (DESIGN CHOICE, assumption 55). -/
def Store.merges (old new : Store) : Bool :=
  old.op == .data && new.op == .data && old.ty == new.ty && new.ty != .device && old.pa / 64 == new.pa / 64

/-- The store buffer after a committed store, where it has room. -/
def pushStore (sb : List Store) (st : Store) : Option (List Store) :=
  match sb.getLast? with
  | some old => if old.merges st then some (sb.dropLast ++ [old.merge st])
    else if sb.length < 16 then some (sb ++ [st]) else none
  | none => some [st]

/-- The stores of a list that find room, in order: the store buffer, those left, those moved. -/
def moveStores : List Store → List Store → List Store × List Store × List Store
  | sb, [] => (sb, [], [])
  | sb, st :: rest =>
    match pushStore sb st with
    | some sb' => let (a, b, c) := moveStores sb' rest; (a, b, st :: c)
    | none => (sb, st :: rest, [])

end Sys2Proof.Machine
end

