-- ==== Sys2Proof/Machine/Mirror.lean ====
section
/-! DEFINITION. Slice checkpoints and the mirror area (R279 to R281), and the commit of retirement groups, which streams
local-memory stores to it (R274). -/

namespace Sys2Proof.Machine

/-- CLU_CTL.MIREN of a logical pair's cluster. -/
def State.mirrored (s : State) (l : Nat) : Bool := s.fbit (CLU_CTL (l / 8)) 0

/-- Local memory after logged stores (R279). -/
def Image.apply (i : Image) : List (Nat × Byte) → Image
  | [] => i
  | (o, b) :: rest =>
    Image.apply (if o < 0x8000 then { i with lmx := tabPut 0 i.lmx o b } else { i with lmy := tabPut 0 i.lmy (o - 0x8000) b }) rest

/-- CLU_LPs_CKPT.LOG: the log entries not applied. -/
def State.ckptLog (s : State) (l : Nat) : State :=
  let x := s.lp l
  let c := match x.closed with | some i => i.n | none => 0
  s.fset (CLU_LP_CKPT l) 0 12 (min (c + x.logN) 2048)

/-! ## The mirror area in the cluster's L2 (R279, R280) -/

/-- The mirror space of a logical pair. -/
def State.mirrorBase (s : State) (l : Nat) : Nat := s.rd64 (CLU_MIR_LO (l / 8)) + l % 8 * 0x20000

/-- Bytes written at an offset of a logical pair's mirror space by its cluster stop. -/
def State.mirrorWrite (s : State) (l ofs : Nat) (bs : List Byte) : State := s.stopWrite (s.pclOf (l / 8)) (s.mirrorBase l + ofs) bs

/-- The offset of a local-memory byte in the images: LMX at 0, LMY at 0x6000. -/
def imageOfs (o : Nat) : Nat := if o < 0x8000 then o else 0x6000 + (o - 0x8000)

/-- Both images written whole. -/
def State.mirrorImage (s : State) (l : Nat) (lmx lmy : Tab Byte) : State :=
  let bank (t : Tab Byte) : List Byte := (List.range 0x6000).map (tabGet 0 t)
  (s.mirrorWrite l 0 (bank lmx)).mirrorWrite l 0x6000 (bank lmy)

/-- Free bytes written: the form of a register image and of a log entry is not stated (assumption 2). -/
def State.mirrorFree (s : State) (l ofs n : Nat) : State :=
  let (i, s) := s.draw
  s.mirrorWrite l ofs ((List.range n).map (Config.freeByte i))

/-- The register image of a slice checkpoint, in the slot that does not hold the last one's. -/
def State.mirrorRegs (s : State) (l : Nat) : State :=
  let b := !(s.lp l).slotB
  (s.setLp l { s.lp l with slotB := b }).mirrorFree l (if b then 0xC400 else 0xC000) 1024

/-- `n` entries of 16 bytes streamed to the log. -/
def State.mirrorLog (s : State) (l : Nat) : Nat → State
  | 0 => s
  | n + 1 =>
    let p := (s.lp l).logPos
    ((s.setLp l { s.lp l with logPos := (p + 1) % 2048 }).mirrorFree l (0x10000 + 16 * p) 16).mirrorLog l n

/-- The L2 home applies the closed log interval to the mirror image (R279). -/
def State.mirrorApply (s : State) (l : Nat) : State :=
  let x := s.lp l
  match x.closed with
  | some i =>
    let m := (x.mirror.getD {}).apply i.log
    let m := match i.lm with | some (a, b) => { m with lmx := a, lmy := b } | none => m
    let s := s.setLp l { x with mirror := some { m with arch := i.arch, sl := i.sl, pn := i.pn }, closed := none }
    let s := match i.lm with
      | some (a, b) => s.mirrorImage l a b
      | none => i.log.foldl (fun (s : State) (e : Nat × Byte) => s.mirrorWrite l (imageOfs e.1) [e.2]) s
    (s.fset (CLU_LP_CKPT l) 16 16 (s.fget (CLU_LP_CKPT l) 16 16 + 1)).ckptLog l
  | none => s

/-- The local-memory bytes of a committed store, by offset. -/
def Store.logged (st : Store) : List (Nat × Byte) :=
  if st.ty = .loc then
    ((List.range st.bytes.length).filterMap (fun i =>
      match (st.bytes[i]?).join with
      | some b => some (st.pa - ownBase + i, b)
      | none => none))
  else []

/-- The context of a core at its oldest boundary: where the groups that have committed end. -/
def CoreSt.boundary (c : CoreSt) : Arch := match c.groups with | g :: _ => g.check | [] => c.arch

/-- A core's image at that boundary, with the committed stores to local memory that its store buffer still holds. -/
def CoreSt.image (c : CoreSt) (sl : Option (Arch × Nat)) : Image :=
  Image.apply { arch := c.boundary, lmx := c.lmx, lmy := c.lmy, sl := sl, pn := c.pn } (c.sb.flatMap Store.logged)

/-- A slice checkpoint of a lockstep logical pair that core `k` executes (R279); `sl` gives the context before an SLGET and
its RD, `sw` says that a window switch has put another local memory in place. The first one takes local memory as it stands. -/
def State.sliceCkpt (s : State) (l k : Nat) (sl : Option (Arch × Nat)) (sw : Bool) : State :=
  if !s.mirrored l || s.isSplit (k / 2) then s
  else
    let s := (s.mirrorApply l).mirrorRegs l
    let x := s.lp l
    let i := (s.core k).image sl
    match x.mirror with
    | none =>
      let s := (s.setLp l { x with mirror := some i, log := [], logN := 0 }).mirrorImage l i.lmx i.lmy
      (s.fset (CLU_LP_CKPT l) 16 16 (s.fget (CLU_LP_CKPT l) 16 16 + 1)).ckptLog l
    | some _ =>
      let v : Interval := { log := x.log, n := x.logN, lm := if sw then some (i.lmx, i.lmy) else none, arch := i.arch, sl := sl, pn := i.pn }
      (s.setLp l { x with closed := some v, log := [], logN := 0 }).ckptLog l

/-- Committed stores streamed to the log of the mirror area (R279). -/
def State.logStores (s : State) (k : Nat) (moved : List Store) : State :=
  match s.lpOf (k / 2) with
  | some l =>
    let here := moved.filter (fun st => st.ty == .loc)
    if !s.mirrored l || s.isSplit (k / 2) || here.isEmpty then s
    else
      let x := s.lp l
      ((s.setLp l { x with log := x.log ++ here.flatMap Store.logged, logN := x.logN + here.length }).mirrorLog l here.length).ckptLog l
  | none => s

/-- The slice checkpoint that the commit of a group brings: that of an SLGET, or the one forced at 1,024 stores (R279). -/
def State.groupCkpt (s : State) (k : Nat) (g : Group) : State :=
  match s.lpOf (k / 2) with
  | some l => if g.sl.isSome || 1024 ≤ (s.lp l).logN then s.sliceCkpt l k g.sl false else s
  | none => s

/-- The peak of the store buffer's occupancy (R267, R496). -/
def State.sbPeak (s : State) (k : Nat) : State :=
  let n := (s.core k).sb.length
  if s.fget (MEM_C_SBPEAK k) 0 5 < n then s.fset (MEM_C_SBPEAK k) 0 5 n else s

/-- The oldest closed group commits: its stores move to the store buffer, and once all of them have found room its replay entries
are freed and it is gone (R257, R274). -/
def State.commitGroup (s : State) (k : Nat) : State :=
  let c := s.core k
  match c.groups with
  | [] => s
  | g :: rest =>
    if g.n < 16 then s
    else
      let (sb, left, moved) := moveStores c.sb (c.preq.take g.stores)
      let gs := if left.isEmpty then rest else { g with stores := left.length } :: rest
      let s := ((s.setCore k { c with sb := sb, preq := left ++ c.preq.drop g.stores, groups := gs }).sbPeak k).logStores k moved
      if left.isEmpty then s.groupCkpt k g else s

/-- `n` groups commit, as far as there is room. -/
def State.commitN (s : State) (k : Nat) : Nat → State
  | 0 => s
  | n + 1 => (s.commitGroup k).commitN k n

/-- The open group is closed and every group commits, as far as the store buffer has room. -/
def State.commitAll (s : State) (k : Nat) : State :=
  (s.setCore k (s.core k).shut).commitN k (s.core k).groups.length

/-- The home writes the lines of a logical pair's image back to HBM, then its register image, at an SLGET checkpoint (R281). -/
def State.mirrorFlush (s : State) (l : Nat) : State :=
  let x := s.lp l
  match x.mirror with
  | some m =>
    if !s.mirrored l || m.sl.isNone then s
    else
      let base := s.mirrorBase l / 64
      let slot := if x.slotB == x.closed.isNone then 0x310 else 0x300
      let p := s.pclOf (l / 8)
      let s := (List.range 768).foldl (fun s i => s.writeBack p (base + i)) s
      let s := (List.range 16).foldl (fun s i => s.writeBack p (base + slot + i)) s
      s.setLp l { s.lp l with flushed := some m }
  | none => s

/-- GROUP_COMMIT. -/
def execGroupCommit (k : CoreNo) (s : State) : Host.Outcome State Fault Refusal :=
  s.live (fun s => if s.agent k && (s.core k).attempt == 0 then s.commitGroup k else s)
/-- LOG_INTERVAL_APPLY. -/
def execLogIntervalApply (lp : LpNo) (s : State) : Host.Outcome State Fault Refusal := s.live (·.mirrorApply lp)
/-- MIRROR_FLUSH. -/
def execMirrorFlush (lp : LpNo) (s : State) : Host.Outcome State Fault Refusal := s.live (·.mirrorFlush lp)

end Sys2Proof.Machine
end

