-- ==== Sys2Proof/Machine/MemSys.lean ====
section
/-! DEFINITION. The caches of a core and the home of its cluster (R243 to R255): fills and victims, GETS, GETM and PUTM, writes
of agents without a cache, changes of the L1 configuration (R245, R247), cache operations (R210). The data of a Modified line
stands in the L2's line; the L1D's entry says who owns it. -/

namespace Sys2Proof.Machine

/-! ## L1 caches -/

/-- The lines of an L1 set by their ways. -/
def setWays (t : Tab L1Line) (line : Nat) : List (Nat × L1Line) := t.filter (fun e => e.1 % 256 == line % 256)

/-- The way that a fill of `line` takes among candidate ways, the line it displaces, and the LFSR after it (R244). -/
def l1Pick (t : Tab L1Line) (lfsr line : Nat) (cand : List Nat) : Option (Nat × Option Nat × Nat) :=
  let here := setWays t line
  match cand.find? (fun w => !here.any (fun e => e.2.way == w)) with
  | some w => some (w, none, lfsr)
  | none =>
    if cand.isEmpty then none
    else
      let f := lfsrStep lfsr
      let w := cand.getD (f % cand.length) 0
      some (w, (here.find? (fun e => e.2.way == w)).map (·.1), f)

/-- A line lies in the locked code of core `k` (R245). -/
def State.inLocked (s : State) (k line : Nat) : Bool := s.ilLine k ≤ line && line < s.ilLine k + 256 * s.ilock k

/-- The sharer bits of an agent: both of a lockstep pair (R251). -/
def State.sharerBits (s : State) (k : Nat) : Nat :=
  if s.isSplit (k / 2) then 2 ^ (k % 18) else 3 * 2 ^ (k % 18 - k % 2)

/-- The agent's Modified line leaves its L1D: its data stands in the L2, which owns it again (R251). -/
def State.putm (s : State) (k line : Nat) : State :=
  let s := s.setCore k { s.core k with l1d := tabDel (s.core k).l1d line }
  let c := k / 18
  match s.l2Line c line with
  | some l =>
    if l.owner = some (k % 18) then
      s.setL2 c line { l with owner := none, dirty := true, sharers := Nat.land l.sharers (Nat.xor (2 ^ 18 - 1) (s.sharerBits k)) }
    else s
  | none => s

/-- The L1D ways that take fills: while a change runs, neither those it affects nor, where it clears L1DEN, any (R247). -/
def State.fillWays (s : State) (k : Nat) : Nat :=
  match (s.core k).change with
  | some x => if !bit x.cfg 0 then 0 else 4 - max (s.lmw k) (bits x.cfg 4 2)
  | none => 4 - s.lmw k

/-- A line is installed in the L1D of core `k`, where it has cache ways (R244, R247). -/
def State.l1dInstall (s : State) (k line : Nat) (m : Bool) : State :=
  if !s.l1den k || s.fillWays k = 0 then s
  else
    let c := s.core k
    match tabFind c.l1d line with
    | some x => s.setCore k { c with l1d := tabIns c.l1d line { x with m := m } }
    | none =>
      match l1Pick c.l1d c.dlfsr line (List.range (s.fillWays k)) with
      | some (w, victim, f) =>
        let s := match victim with
          | some v => s.putm k v
          | none => s
        let c := s.core k
        s.setCore k { c with dlfsr := f, l1d := tabIns c.l1d line { way := w, m := m } }
      | none => s

/-- A line is installed in the L1I of core `k`, in an unlocked way (R244, R245). -/
def State.l1iInstall (s : State) (k line : Nat) : State :=
  let c := s.core k
  if s.inLocked k line || (tabFind c.l1i line).isSome then s
  else
    match l1Pick c.l1i c.ilfsr line ((List.range 4).filter (fun w => s.ilock k ≤ w)) with
    | some (w, victim, f) =>
      let t := match victim with | some v => tabDel c.l1i v | none => c.l1i
      s.setCore k { c with ilfsr := f, l1i := tabIns t line { way := w, m := false } }
    | none => s

/-! ## Requests to the home (R251) -/

/-- The other agents of the cluster lose a line, or hold it no longer modified. A fill of it in flight serves the access that
missed before the recall or invalidation is answered: it arrives Shared, or not at all (R253). -/
def State.others (s : State) (k line : Nat) (keep : Bool) : State :=
  (s.withCores (s.cores.map (fun e =>
      if coreOf (k / 18) e.1 && e.1 != k then
        (e.1, { e.2 with
          l1d := match tabFind e.2.l1d line with
            | some x => if keep then tabIns e.2.l1d line { x with m := false } else tabDel e.2.l1d line
            | none => e.2.l1d
          reqs := match tabFind e.2.reqs line with
            | some r => if keep then tabIns e.2.reqs line { r with m := false } else tabDel e.2.reqs line
            | none => e.2.reqs })
      else e)))

/-- GETS: the line is supplied, a Modified copy becomes Shared, the sharer is added. -/
def State.gets (s : State) (k line : Nat) : State :=
  let c := k / 18
  let s := s.l2Fetch c line
  match s.l2Line c line with
  | some l =>
    let mine := s.sharerBits k
    if l.owner = some (k % 18) then s
    else
      let s := if l.owner.isSome then s.others k line true else s
      s.setL2 c line { l with owner := none, sharers := Nat.lor l.sharers mine, dirty := l.dirty || l.owner.isSome }
  | none => s

/-- GETM: every other copy is invalidated, the requester owns the line. -/
def State.getm (s : State) (k line : Nat) : State :=
  let c := k / 18
  let s := (s.l2Fetch c line).others k line false
  match s.l2Line c line with
  | some l =>
    let x := s.core k
    let s := match tabFind x.l1d line with
      | some e => s.setCore k { x with l1d := tabIns x.l1d line { e with m := true } }
      | none => s
    s.setL2 c line { l with owner := some (k % 18), sharers := s.sharerBits k, dirty := l.dirty || l.owner.isSome }
  | none => s

/-- A store of bytes inside one line by core `k` takes effect: in its L1D, or at the L2 home with L1DEN = 0 (R247, R251). -/
def State.cacheStore (s : State) (k a : Nat) (bs : List (Option Byte)) : State :=
  let c := k / 18
  let line := a / 64
  let s := if s.l1den k then (s.getm k line).l1dInstall k line true else (s.l2Fetch c line).dropL1 c line
  match s.l2Line c line with
  | some l =>
    let put (old : List Byte) (p : Nat × Option Byte) : List Byte := match p.2 with
      | some b => setIdx old p.1 b
      | none => old
    let data := ((List.range bs.length).map (fun i => (a % 64 + i, (bs[i]?).join))).foldl put l.data
    if s.l1den k then s.setL2 c line { l with data := data, dirty := true }
    else s.setL2 c line { l with data := data, dirty := true, sharers := 0, owner := none }
  | none => s

/-! ## Cache operations on a normal cacheable line (R210) -/

/-- ZLINE: a zeroed Modified line, without reading memory. -/
def State.zeroLine (s : State) (k line : Nat) : State :=
  let c := k / 18
  let zeros := List.replicate 64 (0 : Byte)
  let s := s.others k line false
  let s := match s.l2Line c line with
    | some l => s.setL2 c line { l with data := zeros, poisoned := false }
    | none => s.l2Install c line zeros true false
  match s.l2Line c line with
  | some l =>
    if s.l1den k then
      (s.setL2 c line { l with dirty := true, owner := some (k % 18), sharers := s.sharerBits k }).l1dInstall k line true
    else (s.dropL1 c line).setL2 c line { l with dirty := true, owner := none, sharers := 0 }
  | none => s

/-- CLEAN, INVAL and FLUSH on the cluster of core `k`. -/
def State.cacheOp (s : State) (k : Nat) (op : StoreOp) (line : Nat) : State :=
  match op with
  | .zline => s.zeroLine k line
  | .clean => s.writeBack (k / 18) line
  | .inval => s.dropLine (k / 18) line
  | .flush => s.evictLine (k / 18) line
  | .data => s

/-- IINV: the line leaves the L1I unless it lies in a locked way. -/
def State.iinv (s : State) (k line : Nat) : State :=
  if s.inLocked k line then s else s.setCore k { s.core k with l1i := tabDel (s.core k).l1i line }

/-! ## Data inputs (R271) -/

/-- The L2 reads a line for a fill (R255, R267): an error that its ECC cannot correct poisons a modified line, and a clean one is
invalidated and fetched again; MEM_CLc_L2ECC counts it. The L1D's and local memory's corrected errors are found here too
(MEM_Ck_ECC.CORR). What ECC finds is free (assumption 52). -/
def State.l2Read (s : State) (k line : Nat) : State :=
  let c := k / 18
  let (e, s) := s.ecc
  let (f, s) := s.ecc
  let s := if f = .corrected then s.countFld (MEM_C_ECC (s.coreKey k)) 0 16 else s
  match e, s.l2Line c line with
  | .corrected, some _ => s.countFld (MEM_CL_L2ECC c) 0 16
  | .uncorrectable, some l =>
    let s := s.countFld (MEM_CL_L2ECC c) 16 16
    if l.dirty || l.owner.isSome then s.setL2 c line { l with poisoned := true }
    else (s.dropLine c line).l2Fetch c line
  | _, _ => s

/-- The lines that core `k` may fetch: that of the current instruction and those up to 64 bytes beyond it (R242). -/
def State.fetchLines (s : State) (k : Nat) : List Nat :=
  let pc := (s.core k).arch.pc.toNat
  [pc, pc + 64, pc + 71].filterMap (fun va => s.fetchLine k (va % 2 ^ 48))

/-- A request to HBM takes its grant of 64 bytes (R403). -/
def State.takeHbm (s : State) (k : Nat) (r : MissReq) : State :=
  let pn := (s.core k).pn
  let c := s.hbmClass pn r
  s.charge (.hbm c) (s.hbmDemand c) pn 1

/-- What arrives at a pair's input port: a fill that the core fetches ahead or a request of its L1D waits for, or a value; it stays
in the replay buffer until its group commits. -/
def State.dataInput (s : State) (k : Nat) (i : DataIn) : State :=
  if !s.agent k then s
  else
    match i with
    | .fillI line =>
      if (s.fetchLines k).contains line.toNat then
        let s := ((s.l2Fetch (k / 18) line.toNat).l2Read k line.toNat).l1iInstall k line.toNat
        s.setCore k ((s.core k).input (.line line.toNat (s.lineData (k / 18) line.toNat)))
      else s
    | .fillD line =>
      match tabFind (s.core k).reqs line.toNat with
      | some r =>
        if r.hbm && !s.hbmTurn k r then s else
        let s := if r.hbm then s.takeHbm k r else s
        let s := s.setCore k { s.core k with reqs := tabDel (s.core k).reqs line.toNat }
        let s := ((s.l2Fetch (k / 18) line.toNat).l2Read k line.toNat).l1dInstall k line.toNat r.m
        s.setCore k ((s.core k).input (.line line.toNat (s.lineData (k / 18) line.toNat)))
      | none => s
    | .value v => s.sampled k v

/-! ## The L1 configuration (R245, R247, R268) -/

/-- MEM_Ck_ST.LAST_ST. -/
def State.memLast (s : State) (k st : Nat) : State := s.wr (MEM_C_ST (s.coreKey k)) st

/-- A write to a register of the checker copy of a lockstep pair, or while a change runs (R268): the status, 0 to go on. -/
def State.coreRegSt (s : State) (k : Nat) : Nat :=
  if !s.agent k then stState else if (s.core k).change.isSome then stBusy else 0

/-- The L1D lines in ways from `lo` on leave the cache, cleaned into the L2 (R247). -/
def State.emptyWays (s : State) (k lo : Nat) : State :=
  (((s.core k).l1d.filter (fun e => lo ≤ e.2.way)).map (·.1)).foldl (fun s line => s.putm k line) s

/-- The L1D ways from which on a new configuration leaves no cache line. -/
def State.emptyFrom (s : State) (k cfg : Nat) : Nat :=
  if s.l1den k && !bit cfg 0 then 0 else if s.lmw k < bits cfg 4 2 then 4 - bits cfg 4 2 else 4

/-- A write of MEM_Ck_L1CFG: applied at once, or after the change that L1CFG_CHANGE_DONE ends. -/
def State.l1cfg (s : State) (k v : Nat) : State :=
  let st := s.coreRegSt k
  if st ≠ 0 then s.memLast k st
  else
    let v := bits v 8 2 * 2 ^ 8 + bits v 4 2 * 2 ^ 4 + bits v 0 1
    let off := s.l1den k && !bit v 0
    let reload := bits v 8 2 != s.ilock k
    let s := s.memLast k stOk
    if s.lmw k = bits v 4 2 && !off && !reload then s.wr (MEM_C_L1CFG k) v
    else
      let s := s.emptyWays k (s.emptyFrom k v)
      s.setCore k { s.core k with change := some { cfg := v, reload := reload } }

/-- A write of MEM_Ck_ILBASE. -/
def State.ilbase (s : State) (k : Nat) (hi : Bool) (v : Nat) : State :=
  let st := s.coreRegSt k
  let s' := if hi then s.wr (MEM_C_ILBASE_HI k) (v % 8) else s.wr (MEM_C_ILBASE_LO k) (bits v 14 18 * 2 ^ 14)
  if st ≠ 0 then s.memLast k st
  else if hbmSize < (s'.ilLine k + 256 * s'.ilock k) * 64 then s.memLast k stRange
  else
    let s := s'.memLast k stOk
    if s.ilock k = 0 then s
    else s.setCore k { s.core k with change := some { cfg := s.rd (MEM_C_L1CFG k), reload := true } }

/-- The change completes: the affected ways are clean and empty, the new configuration applies, bytes beyond the converted ones are
lost, new ones read zero, and the locked ways hold the code, read through the L2. -/
def State.l1cfgDone (s : State) (k : Nat) : State :=
  match (s.core k).change with
  | some x =>
    let s := (s.emptyWays k (s.emptyFrom k x.cfg)).wr (MEM_C_L1CFG k) x.cfg
    let n := 8192 * bits x.cfg 4 2
    let c := s.core k
    let c := { c with change := none, lmx := c.lmx.filter (fun e => e.1 < n), lmy := c.lmy.filter (fun e => e.1 < n),
                      l1i := c.l1i.filter (fun e => bits x.cfg 8 2 ≤ e.2.way) }
    let s := s.setCore k c
    let line := s.ilLine k
    if x.reload then (List.range (256 * s.ilock k)).foldl (fun s i => s.l2Fetch (k / 18) (line + i)) s else s
  | none => s

/-! ## Stores that take effect (R257, R264) -/

/-- The core that issued a store under way to a configuration change: it is acknowledged when the change ends (R247). -/
def State.changeBy (s : State) (k j : Nat) : State :=
  match (s.core j).change with
  | some x => if x.by_.isNone then s.setCore j { s.core j with change := some { x with by_ := some k } } else s
  | none => s

/-- A store of core `k` to a register waits for its acknowledgement. -/
def State.unacked (s : State) (k : Nat) : Bool :=
  s.cores.any (fun e => match e.2.change with | some x => x.by_ == some k | none => false)

/-- A STORE_ERROR becomes pending; one of a partition whose epoch has changed since is stale, and is discarded (R265, R397). -/
def State.pendErr (s : State) (k : Nat) (e : StoreErr) : State :=
  if e.mode != .monitor && e.epoch != s.epoch e.pn then s.stale e.pn 5 e.epoch
  else s.setCore k { s.core k with errs := (s.core k).errs ++ [e] }

/-- A buffered store is dropped: its syndrome, the count, and a pending STORE_ERROR (R263, R264). -/
def State.storeDropped (s : State) (k : Nat) (st : Store) (cause : Nat) : State :=
  let s :=
    if s.fbit (MEM_C_SERR_HI k) 31 then s.fset (MEM_C_SERR_HI k) 30 1 1
    else
      let s := s.wr (MEM_C_SERR_LO k) (st.pa % 2 ^ 32)
      let s := s.wr (MEM_C_SERR_HI k) (2 ^ 31 + s.fget (MEM_C_SERR_HI k) 30 1 * 2 ^ 30 + cause * 2 ^ 24 + bits st.pa 32 16)
      s.wr (MEM_C_SERR_PN k) (b2n (st.mode == .monitor) * 2 ^ 31 + st.pn * 2 ^ 8 + st.epoch)
  (s.count (MEM_C_SECNT k) 1).pendErr k { va := st.va, mode := st.mode, pn := st.pn, epoch := st.epoch }

/-- A store's bytes written to own local memory. -/
def CoreSt.putStore (c : CoreSt) (o : Nat) : List (Option Byte) → CoreSt
  | [] => c
  | some b :: bs => (c.putLocal o b).putStore (o + 1) bs
  | none :: bs => c.putStore (o + 1) bs

/-- Bytes written to normal uncached memory. -/
def State.uncachedStore (s : State) (a : Nat) : List (Option Byte) → State
  | [] => s
  | some b :: bs => (s.hbmPut a b).uncachedStore (a + 1) bs
  | none :: bs => s.uncachedStore (a + 1) bs

/-- The page of a partition's store to HBM is still assigned to it (R264). -/
def State.stillOwned (s : State) (st : Store) : Bool :=
  st.ty == .loc || st.mode == .monitor || s.owner (st.pa / 0x200000) == some st.pn

/-- A store to normal memory leaves the store buffer of core `k`. -/
def State.applyStore (s : State) (k : Nat) (st : Store) : State :=
  if !s.stillOwned st then (s.storeDropped k st 3).errLog stPerm srcMem (some st.pn) st.pa
  else
    match st.ty, st.op with
    | .loc, _ => s.setCore k ((s.core k).putStore (st.pa - ownBase) st.bytes)
    | .cacheable, .data => s.cacheStore k st.pa st.bytes
    | .cacheable, op => s.cacheOp k op (st.pa / 64)
    | .uncached, .data => s.uncachedStore st.pa st.bytes
    | _, _ => s

/-- Stores to normal memory take effect in order; device-region stores are left out. -/
def State.applyStores (s : State) (k : Nat) : List Store → State
  | [] => s
  | st :: rest => (if st.ty == .device then s else s.applyStore k st).applyStores k rest

/-- The stores to local memory in the store buffer of core `k` take effect (R180: the save of local memory holds them). -/
def State.settleLocal (s : State) (k : Nat) : State :=
  let c := s.core k
  let here (st : Store) : Bool := st.ty == .loc
  let s := s.setCore k { c with sb := c.sb.filter (fun st => !here st) }
  s.applyStores k (c.sb.filter here)

/-! ## Meanings -/

/-- DATA_INPUT. -/
def execDataInput (k : CoreNo) (inp : DataIn) (s : State) : Host.Outcome State Fault Refusal := s.live (·.dataInput k inp)
/-- A request of the L1D of core `k` takes one of its 8 miss buffers; the fill is in flight from then on (R243, R253). A core with
no L1D, one whose miss buffers are full, and a partition with QLIM HBM requests outstanding send none (R402). A request to a cluster that is not in RUN wakes it (R418). -/
def State.request (s : State) (k line : Nat) (m : Bool) (f : State → State) : State :=
  let hbm := (s.l2Line (k / 18) line).isNone
  let pn := (s.core k).pn
  let d := clusterDom (k / 2)
  if s.agent k && s.dstate d ≠ 0 then s.wake d 0
  else if !s.agent k || !s.l1den k || 8 ≤ (s.core k).reqs.length || (hbm && bits (s.part pn).qhbm 16 8 ≤ s.hbmOut pn) then s
  else
    let s := f s
    s.setCore k { s.core k with reqs := tabIns (s.core k).reqs line { m := m, hbm := hbm, epoch := s.arb.epochs } }

/-- GETS: an L1D read miss. -/
def execGets (k : CoreNo) (line : BitVec 29) (s : State) : Host.Outcome State Fault Refusal :=
  s.live (fun s => s.request k line.toNat false (·.gets k line.toNat))
/-- GETM: an L1D write or ZLINE miss. -/
def execGetm (k : CoreNo) (line : BitVec 29) (s : State) : Host.Outcome State Fault Refusal :=
  s.live (fun s => s.request k line.toNat true (·.getm k line.toNat))
/-- PUTM: an M line is evicted. -/
def execPutm (k : CoreNo) (line : BitVec 29) (s : State) : Host.Outcome State Fault Refusal :=
  s.live (fun s => if s.agent k then s.putm k line.toNat else s)
/-- NON_CACHING_WRITE (R252). -/
def execNonCachingWrite (agent : WriteAgent) (addr : BitVec 35) (data : List (BitVec 8)) (s : State) :
    Host.Outcome State Fault Refusal :=
  s.live (fun s =>
    let bs := data.take (hbmSize - addr.toNat)
    match agent with
    | .clusterStop c => s.stopWrite c addr.toNat bs
    | .pcie => if s.keyPage addr.toNat then s else s.agentWrite addr.toNat bs
    | .other => s.agentWrite addr.toNat bs)
/-- L1CFG_WRITE. -/
def execL1cfgWrite (k : CoreNo) (v : BitVec 32) (s : State) : Host.Outcome State Fault Refusal := s.live (·.l1cfg k v.toNat)
/-- ILBASE_WRITE. -/
def execIlbaseWrite (k : CoreNo) (hi : Bool) (v : BitVec 32) (s : State) : Host.Outcome State Fault Refusal :=
  s.live (·.ilbase k hi v.toNat)
/-- L1CFG_CHANGE_DONE. -/
def execL1cfgChangeDone (k : CoreNo) (s : State) : Host.Outcome State Fault Refusal := s.live (·.l1cfgDone k)

end Sys2Proof.Machine
end

