-- ==== Sys2Proof/Machine/Trig.lean ====
section
/-! DEFINITION. The trigger operations SLGET, DECIDE, TSNOW and DLREM (R231 to R236), and the DEADLINE warning (R173). -/

namespace Sys2Proof.Machine

/-- The key of a notice of partition `pn` with agent `a`. -/
def takenKey (a pn : Nat) : Nat := a * 2048 + pn

/-- The agent releases the entry it holds of a partition's queue (R139). -/
def State.releaseHeld (s : State) (a pn : Nat) : State :=
  match tabFind s.taken (takenKey a pn) with
  | some t =>
    if !t.held then s
    else
      let s := s.withTaken (tabIns s.taken (takenKey a pn) { t with held := false })
      match (s.sub pn).entries.find? (fun q => q.takenBy == some a && q.sn == t.sn) with
      | some q => s.releaseEntry pn q.slot
      | none => s
  | none => s

/-- The outcomes of SLGET (R232). -/
inductive SlOut where
  | status (st : Nat) | none | notice (words : List Word)
deriving DecidableEq, Repr

/-- The untaken notices of a partition's queue, oldest first, each with its place in the queue. -/
def untaken (es : List QEntry) : List (Nat × QEntry) := ((List.range es.length).zip es).filter (fun e => e.2.takenBy.isNone)

/-- The untaken notice number `n` of a partition's queue is taken by an agent; 0 is the oldest. -/
def State.takeNotice (s : State) (a pn n : Nat) : State × SlOut :=
  let x := s.sub pn
  match (untaken x.entries)[n]? with
  | some (i, q) =>
    let s := s.setSub pn { x with entries := setIdx x.entries i { q with takenBy := some a } }
    let str := s.subStr pn
    let fin := (q.words.getD 1 0).toNat / 16
    let t : Taken := { pn := pn, sn := q.sn, stream := str, cutoff := fin + s.strD str - cutC s.period, held := true, warned := false }
    ((s.withTaken (tabIns s.taken (takenKey a pn) t)), .notice q.words)
  | none => (s, .none)

/-- The cluster stop has served an agent. -/
def State.servedLast (s : State) (cl a : Nat) : State := s.setCluster cl { s.cluster cl with served := some (a / 2) }

/-- The subscription of a partition delivers, and the partition runs. -/
def State.delivering (s : State) (pn : Nat) : Bool :=
  let ctl := s.rd (SLC_SUB_CTL pn)
  bit ctl 31 && subDelivers ctl && s.pstate pn == 2

/-- The agents of a cluster whose SLGET waits for a notice of a partition. -/
def State.waiters (s : State) (cl pn : Nat) : List Nat :=
  (s.cores.filter (fun e =>
    e.1 / 18 == cl && e.2.pn == pn && s.agent e.1 && (match e.2.wait with | .slget _ => true | _ => false))).filterMap
    (fun e => s.agentNo e.1)

/-- An agent's place in the order in which the cluster stop serves requests: ascending logical pairs after the one it served
last (R233). -/
def State.serveKey (s : State) (cl a : Nat) : Nat := (a / 2 + 63 - ((s.cluster cl).served.getD 63)) % 64 * 2 + a % 2

/-- No other waiting agent comes before agent `a`. -/
def State.nextServed (s : State) (cl pn a : Nat) : Bool := (s.waiters cl pn).all (fun b => Nat.ble (s.serveKey cl a) (s.serveKey cl b))

/-- What the cluster stop answers to an SLGET of core `k` (R232, R233). A notice for which another agent waits already is
assigned to that one. -/
def State.slgetAsk (s : State) (k : Nat) : State × SlOut :=
  let c := s.core k
  let pn := c.pn
  match s.agentNo k with
  | none => (s, .none)
  | some a =>
    if c.epoch ≠ s.epoch pn then (s.stale pn 2 c.epoch, .status stEpoch)
    else if !s.delivering pn then (s, .status stState)
    else if s.subCl pn ≠ a / 16 then (s, .status stConflict)
    else
      let w := (s.waiters (k / 18) pn).length
      match s.takeNotice a pn w with
      | (s, .notice ws) => (if w = 0 then s.servedLast (k / 18) a else s, .notice ws)
      | r => r

/-- The context after an SLGET that ends: four registers, Z and N, C and V zero (R232). -/
def Arch.slgetEnd (a : Arch) (rd : Nat) (o : SlOut) : Arch :=
  let put (a : Arch) (w0 w1 w2 w3 : Word) (z n : Bool) : Arch :=
    ((((a.setGr rd w0).setGr (rd + 1) w1).setGr (rd + 2) w2).setGr (rd + 3) w3).setFlg
      { a.flg with z := z, n := n, c := false, v := false }
  match o with
  | .status st => put a (BitVec.ofNat 64 st) 0 0 0 false true
  | .none => put a 0 0 0 0 false false
  | .notice w => put a (w.getD 0 0) (w.getD 1 0) (w.getD 2 0) (w.getD 3 0) true false

/-- An SLGET of core `k` ends with an outcome: its result is sampled, its group carries the context before it (R271, R279). -/
def State.slgetGot (s : State) (k rd : Nat) (o : SlOut) : State :=
  let c := s.core k
  let words := match o with | .notice w => w | _ => []
  let d := (words.foldl (fun (c : CoreSt) w => c.input (.word w)) c).onLast (fun g => { g with sl := some (c.arch, rd) })
  s.setCore k { d with arch := c.arch.slgetEnd rd o }

/-- SLGET on core `k` (R232): the release of the held entry, then the outcome. -/
def State.slget (s : State) (k rd : Nat) (wait : Bool) : State × Ends :=
  let s := s.ownGroup k
  let c := s.core k
  let s := match s.agentNo k with
    | some a => s.releaseHeld a c.pn
    | none => s
  match s.slgetAsk k with
  | (s, .none) =>
    if wait then (s.setCore k { s.core k with wait := .slget rd }, .stall) else (s.slgetGot k rd .none, .seq)
  | (s, o) => (s.slgetGot k rd o, .seq)

/-- SLGET (R231, R232). -/
def execSlget (k : CoreNo) (rd : Gr) (wait : Bool) (s : State) : Host.Outcome State Fault Refusal :=
  s.instrState k 4 (fun s =>
    if slgetOk rd then s.slget k rd wait else (s, .trap tIllegal (firstWord (.slget k rd wait))))

/-- The notice that the cluster stop gives the waiting SLGET of core `k`, where one is there and no other agent comes before it
(R232, R233). -/
def State.slgetServed (s : State) (k : Nat) : State × SlOut :=
  let c := s.core k
  match s.agentNo k with
  | none => (s, .none)
  | some a =>
    if c.epoch = s.epoch c.pn && s.delivering c.pn && s.subCl c.pn = a / 16 && s.nextServed (k / 18) c.pn a then
      match s.takeNotice a c.pn 0 with
      | (s, .notice w) => (s.servedLast (k / 18) a, .notice w)
      | r => r
    else (s, .none)

/-- A waiting SLGET ends (R232): with a notice, or without effect where an event is delivered; a window switch that preempts it
ends it too. -/
def State.slgetWake (s : State) (k : Nat) : State :=
  match (s.core k).wait with
  | .slget rd =>
    match s.slgetServed k with
    | (s', .notice w) =>
      let before := (s'.core k).arch
      let s' := s'.setCore k { s'.core k with wait := .run }
      (s'.slgetGot k rd (.notice w)).endInstr k 4 before .seq
    | _ =>
      if (s.deliverable k).isSome then s.setCore k (CoreSt.shut { s.core k with wait := .run }) else s
  | _ => s

/-- SLGET_WAKE. -/
def execSlgetWake (k : CoreNo) (s : State) : Host.Outcome State Fault Refusal :=
  s.live (fun s => if s.awake k then s.slgetWake k else s)

/-- DECIDE on core `k` (R234): the local outcome, and the message. -/
def State.decide (s : State) (k : Nat) (rd : Nat) (ra rb : Word) : State :=
  let s := s.ownGroup k
  let c := s.core k
  let pn := c.pn
  let sn := ra.toNat % 2 ^ 48
  let put (s : State) (st : Nat) : State :=
    let s := s.sampled k (BitVec.ofNat 64 st)
    s.setCore k { s.core k with arch := c.arch.setGr rd (BitVec.ofNat 64 st) }
  if !s.subEn pn then put s stState
  else
    let ok := match s.curSn (s.subStr pn) with
      | some cur => snRel sn cur != .outside
      | none => false
    if !ok then put s stRange
    else
      let m : DecMsg := { pn := pn, epoch := c.epoch, sn := sn, ty := rb.toNat % 256 }
      let cl := k / 18
      let s := s.setCluster cl { s.cluster cl with decq := (s.cluster cl).decq ++ [m] }
      let s := match s.agentNo k with
        | some a =>
          match tabFind s.taken (takenKey a pn) with
          | some t => if t.held && t.sn == sn then s.releaseHeld a pn else s
          | none => s
        | none => s
      put s stOk

/-- DECIDE. -/
def execDecide (k : CoreNo) (rd ra rb : Gr) (s : State) : Host.Outcome State Fault Refusal :=
  s.instrState k 4 (fun s =>
    let a := (s.core k).arch
    (s.decide k rd (a.gr ra) (a.gr rb), .seq))

/-- TSNOW: the tick number of the last edge delivered to the cluster (R50). -/
def execTsnow (k : CoreNo) (rd : Gr) (s : State) : Host.Outcome State Fault Refusal :=
  s.instrState k 4 (fun s =>
    let v := BitVec.ofNat 64 (s.time.tick * 16)
    let s := s.sampled k v
    let c := s.core k
    (s.setCore k { c with arch := c.arch.setGr rd v }, .seq))

/-- The ticks left to the cut-off of the last notice that core `k` took for the running partition, MIN for none (R50, R236). -/
def State.dlrem (s : State) (k : Nat) : Int :=
  match s.agentNo k with
  | some a =>
    match tabFind s.taken (takenKey a (s.core k).pn) with
    | some t => (t.cutoff : Int) - s.time.tick - 1
    | none => -(2 ^ 63 : Nat)
  | none => -(2 ^ 63 : Nat)

/-- DLREM. -/
def execDlrem (k : CoreNo) (rd : Gr) (s : State) : Host.Outcome State Fault Refusal :=
  s.instrState k 4 (fun s =>
    let v := BitVec.ofInt 64 (s.dlrem k)
    let s := s.sampled k v
    let c := s.core k
    (s.setCore k { c with arch := c.arch.setGr rd v }, .seq))

/-- DLREM of a held notice falls to DLWARN: DEADLINE becomes pending, once for each notice (R173). -/
def State.deadlineWarn (s : State) (k : Nat) : State :=
  let c := s.core k
  match s.agentNo k with
  | some a =>
    match tabFind s.taken (takenKey a c.pn) with
    | some t =>
      if s.agent k && s.curPn k == some c.pn && c.arch.ctl 3 && t.held && !t.warned && s.dlrem k ≤ (c.arch.csrf 0x409 0 12 : Int) then
        let s := s.withTaken (tabIns s.taken (takenKey a c.pn) { t with warned := true })
        s.setCore k { c with dlines := c.dlines ++ [t.sn] }
      else s
    | none => s
  | none => s

/-- DEADLINE_WARNING. -/
def execDeadlineWarning (k : CoreNo) (s : State) : Host.Outcome State Fault Refusal := s.live (·.deadlineWarn k)

end Sys2Proof.Machine
end

