-- ==== Sys2Proof/Machine/Sys.lean ====
section
/-! DEFINITION. The system instructions (R237 to R239): control registers (R158 to R161, R177), ECALL and BREAK, the return
from traps, WFI; illegal words (R188) and the delivery of events (R171). -/

namespace Sys2Proof.Machine

/-! ## Control registers -/

/-- The bits of a control register that a CSRW writes; none for a number that is undefined or read-only (R160). -/
def csrMask (n : Nat) : Option Nat :=
  if n = 0x000 then some 0x3F
  else if 0x010 ≤ n && n < 0x018 then some (2 ^ 48 - 4)
  else if 0x018 ≤ n && n < 0x01C then some (2 ^ 32 - 1)
  else if n = 0x01C then some 0x7
  else if n = 0x020 || n = 0x022 then some (2 ^ 48 - 1)
  else if n = 0x021 || n = 0x023 then some (2 ^ 32 - 1)
  else if 0x030 ≤ n && n < 0x038 then some (if n % 2 = 0 then 2 ^ 64 - 1 else 2 ^ 32 - 1)
  else if n = 0x400 then some 0xF
  else if n = 0x401 || n = 0x800 then some 0xE73
  else if n = 0x402 || n = 0x801 then some (2 ^ 48 - 0x1000)
  else if n = 0x403 || n = 0x802 then some (2 ^ 48 - 4)
  else if n = 0x404 || n = 0x803 then some (2 ^ 63 + 0xFF)
  else if n = 0x405 || n = 0x406 || n = 0x804 || n = 0x805 then some (2 ^ 64 - 1)
  else if n = 0x407 then some 0xF
  else if n = 0x409 then some 0xFFF
  else if n = 0x40A then some (2 ^ 60 - 1)
  else if 0x410 ≤ n && n < 0x420 then some (2 ^ 63 + 0x3FFF)
  else if n = 0x806 then some 0xFFFE
  else if n = 0x807 then some 0x7
  else none

/-- The read-only control registers (R160). -/
def csrReadOnly (n : Nat) : Bool :=
  [0x408, 0x40B, 0x808, 0xC00, 0xC01, 0xC10, 0xC11, 0xF00, 0xF01, 0xF02, 0xF03].contains n

/-- A control-register number is defined. -/
def csrDefined (n : Nat) : Bool := (csrMask n).isSome || csrReadOnly n

/-- A mode may access a control register: bits [11:10] of its number (R159). -/
def csrAllowed (m : Mode) (n : Nat) : Bool :=
  match bits n 10 2 with
  | 1 => m != .user
  | 2 => m == .monitor
  | _ => true

/-- The value places a reserved encoding in a field: DEPTH 5 to 7, PMODE 0b10 (R159, R160). -/
def csrReserved (n v : Nat) : Bool := (n == 0x01C && 4 < v % 8) || ((n == 0x401 || n == 0x800) && bits v 5 2 == 2)

/-- PAIRID of core `k` (R160). -/
def State.pairId (s : State) (k : Nat) : Nat :=
  let split := s.isSplit (k / 2)
  (s.lpOf (k / 2)).getD 0 * 2 ^ 8 + b2n split * 2 ^ 4 + (if split then k % 2 else 0)

/-- A mask of the numbers below `n` that pass a test. -/
def maskOf (p : Nat → Bool) : Nat → Nat
  | 0 => 0
  | n + 1 => maskOf p n + b2n (p n) * 2 ^ n

/-- FEAT0 to FEAT3 (R2, R161). -/
def State.feat (s : State) (i : Nat) : Nat :=
  let gone (d : Nat) : Bool := s.nvs.retired.contains d
  match i with
  | 0 => 0x02 * 2 ^ 24 + 100 * 2 ^ 16 + (if Config.speedF then 1 else 2) * 2 ^ 8 + cclkNom
  | 1 =>
    let ce := maskOf (fun k => !gone (90 + k)) 16
    let eth := maskOf (fun p => !gone (122 + 2 * p) && !gone (123 + 2 * p)) 2
    let pcie := !(gone 126 || gone 127 || gone 128 || gone 129)
    ce * 2 ^ 32 + ce * 2 ^ 16 + b2n pcie * 2 ^ 3 + eth * 2 + 1
  | 2 => 48 * 2 ^ 24 + 64 * 2 ^ 16 + 4 * 2 ^ 12 + 4 * 2 ^ 8 + 2 ^ 7 + 2 ^ 6 + 2 ^ 5
  | _ =>
    let insvc := ((List.range 64).filter (fun l => s.fbit (CLU_LP_MAP l) 31)).length
    let rcl := s.fget CLU_SP_ST 16 3 < 2
    insvc * 2 ^ 24 + b2n rcl * 2 ^ 16 + maskOf (fun c => s.fbit (CLU_RSV c) 15) 8

/-- The control registers whose reads are data inputs (R271). -/
def csrSampled (n : Nat) : Bool := n == 0x408 || n == 0x808 || n == 0x40B || n == 0xC11 || 0xF00 ≤ n

/-- The value that a CSRR of core `k` returns (R158 to R161). CYCLE counts from 0 the cycles of the core, which the model has no
clock for: between two reads it advances by a free number (assumption 2). -/
def State.csrValue (s : State) (k n : Nat) : Word × State :=
  let c := s.core k
  let a := c.arch
  if 0x030 ≤ n && n < 0x038 then
    let v := a.accv ((n - 0x030) / 2)
    ((if n % 2 = 0 then v.truncate 64 else sextW (v.extractLsb' 64 32)), s)
  else if n = 0x408 then (BitVec.ofNat 64 (s.ipend k), s)
  else if n = 0x40B then (BitVec.ofNat 64 (s.wrem k), s)
  else if n = 0x808 then (BitVec.ofNat 64 s.mipend, s)
  else if n = 0xC00 then
    let (i, s) := s.draw
    let v := a.csrv 0xC00 + Config.freeWord i
    (v, s.setCore k { c with arch := a.setCsrv 0xC00 v })
  else if n = 0xC01 then (a.csrv 0xC01, s)
  else if n = 0xC10 then (BitVec.ofNat 64 (s.pairId k), s)
  else if n = 0xC11 then (BitVec.ofNat 64 (c.pn * 2 ^ 8 + c.epoch), s)
  else if 0xF00 ≤ n then (BitVec.ofNat 64 (s.feat (n - 0xF00)), s)
  else (a.csrv n, s)

/-- The context after a write of a control register other than TLBLn (R158, R238). -/
def Arch.csrWrite (a : Arch) (n v : Nat) : Arch :=
  if 0x030 ≤ n && n < 0x038 then
    let i := (n - 0x030) / 2
    let old := (a.accv i).toNat
    a.setAcc i (BitVec.ofNat 96 (if n % 2 = 0 then putBits old 0 64 v else putBits old 64 32 v))
  else a.setCsrv n (BitVec.ofNat 64 v)

/-- A write of a control register by core `k` (R159, R177): the state after it, or a trap cause with its value. -/
def State.csrPut (s : State) (k n v : Nat) (word : Word) : State × Option (Nat × Word) :=
  let c := s.core k
  match csrMask n with
  | none => (s, some (tIllegal, word))
  | some m =>
    let v := Nat.land v m
    if csrReserved n v then (s, some (tIllegal, word))
    else if !csrAllowed c.arch.mode n then (s, some (tPriv, word))
    else if 0x410 ≤ n && n < 0x420 && bit v 63 then
      let va := v % 0x4000 * 0x200000
      match s.walk c.pn va with
      | .ok e =>
        let a := c.arch.csrWrite n v
        (s.setCore k { c with arch := { a with tlb := tabPut 0 a.tlb (n - 0x410) (BitVec.ofNat 64 e) } }, none)
      | .fault => (s, some (tTranslate, BitVec.ofNat 64 va))
      | .perm => (s.walkPerm k va, some (tTranslate, BitVec.ofNat 64 va))
    else (s.setCore k { c with arch := c.arch.csrWrite n v }, none)

/-- CSRR. -/
def execCsrr (k : CoreNo) (rd : Gr) (csr : BitVec 12) (s : State) : Host.Outcome State Fault Refusal :=
  s.instrState k 4 (fun s =>
    let word := firstWord (.csrr k rd csr)
    if !csrDefined csr.toNat then (s, .trap tIllegal word)
    else if !csrAllowed (s.core k).arch.mode csr.toNat then (s, .trap tPriv word)
    else
      let (v, s) := s.csrValue k csr.toNat
      let s := if csrSampled csr.toNat then s.sampled k v else s
      let c := s.core k
      (s.setCore k { c with arch := c.arch.setGr rd v }, .seq))

/-- CSRW. -/
def execCsrw (k : CoreNo) (csr : BitVec 12) (ra : Gr) (s : State) : Host.Outcome State Fault Refusal :=
  s.instrState k 4 (fun s =>
    match s.csrPut k csr.toNat ((s.core k).arch.gr ra).toNat (firstWord (.csrw k csr ra)) with
    | (s', some (c, v)) => (s', .trap c v)
    | (s', none) => (s'.closeGroup k, .seq))

/-- CSRRW: one access. A register that it may write is none whose read changes the state. -/
def execCsrrw (k : CoreNo) (rd : Gr) (csr : BitVec 12) (ra : Gr) (s : State) : Host.Outcome State Fault Refusal :=
  s.instrState k 4 (fun s =>
    let old := (s.csrValue k csr.toNat).1
    match s.csrPut k csr.toNat ((s.core k).arch.gr ra).toNat (firstWord (.csrrw k rd csr ra)) with
    | (s', some (c, v)) => (s', .trap c v)
    | (s', none) =>
      let s' := s'.closeGroup k
      let c := s'.core k
      (s'.setCore k { c with arch := c.arch.setGr rd old }, .seq))

/-! ## Traps and waits -/

/-- ECALL. -/
def execEcall (k : CoreNo) (s : State) : Host.Outcome State Fault Refusal := s.instrArch k 4 (fun a => (a, .trap tEcall 0))
/-- BREAK. -/
def execBrk (k : CoreNo) (s : State) : Host.Outcome State Fault Refusal := s.instrArch k 4 (fun a => (a, .trap tBreak 0))

/-- TRET (R172, R238). A PDEPTH above 4 names no depth: the depth is then free (assumption 2). -/
def State.tret (s : State) (k : CoreNo) : State × Ends :=
  let c := s.core k
  let a := c.arch
  let m := a.mode
  let w := (a.csrv m.stat).toNat
  let word := firstWord (.tret k)
  if m = .user || m.code < bits w 5 2 then (s, .trap tPriv word)
  else
    let (d, s) := if bits w 9 3 ≤ 4 then (bits w 9 3, s) else (let (i, s) := s.draw; ((Config.freeWord i).toNat % 5, s))
    let a := a.tret m d
    ((s.setCore k { c with arch := a }).closeGroup k, .jump a.pc.toNat)

/-- TRET. -/
def execTret (k : CoreNo) (s : State) : Host.Outcome State Fault Refusal := s.instrState k 4 (fun s => s.tret k)

/-- A wake condition of WFI holds (R239): an enabled interrupt source, or a pending asynchronous trap. -/
def State.wfiEnds (s : State) (k : Nat) : Bool := s.wakesWfi k || (s.storeErr k).isSome || !(s.core k).dlines.isEmpty

/-- WFI: it waits where no wake condition holds. -/
def execWfi (k : CoreNo) (s : State) : Host.Outcome State Fault Refusal :=
  s.instrState k 4 (fun s =>
    let c := s.core k
    if c.arch.mode = .user then (s, .trap tPriv (firstWord (.wfi k)))
    else if s.wfiEnds k || c.wait == .oneStep then (s.closeGroup k, .seq)
    else ((s.setCore k { c with wait := .wfi }).closeGroup k, .seq))

/-- WFI_WAKE: the core goes on with the next instruction. -/
def execWfiWake (k : CoreNo) (s : State) : Host.Outcome State Fault Refusal :=
  s.live (fun s =>
    if s.awake k && (s.core k).wait == .wfi && s.wfiEnds k then s.setCore k { s.core k with wait := .run } else s)

/-- ILLEGAL_INSTR: a word that is no instruction; a word that is one does not make this event (R188). -/
def execIllegalInstr (k : CoreNo) (w : BitVec 32) (s : State) : Host.Outcome State Fault Refusal :=
  s.instrState k 4 (fun s =>
    if illegalWord k w.toNat then (s, .trap tIllegal (BitVec.ofNat 64 w.toNat)) else (s, .stall))

/-- EVENT_DELIVERY. -/
def execEventDelivery (k : CoreNo) (s : State) : Host.Outcome State Fault Refusal := s.live (·.deliverEvent k)

/-- STIMER_MATCH: the tick counter has reached STIMER, which IPEND.TIMER shows from then on; the comparison is a wake source of
the pair (R160, R440). -/
def execStimerMatch (k : CoreNo) (s : State) : Host.Outcome State Fault Refusal :=
  s.live (fun s =>
    if s.agent k && ((s.core k).arch.csrv 0x40A).toNat ≤ s.time.tick then s.wake (k / 2) 2 else s)

end Sys2Proof.Machine
end

