-- ==== Sys2Proof/Machine/Sparing.lean ====
section
/-! DEFINITION. Windows and contexts (R179, R180), instruction retry (R275 to R278), pair takeover (R282 to R286), cluster
failover (R287 to R289). -/

namespace Sys2Proof.Machine

/-! ## Contexts (R180, R395) -/

/-- The context in which a partition starts on a pair (R395). -/
def State.freshImage (s : State) (pn : Nat) : Image :=
  { arch := { mode := .supervisor, pc := BitVec.ofNat 48 (s.rd64 (PRT_ENTRY_LO pn)), csr := [(0x40A, 0)] }, pn := pn }

/-- The key of the context of a partition on a half of a pair. -/
def ctxKey (half pn : Nat) : Nat := half * 2048 + pn

/-- The cores of a pair that act, with their halves. -/
def State.halves (s : State) (pp : Nat) : List (Nat × Nat) :=
  if s.isSplit pp then [(0, 2 * pp), (1, 2 * pp + 1)] else [(0, 2 * pp)]

/-- Every group of the acting cores of a pair commits, as far as their store buffers have room. -/
def State.commitPair (s : State) (pp : Nat) : State := (s.halves pp).foldl (fun (s : State) h => s.commitAll h.2) s

/-- A store of a pair still waits for its commit. -/
def State.uncommitted (s : State) (pp : Nat) : Bool := (s.halves pp).any (fun h => !(s.core h.2).preq.isEmpty)

/-- The save phase on one core, whose groups have committed: local memory takes its stores, the context is saved. -/
def State.saveHalf (s : State) (l pn : Nat) (h : Nat × Nat) : State :=
  let s := s.settleLocal h.2
  let c := s.core h.2
  let x := s.lp l
  let i : Image := { arch := c.arch, lmx := c.lmx, lmy := c.lmy, pn := pn, dlines := c.dlines,
                     cfg := some (s.rd (MEM_C_L1CFG h.2), s.rd64 (MEM_C_ILBASE_LO h.2)) }
  s.setLp l { x with ctx := tabIns x.ctx (ctxKey h.1 pn) i }

/-- A core runs an image for a partition, at the partition's epoch. It keeps no unlocked translation (R180). -/
def State.runImage (s : State) (k pn : Nat) (i : Image) : State :=
  let c := s.core k
  s.setCore k { c with arch := i.arch, lmx := i.lmx, lmy := i.lmy, dlines := i.dlines, pn := pn, epoch := s.epoch pn,
                       wait := .run, groups := [], inbuf := [], attempt := 0, utlb := [] }

/-- The configuration under which an image ran comes into force on a core, its locked instruction ways hold its code (R180, R245,
R247). An image that has run nowhere has none, and the core's stays: the spec does not say whose configuration a fresh context
gets (DESIGN CHOICE, assumption 56). -/
def State.loadConfig (s : State) (k : Nat) (i : Image) : State :=
  match i.cfg with
  | none => s
  | some (cfg, base) =>
    let s := ((s.emptyWays k (s.emptyFrom k cfg)).wr (MEM_C_L1CFG k) cfg).wr64 (MEM_C_ILBASE_LO k) base
    let s := s.setCore k { s.core k with l1i := (s.core k).l1i.filter (fun e => bits cfg 8 2 ≤ e.2.way) }
    let line := s.ilLine k
    (List.range (256 * s.ilock k)).foldl (fun (s : State) n => s.l2Fetch (k / 18) (line + n)) s

/-- The load phase on one core. -/
def State.loadHalf (s : State) (l pn : Nat) (h : Nat × Nat) : State :=
  let i := (tabFind (s.lp l).ctx (ctxKey h.1 pn)).getD (s.freshImage pn)
  (s.loadConfig h.2 i).runImage h.2 pn i

/-- An IDLE window runs no partition: PART reads 0, the mode is Monitor. -/
def State.idleHalf (s : State) (h : Nat × Nat) : State :=
  let c := s.core h.2
  s.setCore h.2 { c with arch := { c.arch with mode := .monitor }, dlines := [], pn := 0, epoch := 0, wait := .run,
                         groups := [], inbuf := [], utlb := [] }

/-! ## Registers of a pair -/

/-- The fields of PAI_ST but LAST_ST. -/
def State.setPair (s : State) (pp role : Nat) (split : Bool) (lp : Option Nat) : State :=
  let v := match lp with | some l => 2 ^ 22 + l * 2 ^ 16 | none => 0
  s.wr (PAI_ST pp) (role * 2 ^ 29 + b2n split * 2 ^ 28 + v + s.fget (PAI_ST pp) 0 8)

/-- The MEM_ configuration and seeds of one core copied to another (R282). -/
def State.copyCoreRegs (s : State) (src dst : Nat) : State :=
  let s := (s.wr (MEM_C_L1CFG dst) (s.rd (MEM_C_L1CFG src))).wr (MEM_C_ILBASE_LO dst) (s.rd (MEM_C_ILBASE_LO src))
  let s := (s.wr (MEM_C_ILBASE_HI dst) (s.rd (MEM_C_ILBASE_HI src))).wr (MEM_C_SEED dst) (s.rd (MEM_C_SEED src))
  let c := s.core dst
  s.setCore dst { c with dlfsr := s.fget (MEM_C_SEED dst) 0 16, ilfsr := s.fget (MEM_C_SEED dst) 16 16, l1d := [], l1i := [] }

/-- The configuration of both cores of a pair copied to another pair. -/
def State.copyPairRegs (s : State) (src dst : Nat) : State :=
  (s.copyCoreRegs (2 * src) (2 * dst)).copyCoreRegs (2 * src + 1) (2 * dst + 1)

/-- CLU_LPs_MAP.STATE. -/
def State.setLpState (s : State) (l v : Nat) : State := s.fset (CLU_LP_MAP l) 28 3 v
/-- CLU_LPs_MAP.PEND. -/
def State.pend (s : State) (l : Nat) : Nat := s.fget (CLU_LP_MAP l) 24 3
def State.setPend (s : State) (l v : Nat) : State := s.fset (CLU_LP_MAP l) 24 3 v
/-- CLU_LPs_MAP.SPLIT. -/
def State.lpSplit (s : State) (l : Nat) : Bool := s.fbit (CLU_LP_MAP l) 27

/-- The logical pair fills no pair: EMPTY (R285). A split or join that waits for one of its switches ends with ST_STATE, since it is
in service no longer: the spec states no outcome (DESIGN CHOICE, assumption 57). -/
def State.emptyLp (s : State) (l : Nat) : State :=
  let s := if s.fbit (CLU_CMD_ST (l / 8)) 8 && s.pend l % 4 ≠ 0 then s.wr (CLU_CMD_ST (l / 8)) stState else s
  let s := ((s.fset (CLU_LP_MAP l) 31 1 0).setLpState l 3).setPend l 0
  s.setLp l { s.lp l with cur := none, tk := none, exch := none }

/-- The domain of a unit that is gated without retention (R286). -/
def State.gateDomain (s : State) (d : Nat) : State :=
  ((s.fset (PWR_D_ST d) 0 2 3).fset (PWR_D_ST d) 4 2 0).setDom d { s.dom d with latch := [], waiting := [] }

/-! ## Split, join and exchange at a switch (R290 to R293) -/

/-- CLU_CMD_ST after the command that was pending. -/
def State.cluCmdEnds (s : State) (c st : Nat) : State := s.wr (CLU_CMD_ST c) st

/-- Both halves of a split start with the same contexts; the second core takes the configuration of the first. -/
def State.doSplit (s : State) (l pp : Nat) : State :=
  let s := s.emptyWays (2 * pp) 0
  let s := s.copyCoreRegs (2 * pp) (2 * pp + 1)
  let x := s.lp l
  let twice (t : Tab Image) : Tab Image := t ++ t.map (fun e => (2048 + e.1, e.2))
  let s := s.setLp l { x with ctx := twice x.ctx, hbmCtx := twice x.hbmCtx, mirror := none, log := [], logN := 0,
                              closed := none, flushed := none }
  let s := (s.setPair pp 0 true (some l)).fset (CLU_LP_MAP l) 27 1 1
  (s.setPend l (s.pend l - 1)).cluCmdEnds (l / 8) stOk

/-- Half 1 of a logical pair holds no notice (R292). -/
def State.half1Free (s : State) (l : Nat) : Bool :=
  s.taken.all (fun e => e.1 / 2048 != 2 * l + 1 || !e.2.held)

/-- A join keeps the contexts of half 0. What half 1 has buffered still drains. -/
def State.doJoin (s : State) (l pp : Nat) : State :=
  let k := 2 * pp + 1
  let s := s.emptyWays k 0
  let c := s.core k
  let s := s.setCore k { sb := c.sb, preq := c.preq, errs := c.errs }
  let x := s.lp l
  let s := s.setLp l { x with ctx := x.ctx.filter (fun e => e.1 < 2048), hbmCtx := x.hbmCtx.filter (fun e => e.1 < 2048) }
  let s := (s.setPair pp 0 false (some l)).fset (CLU_LP_MAP l) 27 1 0
  (s.setPend l (s.pend l - 2)).cluCmdEnds (l / 8) stOk

/-- The tested pair takes the place of the target, which becomes the reserve (R293). -/
def State.doExchange (s : State) (l pp q : Nat) : State :=
  let split := s.isSplit pp
  let s := (s.emptyWays (2 * pp) 0).emptyWays (2 * pp + 1) 0
  let s := s.copyPairRegs pp q
  let s := (s.setPair q 0 split (some l)).setPair pp 1 false none
  let left (c : CoreSt) : CoreSt := { sb := c.sb, preq := c.preq, errs := c.errs }
  let s := s.setCore (2 * pp) (left (s.core (2 * pp)))
  let s := s.setCore (2 * pp + 1) (left (s.core (2 * pp + 1)))
  let s := (s.fset (CLU_LP_MAP l) 0 7 q).setPend l (s.pend l - 4)
  let s := (s.fset (CLU_RSV (l / 8)) 8 7 pp).fset (CLU_RSV (l / 8)) 0 3 0
  let s := s.setLp l { s.lp l with exch := none }
  ((s.countWrap CLU_ROT_ST 1).reeval q).reeval pp

/-- The hand-overs that fall on a switch: a split or join first, an exchange at a later switch; the pair that goes on. -/
def State.handOver (s : State) (l pp : Nat) : State × Nat :=
  let p := s.pend l
  if bit p 0 then (s.doSplit l pp, pp)
  else if bit p 1 then (if s.half1Free l then (s.doJoin l pp, pp) else (s, pp))
  else if bit p 2 then
    match (s.lp l).exch with
    | some q => if s.running q then (s.doExchange l pp q, q) else (s, pp)
    | none => (s, pp)
  else (s, pp)

/-! ## Window switches (R179, R180) -/

/-- CLU_LPs_WST. -/
def State.windowStatus (s : State) (l : Nat) : State :=
  let mf := majorFrame (s.windows l (s.cbank l))
  let (w, idle) := match s.windowNow l with
    | some (w, _) => (w, (s.windowPn l).isNone)
    | none => (0, true)
  s.wr (CLU_LP_WST l) (w * 2 ^ 26 + b2n idle * 2 ^ 25 + mf)

/-- The switch of a logical pair on pair `pp` to the window of a partition, or to an IDLE window. -/
def State.switch (s : State) (l pp : Nat) (dest : Option Nat) : State :=
  let s := match (s.lp l).cur with
    | some pn => (s.halves pp).foldl (fun (s : State) h => s.saveHalf l pn h) s
    | none => s
  let (s, pp) := s.handOver l pp
  let hs := s.halves pp
  let s := match dest with
    | some pn => hs.foldl (fun (s : State) h => s.loadHalf l pn h) s
    | none => hs.foldl (fun (s : State) h => s.idleHalf h) s
  let s := s.setLp l { s.lp l with cur := dest, resetting := false }
  (s.sliceCkpt l (2 * pp) none true).reeval pp

/-- WINDOW_SWITCH of a logical pair: one whose takeover waits for it resumes (R284); a boundary between windows of one PN does
nothing; a pair that is not in RUN is woken; one with stores that find no room in the store buffer has not come to the boundary
(R257). -/
def State.windowSwitch (s : State) (l : Nat) : State :=
  match s.ppOf l with
  | none => s
  | some pp =>
    let s := s.windowStatus l
    let x := s.dom pp
    let s := if s.running pp then s.setDom pp { x with latch := x.latch.filter (fun e => e != 3) } else s
    let dest := s.windowPn l
    if s.lpState l = 1 && (s.lp l).tk = some pp && s.running pp then
      ((s.setLpState l 0).setLp l { s.lp l with tk := none }).switch l pp dest
    else if s.lpState l ≠ 0 || dest = (s.lp l).cur then s
    else if !s.running pp then s.wake pp 3
    else if (s.core (2 * pp)).attempt ≠ 0 then s
    else
      let s := s.commitPair pp
      if s.uncommitted pp then s else s.switch l pp dest

/-- WINDOW_SWITCH. -/
def execWindowSwitch (lp : LpNo) (s : State) : Host.Outcome State Fault Refusal := s.live (·.windowSwitch lp)

/-- CONTEXT_WRITEBACK: the home writes the saved contexts of its logical pairs back to HBM (R281). -/
def execContextWriteback (c : Clus) (s : State) : Host.Outcome State Fault Refusal :=
  s.live (fun s =>
    match s.lclOf c with
    | some lc => (lpsOf lc).foldl (fun s l => s.setLp l { s.lp l with hbmCtx := (s.lp l).ctx }) s
    | none => s)

/-! ## Banks and window quotas (R179, R407) -/

/-- The ticks of the windows of a table that name a partition. -/
def ticksOf (pn : Nat) (ws : List (Option Nat × Nat)) : Nat := sumN ((ws.filter (fun w => w.1 == some pn)).map (·.2))

/-- The sum of fractions as a fraction. -/
def addFrac (a b : Nat × Nat) : Nat × Nat := if b.1 = 0 then a else (a.1 * b.2 + b.1 * a.2, a.2 * b.2)

/-- U of a partition with bank `bankOf` in force on each logical pair (R407). -/
def State.windowUse (s : State) (pn : Nat) (bankOf : Nat → Nat) : Nat :=
  let f := (List.range 64).foldl (fun a l =>
    let ws := s.windows l (bankOf l)
    addFrac a (ticksOf pn ws, max (majorFrame ws) 1)) (0, 1)
  ceilDiv (16 * f.1) f.2

/-- U of a partition as PRT_USE.CW reports it. -/
def State.windowUseNow (s : State) (pn : Nat) : Nat := s.windowUse pn s.cbank

/-- The partitions that a bank of a logical pair names. -/
def State.namedIn (s : State) (l b : Nat) : List Nat := (s.windows l b).filterMap (·.1)

/-- The change of logical pair `l` to bank `b` raises no partition's U above its QUOTA (R407). -/
def State.quotaOk (s : State) (l b : Nat) : Bool :=
  (s.namedIn l b).all (fun pn =>
    let u := s.windowUse pn (fun m => if m = l then b else s.cbank m)
    u ≤ s.windowUseNow pn || u ≤ bits (s.part pn).qcw 0 11)

/-- The first tick at or after `t` at which window 0 of a bank begins. -/
def State.nextFrame (s : State) (l b t : Nat) : Nat :=
  let mf := majorFrame (s.windows l b)
  if mf = 0 then t else t + (((s.frameOrigin l b : Int) - (t : Int)) % (mf : Int)).toNat

/-- MAJOR_FRAME_BOUNDARY: at a boundary of the bank in force a requested bank comes into force, or is deferred. -/
def State.frameBoundary (s : State) (l : Nat) : State :=
  let b := s.cbank l
  let mf := majorFrame (s.windows l b)
  let a := s.fget (CLU_LP_WCTL l) 0 1
  let at_ := mf = 0 || ((s.lp l).wfrom ≤ s.time.tick && s.frameOfs l b mf = 0)
  if a = b || !at_ then s
  else if s.quotaOk l a then
    let s := s.fset (CLU_LP_WCTL l) 8 1 a
    s.setLp l { s.lp l with wfrom := s.nextFrame l a s.time.tick }
  else s.errLog stConflict srcClu none l

/-- MAJOR_FRAME_BOUNDARY. -/
def execMajorFrameBoundary (lp : LpNo) (s : State) : Host.Outcome State Fault Refusal := s.live (·.frameBoundary lp)

/-! ## Fencing and retiring (R282, R286) -/

/-- A test that runs on a unit ends INCOMPLETE (R295, R437). -/
def State.abortTest (s : State) (d : Nat) : State :=
  match s.test with
  | some (_, t) =>
    if t = d then
      (((s.withTest none).wr BST_CMD_ST stIncomplete).fset BST_RES 0 4 3).count BST_TCNT 1
    else s
  | none => s

/-- The rotation test of a pair ends INCOMPLETE. -/
def State.abortRotation (s : State) (pp : Nat) : State :=
  let s := s.abortTest pp
  if s.role pp = 3 then (s.fset (PAI_TEST pp) 0 4 3).count BST_TCNT 1 else s

/-- The entries of the store buffer that a reset or a fence finds undrained at the end of its time: the first device-region store and
everything behind it (R257, R266, R282). Device-region stores that drain within that time are the STORE_DRAIN commands before it
(assumption 58). -/
def CoreSt.undrained (c : CoreSt) : List Store := c.sb.dropWhile (fun st => st.ty != .device)

/-- One core of a failed pair: pre-commit entries are discarded, the store buffer drains, entries left in it are discarded and
counted in MEM_Ck_WRST. -/
def State.fenceCore (s : State) (k : Nat) : State :=
  let c := s.core k
  let s := s.setCore k { c with preq := [], sb := [] }
  let s := s.applyStores k (c.sb.takeWhile (fun st => st.ty != .device))
  let s := s.count (MEM_C_WRST k) c.undrained.length
  let s := s.emptyWays k 0
  s.setCore k { errs := (s.core k).errs }

/-- A pair is fenced, retired and gated, and enters the retired-unit list (R286). -/
def State.retirePair (s : State) (pp : Nat) : State :=
  let s := (s.fenceCore (2 * pp)).fenceCore (2 * pp + 1)
  let s := (s.setPair pp 5 false none).fset (PAI_INJ pp) 1 1 0
  (s.gateDomain pp).retireUnit pp srcPai stDown

/-! ## Failover (R287 to R289) -/

/-- The pairs of cluster 8 that are not retired. -/
def State.spares (s : State) : List Nat := ((List.range 9).map (72 + ·)).filter (fun pp => s.role pp != 5)

/-- The reserve cluster is usable. -/
def State.rclUsable (s : State) : Bool := s.fget CLU_SP_ST 16 3 < 2 && 8 ≤ s.spares.length

/-- Every pair of a physical cluster is retired and gated; the cluster enters the retired-unit list. -/
def State.retireCluster (s : State) (p pcl : Nat) : State :=
  let s := (List.range 9).foldl (fun s i =>
    let pp := 9 * p + i
    let s := s.abortRotation pp
    let s := s.setCore (2 * pp) { errs := (s.core (2 * pp)).errs }
    let s := s.setCore (2 * pp + 1) { errs := (s.core (2 * pp + 1)).errs }
    (s.setPair pp 5 false none).gateDomain pp) s
  let s := (s.setHeld p []).setCluster p {}
  let s := s.fset CLU_PCL_ST (2 * p) 2 pcl
  ((s.gateDomain (81 + p)).retireUnit (81 + p) srcClu stDown).mgrEvent 2

/-- A logical cluster becomes DOWN (R289). -/
def State.clusterDown (s : State) (lc : Nat) : State :=
  let p := s.pclOf lc
  let s := if s.fbit (CLU_CMD_ST lc) 8 then s.cluCmdEnds lc stDown else s
  let s := (lpsOf lc).foldl (fun s l => s.emptyLp l) s
  let s := ((s.fset (CLU_ST lc) 8 2 2).wr (CLU_RSV lc) 0).retireCluster p 3
  if p = 8 then s.fset CLU_SP_ST 16 3 3 else s

/-- The failover of a logical cluster begins (R287): the failed cluster is fenced, its L2 lost, the sparing wake of cluster 8
begins. -/
def State.failover (s : State) (lc : Nat) : State :=
  let p := s.pclOf lc
  let s := (s.sendFlit 2 (stopPos p) (stopPos 8)).sendFlit 2 (stopPos 8) (stopPos p)
  let held := (s.cluster p).held
  let s := if s.fbit (CLU_CMD_ST lc) 8 then s.cluCmdEnds lc stDown else s
  let s := (lpsOf lc).foldl (fun s l =>
    let x := s.lp l
    let s := (s.setLpState l 2).setPend l 0
    s.setLp l { x with cur := none, tk := none, exch := none, mirror := none, log := [], logN := 0, closed := none, ctx := x.hbmCtx }) s
  let s := s.wr (CLU_RSV lc) 0
  let s := s.retireCluster p 2
  let s := (List.range 9).foldl (fun s i => s.abortRotation (72 + i)) s
  let s := (List.range 9).foldl (fun s i => if s.role (72 + i) = 3 then s.setPair (72 + i) 2 false none else s) s
  let s := s.setHeld 8 held
  let s := (s.fset (CLU_ST lc) 8 2 1).wr CLU_SP_ST (lc * 2 ^ 24 + 2 * 2 ^ 16 + s.fget CLU_SP_ST 0 8)
  let s := s.count (CLU_FOCNT lc) 1
  (List.range 9).foldl (fun s i => s.reeval (72 + i)) (s.reeval 89)

/-- A CLU_RESET or PAIR_RESET that runs in a cluster that fails will end with ST_DOWN (R444). -/
def State.resetFails (s : State) (lc : Nat) : State :=
  if s.mgmt.mbxCl = some lc then s.withMgmt { s.mgmt with mbxSt := stDown } else s

/-- A logical cluster has failed: cluster 8 takes over where it is usable, else the cluster is DOWN (R287, R289). -/
def State.failCluster (s : State) (lc : Nat) : State :=
  if s.fget (CLU_ST lc) 8 2 ≠ 0 then s
  else if s.rclUsable then (s.resetFails lc).failover lc else (s.resetFails lc).clusterDown lc

/-- The words of the notice that an agent holds of a partition's queue. -/
def State.heldWords (s : State) (a pn : Nat) : Option (List Word) :=
  match tabFind s.taken (takenKey a pn) with
  | some t =>
    if t.held then ((s.sub pn).entries.find? (fun q => q.takenBy == some a && q.sn == t.sn)).map (·.words) else none
  | none => none

/-- A logical pair resumes on pair `pp` of cluster 8 at its last flushed SLGET checkpoint: after the SLGET with the words of
the notice it holds, else at the SLGET (R288). Without one it resumes at its next switch, as it does where the partition is no
longer RUNNING (R394). -/
def State.resumeFlushed (s : State) (l pp : Nat) : State :=
  match (s.lp l).flushed with
  | some m =>
    match m.sl with
    | some (before, rd) =>
      let arch := match s.heldWords (2 * l) m.pn with
        | some w => ((before.slgetEnd rd (.notice w)).finish 4 .seq).counted
        | none => before
      if s.pstate m.pn = 2 then
        let s := s.runImage (2 * pp) m.pn { m with arch := arch }
        s.setLp l { s.lp l with cur := some m.pn }
      else s.setLp l { s.lp l with ctx := tabIns (s.lp l).ctx (ctxKey 0 m.pn) { m with arch := arch } }
    | none => s
  | none => s

/-- The remaining steps of a failover, with cluster 8 in RUN: each logical pair on its pair of cluster 8, held regions loaded,
pair 8 the reserve. -/
def State.failoverResume (s : State) (lc : Nat) : State :=
  let ps := s.spares
  let mine := ps.take 8
  if s.fget (CLU_ST lc) 8 2 ≠ 1 || s.dstate 89 ≠ 0 || s.dphase 89 ≠ 0 || !mine.all s.running then s
  else
    let from_ := s.pclOf lc
    let s := (s.wr (MEM_CL_L2CTL 8) (s.rd (MEM_CL_L2CTL from_))).setCluster 8
      { s.cluster 8 with l2 := [], lfsr := s.fget (MEM_CL_L2CTL from_) 0 16 }
    let s := (s.cluster 8).held.foldl (fun s r =>
      if r.loaded then (List.range r.lines).foldl (fun s i => s.l2Fetch 8 (r.line + i)) s else s) s
    let s := (List.zip (List.range 8) mine).foldl (fun s e =>
      let l := 8 * lc + e.1
      let s := s.copyPairRegs (s.fget (CLU_LP_MAP l) 0 7) e.2
      let s := s.setPair e.2 0 (s.lpSplit l) (some l)
      let s := s.wr (CLU_LP_MAP l) (2 ^ 31 + b2n (s.lpSplit l) * 2 ^ 27 + e.2)
      (s.resumeFlushed l e.2).reeval e.2) s
    let s := match ps.drop 8 with
      | q :: _ => (s.setPair q 1 false none).wr (CLU_RSV lc) (2 ^ 15 + q * 2 ^ 8)
      | [] => s
    let s := (s.fset (CLU_ST lc) 8 2 0).fset (CLU_ST lc) 16 4 8
    let s := ((s.fset CLU_PCL_ST 16 2 0).reeval 80).mgrEvent 2
    if s.fbit CLU_SP_CMD_ST 8 then s.wr CLU_SP_CMD_ST stOk else s

/-- COHERENCE_PROTOCOL_ERROR (R254, R287). -/
def execCoherenceProtocolError (c : Clus) (s : State) : Host.Outcome State Fault Refusal :=
  s.live (fun s =>
    let s := s.count (MEM_CL_COHERR c) 1
    match s.lclOf c with
    | some lc => s.failCluster lc
    | none => s)

/-- DEAD_AGENT (R287). -/
def execDeadAgent (lc : LClus) (s : State) : Host.Outcome State Fault Refusal := s.live (·.failCluster lc)

/-- CLU_SP_CMD failover of a logical cluster (R287, R298): refused while a command runs, or with cluster 8 unusable. -/
def State.failoverCmd (s : State) (lc : Nat) : State :=
  let last (s : State) (st : Nat) : State := s.fset CLU_SP_ST 0 8 st
  if s.fbit CLU_SP_CMD_ST 8 then last s stBusy
  else if !s.rclUsable || s.fget (CLU_ST lc) 8 2 ≠ 0 then last (s.wr CLU_SP_CMD_ST stState) stState
  else last ((s.failover lc).wr CLU_SP_CMD_ST 0x100) stOk

/-- FAILOVER. -/
def execFailover (lc : LClus) (s : State) : Host.Outcome State Fault Refusal := s.live (·.failoverCmd lc)
/-- FAILOVER_RESUME. -/
def execFailoverResume (lc : LClus) (s : State) : Host.Outcome State Fault Refusal := s.live (·.failoverResume lc)

/-! ## Takeover (R282 to R286) -/

/-- The reserve pair of a logical cluster. -/
def State.reserveOf (s : State) (lc : Nat) : Option Nat :=
  if s.fbit (CLU_RSV lc) 15 then some (s.fget (CLU_RSV lc) 8 7) else none

/-- A takeover is in progress in a logical cluster. -/
def State.takeoverIn (s : State) (lc : Nat) : Bool := (lpsOf lc).any (fun l => (s.lp l).tk.isSome)

/-- The latest cut-off of the notices that a logical pair holds. -/
def State.heldCut (s : State) (l : Nat) : Option Nat :=
  let cuts := (s.taken.filter (fun e => e.1 / 2048 / 2 == l && e.2.held)).map (·.2.cutoff)
  if cuts.isEmpty then none else some (maxN cuts)

/-- A pair that fills a logical pair is declared failed (R282, R285); while it is halted no takeover is declared (R296). -/
def State.failPair (s : State) (pp : Nat) : State :=
  match s.lpOf pp with
  | none => s
  | some l =>
    if s.lpState l = 4 then s
    else
    let lc := l / 8
    let r := if s.takeoverIn lc then none else s.reserveOf lc
    let s := (s.retirePair pp).mgrEvent 2
    match r with
    | some q =>
      let s := s.abortRotation q
      let s := s.setPair q 1 false none
      let s := s.fset (CLU_RSV lc) 15 1 0
      let s := s.fset (CLU_RSV lc) 0 3 0
      let s := (lpsOf lc).foldl (fun s m =>
        if (s.lp m).exch = some q then (s.setLp m { s.lp m with exch := none }).setPend m (s.pend m % 4) else s) s
      let s := (s.setLpState l 1).count (CLU_TOCNT lc) 1
      let s := s.setLp l { s.lp l with tk := some q, tkCut := s.heldCut l }
      s.reeval q
    | none =>
      if s.fbit CLU_SPCFG 30 && s.rclUsable then s.failover lc else s.emptyLp l

/-- The last steps of a takeover, with the reserve in RUN: it resumes from the last complete slice checkpoint; split or without a
mirror it fills the logical pair, which stays in the takeover until its next switch (R282, R284). What the failed pair streamed
after its last checkpoint is dropped. -/
def State.takeoverResume (s : State) (l : Nat) : State :=
  match (s.lp l).tk with
  | none => s
  | some q =>
    if !s.running q || s.fget (CLU_LP_MAP l) 0 7 = q then s
    else
      let s := s.mirrorApply l
      let old := s.fget (CLU_LP_MAP l) 0 7
      let split := s.lpSplit l
      let s := (s.copyPairRegs old q).setPair q 0 split (some l)
      let s := s.fset (CLU_LP_MAP l) 0 7 q
      let x := { s.lp l with log := [], logN := 0 }
      let done (s : State) : State := (s.setLpState l 0).setLp l { x with tk := none }
      let s := match x.mirror, s.mirrored l && !split, x.cur with
        | some m, true, some pn => (done s).runImage (2 * q) pn m
        | some m, true, none => ((done s).runImage (2 * q) 0 m).idleHalf (0, 2 * q)
        | _, _, _ => s.setLp l { x with cur := none }
      ((s.ckptLog l).reeval q).mgrEvent 2

/-- TAKEOVER_RESUME. -/
def execTakeoverResume (lp : LpNo) (s : State) : Host.Outcome State Fault Refusal := s.live (·.takeoverResume lp)

/-! ## Instruction retry (R275 to R278) -/

/-- KIND of PAI_MIS. -/
def misKind : MisKind → Nat
  | .gr => 1
  | .other => 2
  | .store => 3
  | .request => 4

/-- MISMATCH. -/
def execMismatch (pp : PairNo) (kind : MisKind) (reg : BitVec 12) (s : State) : Host.Outcome State Fault Refusal :=
  s.live (·.mismatch pp (misKind kind) reg.toNat)

/-- GUYLINE_FAULT (R272): handled as a mismatch. -/
def execGuylineFault (pp : PairNo) (s : State) : Host.Outcome State Fault Refusal := s.live (·.mismatch pp 5 0)

/-- One attempt of a retry: with a mismatch the next one begins, after the third the pair has failed; without one the group
commits. PAI_INJ.HARD makes every attempt mismatch. A halted pair does not go on with it (R296). -/
def State.retryAttempt (s : State) (pp : Nat) (again : Bool) (kind reg : Nat) : State :=
  let a := (s.core (2 * pp)).attempt
  if a = 0 || !s.running pp || (s.core (2 * pp)).wait = .halted then s
  else
    let s := s.count (PAI_RTATT pp) 1
    if again || s.fbit (PAI_INJ pp) 1 then
      let s := s.recordMis pp a kind reg
      if 3 ≤ a then s.failPair pp else s.setCore (2 * pp) { s.core (2 * pp) with attempt := a + 1 }
    else (s.setCore (2 * pp) { s.core (2 * pp) with attempt := 0 }).commitAll (2 * pp)

/-- RETRY_ATTEMPT. -/
def execRetryAttempt (pp : PairNo) (again : Bool) (kind : MisKind) (reg : BitVec 12) (s : State) :
    Host.Outcome State Fault Refusal := s.live (·.retryAttempt pp again (misKind kind) reg.toNat)

/-- The places of an uncorrectable error in a core (R277). -/
inductive ErrPlace where
  | registers | localMem | l1d | l1i
deriving DecidableEq, Repr

/-- An element of a list by a free number. -/
def freePick (i : Nat) (t : Tab L1Line) : Option (Nat × L1Line) := t[(Config.freeWord i).toNat / 4 % t.length]?

/-- An uncorrectable error in core `k` of a split pair: a modified line of the L1D becomes poisoned, a clean one is invalidated,
fetched again and counted (R255); a line of the L1I is invalidated and fetched again (R243). For a register or local memory the
spec states no more than the count. Which line has the error is free (assumption 52). -/
def State.splitError (s : State) (k : Nat) (p : ErrPlace) : State :=
  let (i, s) := s.draw
  let c := s.core k
  match p with
  | .registers => s
  | .localMem => s.countFld (MEM_C_ECC k) 16 16
  | .l1d =>
    let s := s.countFld (MEM_C_ECC k) 16 16
    match freePick i c.l1d with
    | some (line, x) =>
      if x.m then
        match s.l2Line (k / 18) line with
        | some l => s.setL2 (k / 18) line { l with poisoned := true }
        | none => s
      else ((s.setCore k { c with l1d := tabDel c.l1d line }).gets k line).l1dInstall k line false
    | none => s
  | .l1i =>
    match freePick i c.l1i with
    | some (line, _) => ((s.setCore k { c with l1i := tabDel c.l1i line }).l2Fetch (k / 18) line).l1iInstall k line
    | none => s

/-- Where an error that ONE_COPY_ERROR reports lies, and in which core of the pair: the command does not say, so both are free
(assumption 2). -/
def State.errPlace (s : State) : ErrPlace × Nat × State :=
  let (n, s) := s.draw
  let w := (Config.freeWord n).toNat
  (match w % 4 with
    | 0 => .registers
    | 1 => .localMem
    | 2 => .l1d
    | _ => .l1i, w / 4 % 2, s)

/-- An uncorrectable error in a register file, L1 or local memory: of one copy of a lockstep pair it is a mismatch of KIND 6,
repaired by the rollback; of both, or of a half of a split pair where the command says so, it fails the pair at once (R277, R291);
of one core of a split pair R255 applies. MEM_Ck_ECC counts it where the L1D or local memory holds it. -/
def State.copyError (s : State) (pp : Nat) (both : Bool) : State :=
  let (p, h, s) := s.errPlace
  if !both && s.isSplit pp then s.splitError (2 * pp + h) p
  else
  let s := if p = .l1d || p = .localMem then s.countFld (MEM_C_ECC (2 * pp)) 16 16 else s
  if !both then s.mismatch pp 6 0
  else if s.role pp ≠ 0 || !s.running pp then s
  else ((s.recordMis pp 0 7 0).count (PAI_RTEV pp) 1).failPair pp

/-- ONE_COPY_ERROR. -/
def execOneCopyError (pp : PairNo) (both : Bool) (s : State) : Host.Outcome State Fault Refusal := s.live (·.copyError pp both)

end Sys2Proof.Machine
end

