-- ==== Sys2Proof/Machine/Rotate.lean ====
section
/-! DEFINITION. Split and join (R290 to R292), rotation (R293, R294), debug and trace control (R296, R297), CLU_CTL (R280), and
what the hours and the tick edges do to them. -/

namespace Sys2Proof.Machine

/-- Invasive debug is available (R296). -/
def State.debugOk (s : State) : Bool := s.lcs == 1 || s.lcs == 4

/-! ## CLU_CMD (R290, R298) -/

/-- The load phase of a switch of the logical pair could exceed 2 µs at CCLK_min (R19, R290). -/
def State.loadTooLong (s : State) (pp : Nat) : Bool :=
  let li := 16 * s.ilock (2 * pp)
  let lm := 16 * s.lmw (2 * pp)
  cclkNom * s.cq < (160 + 32 * (lm + li)) * 500

/-- A CLU_CMD write for a logical pair: 1 SPLIT, 2 JOIN, 3 TAKEOVER. -/
def State.cluCmd (s : State) (l op : Nat) : State :=
  let lc := l / 8
  let last (s : State) (st : Nat) : State := s.fset (CLU_ST lc) 0 8 st
  let refuse (st : Nat) : State := last (s.wr (CLU_CMD_ST lc) st) st
  if s.fbit (CLU_CMD_ST lc) 8 then last (s.fset (CLU_CMD_ST lc) 0 8 stBusy) stBusy
  else
    match s.ppOf l with
    | none => refuse stState
    | some pp =>
      if s.lpState l ≠ 0 then refuse stState
      else if s.underTest pp then refuse stTesting
      else if op = 3 then last ((s.wr (CLU_CMD_ST lc) stOk).failPair pp) stOk
      else if s.lpSplit l = (op == 1) || s.pend l % 4 ≠ 0 then refuse stState
      else if s.loadTooLong pp then refuse stRange
      else last ((s.wr (CLU_CMD_ST lc) 0x100).setPend l (s.pend l + op)) stOk

/-- SPLIT. -/
def execSplit (lp : LpNo) (s : State) : Host.Outcome State Fault Refusal := s.live (·.cluCmd lp 1)
/-- JOIN. -/
def execJoin (lp : LpNo) (s : State) : Host.Outcome State Fault Refusal := s.live (·.cluCmd lp 2)
/-- TAKEOVER: the command names the pair for takeover (R282). -/
def execTakeover (lp : LpNo) (s : State) : Host.Outcome State Fault Refusal := s.live (·.cluCmd lp 3)

/-! ## The mirror area (R280) -/

/-- The mirror area of a logical cluster as a held region. -/
def State.mirrorRegion (s : State) (lc : Nat) : HeldRegion :=
  { line := s.rd64 (CLU_MIR_LO lc) / 64, lines := 16384, loaded := false, ring := none }

/-- A write of CLU_CTL: MIREN = 1 registers the area, MIREN = 0 removes it. -/
def State.cluCtl (s : State) (lc v : Nat) : State :=
  let p := s.pclOf lc
  let r := s.mirrorRegion lc
  let last (s : State) (st : Nat) : State := s.fset (CLU_ST lc) 0 8 st
  if v % 2 = b2n (s.fbit (CLU_CTL lc) 0) then last s stOk
  else if v % 2 = 1 then
    match s.holdRing p r with
    | some s => last (s.wr (CLU_CTL lc) 1) stOk
    | none => last s stNospace
  else
    let s := match firstIdx (fun q => q == r) 0 (s.cluster p).held with
      | some (i, _) => s.setHeld p ((s.cluster p).held.eraseIdx i)
      | none => s
    let s := (lpsOf lc).foldl (fun s l =>
      (s.setLp l { s.lp l with mirror := none, log := [], logN := 0, closed := none, flushed := none }).ckptLog l) s
    last (s.wr (CLU_CTL lc) 0) stOk

/-- CLU_CTL_WRITE. -/
def execCluCtlWrite (lc : LClus) (v : BitVec 32) (s : State) : Host.Outcome State Fault Refusal :=
  s.live (·.cluCtl lc v.toNat)

/-! ## Rotation (R293, R294) -/

/-- PAI_TEST.AGE: hours since the last pass. -/
def State.age (s : State) (pp : Nat) : Nat := s.fget (PAI_TEST pp) 16 16

/-- The element of a list with the greatest age, the first of equals. -/
def oldest (age : Nat → Nat) : List Nat → Option Nat
  | [] => none
  | x :: xs =>
    match oldest age xs with
    | some y => if age y ≤ age x then some x else some y
    | none => some x

/-- The logical pairs of a cluster that are in service. -/
def State.inService (s : State) (lc : Nat) : List Nat := (lpsOf lc).filter (fun l => (s.ppOf l).isSome && s.lpState l == 0)

/-- The age of the pair that fills a logical pair. -/
def State.lpAge (s : State) (l : Nat) : Nat := s.age (s.fget (CLU_LP_MAP l) 0 7)

/-- The target of an exchange: the in-service pair with the oldest pass, or the next one after target `m`. -/
def State.rotTarget (s : State) (lc : Nat) (m : Option Nat) : Option Nat :=
  oldest s.lpAge ((s.inService lc).filter (fun l =>
    match m with
    | some m => s.lpAge l < s.lpAge m || (s.lpAge l == s.lpAge m && m < l)
    | none => true))

/-- The tested pair `q` waits for a switch of logical pair `l`. -/
def State.awaitExchange (s : State) (l q : Nat) : State :=
  (s.setLp l { s.lp l with exch := some q, exchFrom := s.time.tick }).setPend l (s.pend l % 4 + 4)

/-- The tested pair no longer waits for a logical pair. -/
def State.dropExchange (s : State) (l : Nat) : State :=
  (s.setLp l { s.lp l with exch := none }).setPend l (s.pend l % 4)

/-- A rotation step of a logical cluster begins: its reserve pair is put under test, and in place the pair of cluster 8 with
the oldest pass. -/
def State.rotationStep (s : State) (lc : Nat) : State :=
  if s.fget (CLU_ST lc) 8 2 ≠ 0 || s.lcs = 0 || s.lcs = 5 then s
  else
    let s := match s.reserveOf lc with
      | some q =>
        if s.role q = 1 && !s.takeoverIn lc && !s.underTest q then
          ((s.setPair q 3 false none).fset (CLU_RSV lc) 0 3 1).reeval q
        else s
      | none => s
    if s.fget CLU_SP_ST 16 3 = 0 && s.fget CLU_SP_ST 24 4 = 15 then
      match oldest s.age (s.spares.filter (fun pp => s.role pp == 2 && !s.underTest pp)) with
      | some pp => (((s.setPair pp 3 false none).fset CLU_SP_ST 16 3 1).reeval 89).reeval pp
      | none => s
    else s

/-- ROTATION_STEP: with CLU_SPCFG.ROTEN = 1, every ROTINT minutes. -/
def execRotationStep (lc : LClus) (s : State) : Host.Outcome State Fault Refusal :=
  s.live (fun s => if s.fbit CLU_SPCFG 31 then s.rotationStep lc else s)

/-- CLU_SP_CMD rotation step now (R298): a step in every in-service logical cluster. -/
def State.rotateNow (s : State) : State :=
  if s.fbit CLU_SP_CMD_ST 8 then s.fset CLU_SP_ST 0 8 stBusy
  else (((List.range 8).foldl (fun s lc => s.rotationStep lc) s).wr CLU_SP_CMD_ST stOk).fset CLU_SP_ST 0 8 stOk

/-- ROTATION_STEP_NOW. -/
def execRotationStepNow (s : State) : Host.Outcome State Fault Refusal := s.live (·.rotateNow)

/-- The registers that show the last test (R441). -/
def State.recordTest (s : State) (tgt misr steps : Nat) (r : TestRes) : State :=
  let n := match r with | .pass => 1 | .fail => 2 | .incomplete => 3
  let s := (s.wr BST_RES (tgt * 2 ^ 8 + n)).wr64 BST_SIG_LO misr
  let s := (s.wr BST_STEPS steps).wr BST_XSTEPS (expectedSteps tgt)
  if n = 3 then s.count BST_TCNT 1 else s

/-- The logical cluster whose reserve a pair is. -/
def State.reserveFor (s : State) (pp : Nat) : Option Nat := (List.range 8).find? (fun lc => s.reserveOf lc == some pp)

/-- The rotation test of a pair under test ends (R293, R435 to R437). -/
def State.rotationDone (s : State) (pp misr steps : Nat) : State :=
  if s.role pp ≠ 3 || !s.running pp then s
  else
    let r := testRes pp misr steps
    let s := s.recordTest pp misr steps r
    let lc := s.reserveFor pp
    match r with
    | .pass =>
      let s := s.wr (PAI_TEST pp) 1
      match lc with
      | some c =>
        let s := (s.setPair pp 4 false none).fset (CLU_RSV c) 0 3 2
        let s := match s.rotTarget c none with
          | some l => s.awaitExchange l pp
          | none => s
        s.reeval pp
      | none => ((s.setPair pp 2 false none).fset CLU_SP_ST 16 3 0).reeval pp
    | .incomplete =>
      let s := s.fset (PAI_TEST pp) 0 4 3
      match lc with
      | some c => ((s.setPair pp 1 false none).fset (CLU_RSV c) 0 3 0).reeval pp
      | none => ((s.setPair pp 2 false none).fset CLU_SP_ST 16 3 0).reeval pp
    | .fail =>
      let s := ((s.fset (PAI_TEST pp) 0 4 2).retirePair pp).mgrEvent 2
      match lc with
      | some c => s.wr (CLU_RSV c) 0
      | none =>
        if pp = 72 || s.spares.length < 8 then
          ((s.fset CLU_SP_ST 16 3 3).fset CLU_PCL_ST 16 2 2).retireUnit 89 srcClu stDown
        else s.fset CLU_SP_ST 16 3 0

/-- ROTATION_TEST_DONE. -/
def execRotationTestDone (pp : PairNo) (misr : BitVec 64) (steps : BitVec 32) (s : State) :
    Host.Outcome State Fault Refusal := s.live (·.rotationDone pp misr.toNat steps.toNat)

/-- The femtoseconds of an hour, and of a second. -/
def hourFs : Nat := 3600000000000000000
def secondFs : Nat := 1000000000000000

/-- The tested pair `q` has waited 1 s for a switch of every in-service pair of its cluster (R294). Without a measured tick the second
is not counted, and the command says that it has passed. -/
def State.rotationStuck (s : State) (lc q : Nat) : Bool :=
  match (lpsOf lc).find? (fun l => (s.lp l).exch == some q) with
  | some l =>
    (s.rotTarget lc (some l)).isNone && (s.period == 0 || Nat.ble secondFs ((s.time.tick - (s.lp l).exchFrom) * s.period))
  | none => true

/-- The rotation step of a cluster is blocked: the tested pair becomes the reserve again (R294). -/
def State.rotationBlocked (s : State) (lc : Nat) : State :=
  match s.reserveOf lc with
  | some q =>
    if s.role q = 4 && s.rotationStuck lc q then
      let s := (lpsOf lc).foldl (fun s l => if (s.lp l).exch.isSome then s.dropExchange l else s) s
      ((((s.setPair q 1 false none).fset (CLU_RSV lc) 0 3 0).count CLU_ROT_BLK 1).reeval q).mgrEvent 2
    else s
  | none => s

/-- ROTATION_BLOCKED. -/
def execRotationBlocked (lc : LClus) (s : State) : Host.Outcome State Fault Refusal := s.live (·.rotationBlocked lc)

/-! ## Debug (R296, R299) -/

/-- The status that refuses a write to the PAI_ block of a pair, 0 for none (R295, R300). -/
def State.paiRefused (s : State) (pp : Nat) : Nat :=
  if s.role pp = 5 then stState else if s.underTest pp then stTesting else 0

/-- PAI_ST.LAST_ST. -/
def State.paiLast (s : State) (pp st : Nat) : State := s.fset (PAI_ST pp) 0 8 st

/-- The acting cores of a pair wait in a way, from an agreed boundary on, which closes the open group (R272). -/
def State.setWaits (s : State) (pp : Nat) (w : CoreWait) : State :=
  (s.halves pp).foldl (fun s h => s.setCore h.2 (CoreSt.shut { s.core h.2 with wait := w })) s

/-- A halt request: a pair in service halts at the agreed boundary; one that is not in RUN is woken first. -/
def State.haltPair (s : State) (pp : Nat) : State :=
  match s.lpOf pp with
  | some l =>
    if s.role pp ≠ 0 || s.lpState l ≠ 0 then s
    else if !s.running pp then s.wake pp 4
    else
      let s := (s.setWaits pp .halted).setLpState l 4
      let s := s.fset (PAI_DBG_ST pp) 1 1 1
      if s.isSplit pp then s else s.fset (PAI_DBG_ST pp) 2 1 1
  | none => s

/-- A halted pair resumes: the checker copy is brought to the state of the main copy, comparison restarts. -/
def State.resumePair (s : State) (pp : Nat) : State :=
  match s.lpOf pp with
  | some l =>
    if !s.fbit (PAI_DBG_ST pp) 1 then s
    else
      let s := ((s.setWaits pp .run).setLpState l 0).wr (PAI_DBG_CTL pp) 0
      (s.fset (PAI_DBG_ST pp) 1 1 0).fset (PAI_DBG_ST pp) 8 7 0
  | none => s

/-- A halted pair executes one instruction and halts. -/
def State.stepPair (s : State) (pp : Nat) : State := if s.fbit (PAI_DBG_ST pp) 1 then s.setWaits pp .oneStep else s

/-- A write of PAI_DBG_CTL, whose fields act when written 1. -/
def State.dbgCtl (s : State) (pp v : Nat) : State :=
  let st := s.paiRefused pp
  let v := v % 8
  if st ≠ 0 then s.paiLast pp st
  else
    let s := s.paiLast pp stOk
    if v = 0 then (if s.debugOk then s.wr (PAI_DBG_CTL pp) 0 else s)
    else if !s.debugOk then s.errLog stPerm srcPai none (PAI_DBG_CTL pp)
    else
      let s := s.wr (PAI_DBG_CTL pp) v
      let s := if bit v 0 then s.haltPair pp else s
      let s := if bit v 1 then s.resumePair pp else s
      if bit v 2 then s.stepPair pp else s

/-- A write of PAI_INJ: ONE in every life-cycle state, HARD in those of debug. -/
def State.injCtl (s : State) (pp v : Nat) : State :=
  let st := s.paiRefused pp
  if st ≠ 0 then s.paiLast pp st
  else
    let s := s.paiLast pp stOk
    let s := if bit v 0 then s.setCore (2 * pp) { s.core (2 * pp) with injOne := true } else s
    if bit v 1 == s.fbit (PAI_INJ pp) 1 then s
    else if s.debugOk then s.fset (PAI_INJ pp) 1 1 (b2n (bit v 1))
    else s.errLog stPerm srcPai none (PAI_INJ pp)

/-- HALT. -/
def execHalt (pp : PairNo) (s : State) : Host.Outcome State Fault Refusal := s.live (·.dbgCtl pp 1)
/-- RESUME. -/
def execResume (pp : PairNo) (s : State) : Host.Outcome State Fault Refusal := s.live (·.dbgCtl pp 2)
/-- STEP. -/
def execStep (pp : PairNo) (s : State) : Host.Outcome State Fault Refusal := s.live (·.dbgCtl pp 4)
/-- INJ_ONE: PAI_INJ.ONE written 1, HARD as it stands. -/
def execInjOne (pp : PairNo) (s : State) : Host.Outcome State Fault Refusal :=
  s.live (fun s => s.injCtl pp (1 + s.fget (PAI_INJ pp) 1 1 * 2))
/-- INJ_HARD. -/
def execInjHard (pp : PairNo) (s : State) : Host.Outcome State Fault Refusal := s.live (·.injCtl pp 2)

/-- A trace token of a partition is in force (R385, R386). -/
def State.tokenFor (s : State) (pn : Nat) : Bool :=
  match tabFind s.sec.tokens pn with
  | some t => t.epoch == s.epoch pn && s.time.tick ≤ bits (ofLe ((t.body.drop 16).take 8)) 4 60
  | none => false

/-- A write of PAI_TRC_CTL (R297): in DEPLOYED trace needs UONLY and a token of the partition; in
PROVISIONED there is none (R359). -/
def State.traceCtl (s : State) (pp v : Nat) : State :=
  let both (s : State) (st : Nat) : State := (s.paiLast pp st).fset (PAI_TRC_ST pp) 0 8 st
  let st := s.paiRefused pp
  if st ≠ 0 then both s st
  else if bit v 31 && (s.lcs = 2 || s.lcs = 5) then both s stState
  else if bit v 31 && s.lcs = 3 && !(bit v 30 && s.tokenFor (bits v 0 11)) then both s stAuth
  else both (s.wr (PAI_TRC_CTL pp) (bits v 30 2 * 2 ^ 30 + bits v 0 11)) stOk

/-- TRACE_CTL_WRITE. -/
def execTraceCtlWrite (pp : PairNo) (v : BitVec 32) (s : State) : Host.Outcome State Fault Refusal :=
  s.live (·.traceCtl pp v.toNat)

/-! ## Hours and tick edges -/

/-- One more hour since the last pass of every pair and engine unit (R299, R441). -/
def State.hourPasses (s : State) : State :=
  let s := (List.range 81).foldl (fun s pp => s.fset (PAI_TEST pp) 16 16 (min (s.age pp + 1) 0xFFFF)) s
  (s.withAges ((List.range 16).map (fun e => (e, min (tabGet 0 s.ages e + 1) 0xFFFF))))

/-- Hours are counted at tick edges. -/
def State.hours (s : State) : State :=
  let t := s.time.hour + s.period
  if hourFs ≤ t then (s.withTime { s.time with hour := t - hourFs }).hourPasses
  else s.withTime { s.time with hour := t }

/-- A target that has made no switch for 1 s is passed over for the next-oldest (R294). -/
def State.rotationMoves (s : State) : State :=
  s.lps.foldl (fun s e =>
    match e.2.exch with
    | some q =>
      if (s.time.tick - e.2.exchFrom) * s.period < secondFs then s
      else
        match s.rotTarget (e.1 / 8) (some e.1) with
        | some m => (s.dropExchange e.1).awaitExchange m q
        | none => s
    | none => s) s

/-- The power-fail sequence ends 720 µs after it began, counted in ticks: the device holds itself in reset and waits for PORn
(R337, R470). -/
def State.powerHold (s : State) : State :=
  match s.readout.powerFail with
  | none => s
  | some t =>
    if s.tstate = 0 || Nat.ble 720000000000 ((s.time.tick - t) * s.period) then
      (s.fset MGT_ST 8 4 0xF).withHold (some .power)
    else s

/-- A tick edge of the block: the timebase advances, hours are counted, exchanges move on (assumption 3). A device held in
reset counts no tick. -/
def State.edge (s : State) : State :=
  if s.hold.isSome || s.por then s
  else (if s.tstate = 0 then s else s.tickEdge.hours.rotationMoves).powerHold

end Sys2Proof.Machine
end

