-- ==== Sys2Proof/Machine/Domains.lean ====
section
/-! DEFINITION. Entry, point of no return, exit and wake of power domains (R417 to R427), self-test in service: BST commands
(R439), engine rotation (R357, R435), results (R436, R437), analog checks (R433, R434), failures (R430, R431). -/

namespace Sys2Proof.Machine

/-! ## Entry and exit -/

/-- The queues of a core are empty (R266). -/
def State.drained (s : State) (k : Nat) : Bool := (s.core k).preq.isEmpty && (s.core k).sb.isEmpty

/-- What an entry into BIVOUAC waits for: empty queues in every core of the domain (R266, R423). -/
def State.canClose (s : State) (d : Nat) : Bool :=
  if d < 81 then s.drained (2 * d) && s.drained (2 * d + 1)
  else if d < 90 then (List.range 18).all (fun i => s.drained (18 * (d - 81) + i))
  else true

/-- The unlocked L1I ways of a core are invalid. -/
def State.dropL1i (s : State) (k : Nat) : State :=
  let c := s.core k
  s.setCore k { c with l1i := c.l1i.filter (fun e => e.2.way < s.ilock k) }

/-- The clean and invalidation of an entry into BIVOUAC (R266). -/
def State.cleanDomain (s : State) (d : Nat) : State :=
  if d < 81 then ((s.emptyWays (2 * d) 0).emptyWays (2 * d + 1) 0 |>.dropL1i (2 * d)).dropL1i (2 * d + 1)
  else if d < 90 then ((s.cluster (d - 81)).l2.map (·.1)).foldl (fun (s : State) line => s.evictLine (d - 81) line) s
  else s

/-- A pair keeps RUN or IDLE while its cluster is deeper than DOZE (R422). -/
def State.mayEnter (s : State) (d : Nat) : Bool := !(d < 81 && s.dstate d ≤ 1 && s.dstate (clusterDom d) == 3)

/-- ENTRY_REQUEST: the votes of a domain are re-evaluated (R419, R423): a steady one with a deeper target enters it; a shallower
target is a wake. -/
def State.entryRequest (s : State) (d : Nat) : State :=
  let t := s.target d
  if s.dphase d ≠ 0 || t ≤ s.dstate d then s.reeval d
  else if !s.mayEnter d then s
  else (s.setDom d { s.dom d with aim := t, prev := s.dstate d }).fset (PWR_D_ST d) 4 2 1

/-- POINT_OF_NO_RETURN: it passes once everything before it is done; a wake that stands then aborts the entry (R424). -/
def State.pnr (s : State) (d : Nat) : State :=
  if s.dphase d ≠ 1 then s
  else if s.target d < (s.dom d).aim then s.abortAndExit d
  else if (s.dom d).aim = 3 then
    if s.canClose d then (s.cleanDomain d).fset (PWR_D_ST d) 4 2 2 else s
  else s.fset (PWR_D_ST d) 4 2 2

/-- ENTRY_COMPLETE: the domain is in the state entered; a latched event or a shallower target starts its exit at once
(R425). -/
def State.entryDone (s : State) (d : Nat) : State :=
  if s.dphase d ≠ 2 then s
  else
    let s := (s.fset (PWR_D_ST d) 0 2 (s.dom d).aim).fset (PWR_D_ST d) 4 2 0
    (s.fset (PWR_D_ST d) 8 8 stOk).reeval d

/-- Regions registered with loading are loaded again (R266). -/
def State.reloadHeld (s : State) (c : Nat) : State :=
  (s.cluster c).held.foldl (fun (s : State) r =>
    if r.loaded then (List.range r.lines).foldl (fun (s : State) i => s.l2Fetch c (r.line + i)) s else s) s

/-- EXIT_COMPLETE: the domain is in RUN, its events are replayed to their consumers, which find them pending (R425); a halt
request is taken; a window start stays until its switch. -/
def State.exitDone (s : State) (d : Nat) : State :=
  if s.dphase d ≠ 3 then s
  else
    let deep := s.dstate d = 3
    let s := ((s.fset (PWR_D_ST d) 0 2 0).fset (PWR_D_ST d) 4 2 0).fset (PWR_D_ST d) 8 8 stOk
    let x := s.dom d
    let s := s.setDom d { x with latch := x.latch.filter (fun e => d < 81 && e == 3), waiting := [] }
    if d < 81 then (if s.fbit (PAI_DBG_CTL d) 0 then s.haltPair d else s)
    else if d < 90 then
      let s := if deep then s.reloadHeld (d - 81) else s
      (List.range 9).foldl (fun (s : State) i => s.reeval (9 * (d - 81) + i)) s
    else if 106 ≤ d && d < 122 then (List.range 4).foldl (fun (s : State) i => s.laneStart (4 * (d - 106) + i)) s
    else s

/-- ENTRY_REQUEST. -/
def execEntryRequest (d : Domain) (s : State) : Host.Outcome State Fault Refusal := s.live (·.entryRequest d)
/-- POINT_OF_NO_RETURN. -/
def execPointOfNoReturn (d : Domain) (s : State) : Host.Outcome State Fault Refusal := s.live (·.pnr d)
/-- ENTRY_COMPLETE. -/
def execEntryComplete (d : Domain) (s : State) : Host.Outcome State Fault Refusal := s.live (·.entryDone d)
/-- EXIT_COMPLETE. -/
def execExitComplete (d : Domain) (s : State) : Host.Outcome State Fault Refusal := s.live (·.exitDone d)
/-- VOTE_WRITE. -/
def execVoteWrite (target : VoteTarget) (v : BitVec 32) (s : State) : Host.Outcome State Fault Refusal :=
  s.live (fun s => match target with
    | .dom d => s.voteDom d v.toNat
    | .pvote pn => s.votePn pn v.toNat)

/-- The ticks to the next start of a window that names a RUNNING partition, over the windows that follow. -/
def State.toRunning (s : State) : List (Option Nat × Nat) → Nat → Option Nat
  | [], _ => none
  | w :: ws, t =>
    match w.1 with
    | some pn => if s.pstate pn = 2 then some t else s.toRunning ws (t + w.2)
    | none => s.toRunning ws (t + w.2)

/-- The exit time of a state in fs (R417): 8 CCLK cycles, 2 µs, 150 µs. -/
def State.exitFs (s : State) (st : Nat) : Nat :=
  match st with
  | 0 => 0
  | 1 => ceilDiv (8 * 1000000000000) (cclkNom * s.cq)
  | 2 => 2000000000
  | _ => 150000000000

/-- EARLY_EXIT: the exit of a pair starts the exit time and 2 ticks before its next running window (R422). -/
def State.earlyExit (s : State) (pp : Nat) : State :=
  match s.lpOf pp with
  | none => s
  | some l =>
    let ws := s.windows l (s.cbank l)
    match s.windowNow l with
    | none => s
    | some (i, left) =>
      match s.toRunning (ws.drop (i + 1) ++ ws.take (i + 1)) left with
      | none => s
      | some t =>
        if s.dstate pp ≠ 0 && t * s.period ≤ s.exitFs (s.dstate pp) + 2 * s.period then s.wake pp 3 else s

/-- EARLY_EXIT. -/
def execEarlyExit (pp : PairNo) (s : State) : Host.Outcome State Fault Refusal := s.live (·.earlyExit pp)

/-! ## Failures (R430, R431) -/

/-- A non-redundant unit fails (R431): power-fail steps 1 to 5, the fault code, and the hold that only PORn leaves. -/
def State.fatal (s : State) (code : Nat) : State :=
  let s := (s.powerFailSeq.wr BST_FAULT (2 ^ 31 + code)).fset MGT_ST 8 4 0xF
  (s.withHold (some .fault)).withMgmt { s.mgmt with faultn := true }

/-- NON_REDUNDANT_FAULT. -/
def execNonRedundantFault (code : BitVec 16) (s : State) : Host.Outcome State Fault Refusal := s.live (·.fatal code.toNat)

/-- The reserve cluster is retired. -/
def State.retireRcl (s : State) : State :=
  ((s.fset CLU_SP_ST 16 3 3).fset CLU_PCL_ST 16 2 2).retireUnit 89 srcClu stDown

/-- The failure of a unit (R430): `detail` is the DETAIL of a fault code. -/
def State.unitFails (s : State) (t kind detail : Nat) : State :=
  if t < 81 then
    if s.role t = 5 then s
    else if (s.lpOf t).isSome then s.failPair t
    else
      let r := s.reserveFor t
      let s := (s.retirePair t).mgrEvent 2
      match r with
      | some c => s.wr (CLU_RSV c) 0
      | none => if t = 72 || s.spares.length < 8 then s.retireRcl else s
  else if t < 90 then
    match s.lclOf (t - 81) with
    | some lc => s.failCluster lc
    | none => if t = 89 then s.retireRcl else s
  else if t < 106 then (s.fset (CMP_ST (t - 90)) 16 3 4).retireUnit t srcCmp stDown
  else if t < 122 then
    ((List.range 4).foldl (fun (s : State) i => s.retireLane (4 * (t - 106) + i)) s).retireUnit t srcFel stDown
  else if t < 126 then (s.wr (WRR_CTL ((t - 122) / 2)) 0).retireUnit t srcWrr stDown
  else if t < 130 then s.retireUnit t srcHost stDown
  else if t = 0xD1 then s.retireUnit t srcBst stDown
  else if 0xC2 ≤ t && t ≤ 0xCA then
    match s.lclOf (t - 0xC2) with
    | some lc => s.failCluster lc
    | none => if t = 0xCA then s.retireRcl else s
  else s.fatal (kind * 2 ^ 12 + t % 256 * 2 ^ 4 + detail)

/-! ## Analog checks (R433, R434) -/

/-- A test target of an analog check: PLLs, bandgap, temperature sensors, SerDes groups. -/
def analogTarget (t : Nat) : Bool := (106 ≤ t && t < 131) || (0xC0 ≤ t && t ≤ 0xCC) || t = 0xD0 || t = 0xD1

/-- The check that an ANALOG command runs on a target. -/
def analogCheck (t : Nat) : Nat := if t = 0xD0 then 3 else if t = 0xD1 then 4 else if t < 131 then 5 else 1

/-- The result of an analog check. A PLL is faulty at its second failure within 1 s. -/
def State.analogResult (s : State) (t check : Nat) (pass : Bool) : State :=
  let s := s.wr BST_ANA (t * 2 ^ 24 + check * 2 ^ 16 + (if pass then 1 else 2))
  if pass then s
  else if (0xC0 ≤ t && t ≤ 0xCC) || check = 1 || check = 2 then
    let now := s.time.tick
    let twice : Bool := match tabFind s.mgmt.anaFail t with
      | some w => Nat.ble ((now - w) * s.period) secondFs
      | none => false
    let s := s.withMgmt { s.mgmt with anaFail := tabIns s.mgmt.anaFail t now }
    if twice then s.unitFails t 4 check else s
  else s.unitFails t 4 check

/-- The checks that the device runs beside result 4 of a lane: the PLL lock check of its group's PLL and the bandgap cross-check
(R89, R434). What they find is free (assumption 2). -/
def State.pllChecks (s : State) (t : Nat) : State :=
  let (i, s) := s.draw
  let (j, s) := s.draw
  (s.analogResult t 1 (Config.freeBool i)).analogResult 0xD0 3 (Config.freeBool j)

/-- The analog checks of a FAILED lane end (R89, R430). -/
def State.checksDone (s : State) (l result eyeH eyeV : Nat) : State :=
  if s.lstate l = 6 && (s.lane l).checking && 1 ≤ result && result ≤ 4 then
    let s := s.wr (FEL_DIAG l) (eyeV % 256 * 2 ^ 16 + eyeH % 256 * 2 ^ 8 + result)
    let s := s.setLane l { s.lane l with checking := false }
    if result = 1 then s
    else
      let s := (s.retireLane l).retireUnit (106 + l / 4) srcFel stDown
      if result = 4 then s.pllChecks (106 + l / 4) else s
  else s

/-- ANALOG_CHECKS_DONE. -/
def execAnalogChecksDone (l : Lane) (result : BitVec 4) (eyeH eyeV : BitVec 8) (s : State) :
    Host.Outcome State Fault Refusal := s.live (·.checksDone l result.toNat eyeH.toNat eyeV.toNat)

/-- ANALOG_MONITOR_TRIP: a continuous monitor trips and its check runs. -/
def execAnalogMonitorTrip (tgt : BitVec 8) (check : BitVec 4) (pass : Bool) (s : State) :
    Host.Outcome State Fault Refusal :=
  s.live (fun s => if analogTarget tgt.toNat then s.analogResult tgt.toNat check.toNat pass else s)

/-! ## BST commands (R435, R439) -/

/-- A unit is in service (R439). -/
def State.unitInService (s : State) (t : Nat) : Bool :=
  if t < 81 then (s.lpOf t).isSome
  else if t < 90 then (s.lclOf (t - 81)).isSome
  else if t < 106 then s.cmpState (t - 90) < 2
  else if t < 131 then s.useVote t != 3
  else if 0xC2 ≤ t && t ≤ 0xCA then (s.lclOf (t - 0xC2)).isSome
  else t < 0xD0

/-- A BST command with the life-cycle states that accept it; `f` answers the status, 0 with the state in which the test runs. -/
def State.bstCmd (s : State) (states : List Nat) (f : State → Nat × State) : State :=
  let refuse (st : Nat) : State := s.fset BST_CMD_ST 0 8 st
  if s.test.isSome then refuse stBusy
  else if !states.contains s.lcs then refuse stPerm
  else
    let (st, s') := f s
    if st ≠ 0 then refuse st else s'.wr BST_CMD_ST 0x100

/-- An engine unit: its target number less 90. -/
def isEngine (t : Nat) : Bool := 90 ≤ t && t < 106

/-- A number that names no test target (R438). -/
def reservedTarget (t : Nat) : Bool := !(t < 131 || (0xC0 ≤ t && t ≤ 0xCC) || t == 0xD0 || t == 0xD1)

/-- A command aimed at a reserved target (R9, R439), or at one that has no such test. -/
def State.bstArg (s : State) (t : Nat) : State :=
  let s := s.fset BST_CMD_ST 0 8 stArg
  if reservedTarget t then s.errLog stArg srcBst none BST_CMD else s

/-- UNIT_TEST of a target; an engine unit is under test meanwhile (R358). -/
def State.unitTest (s : State) (t : Nat) : State :=
  if 131 ≤ t then s.bstArg t
  else s.bstCmd [0, 1, 4] (fun s =>
    if s.underTest t || (isEngine t && s.cmpState (t - 90) == 3) then (stTesting, s)
    else if s.unitInService t then (stState, s)
    else
      let s := if isEngine t then s.fset (CMP_ST (t - 90)) 16 3 2 else s
      let s := (s.withTest (some (.unit, t))).reeval t
      (0, if t = 72 then s.reeval 89 else s))

/-- An engine unit returns to its role after a test: retired, disabled or in use (R356 to R358). -/
def State.engineBack (s : State) (e : Nat) : State :=
  if s.nvs.retired.contains (90 + e) then s.fset (CMP_ST e) 16 3 4 else ((s.fset (CMP_ST e) 16 3 0).cmpCount e)

/-- The engine unit with the oldest pass among those that may be tested (R357). -/
def State.nextEngine (s : State) : Option Nat :=
  oldest (fun e => tabGet 0 s.ages e) ((List.range 16).filter (fun e =>
    s.cmpState e != 2 && s.cmpState e != 3 && s.cmpState e != 4))

/-- The rotation test of the next engine unit, by ROT_ENG or at its time: it takes no new record and is tested once it holds
none. -/
def State.engineRotation (s : State) (kind : TestKind) : Nat × State :=
  match s.nextEngine with
  | some e =>
    let s := ((s.fset (CMP_ST e) 16 3 2).withTest (some (kind, 90 + e)))
    (0, s.reeval (90 + e))
  | none => (stState, s)

/-- UNIT_TEST. -/
def execUnitTest (tgt : BitVec 8) (s : State) : Host.Outcome State Fault Refusal := s.live (·.unitTest tgt.toNat)
/-- ROT_ENG. -/
def execRotEng (s : State) : Host.Outcome State Fault Refusal := s.live (fun s => s.bstCmd [1, 3, 4] (·.engineRotation .engine))
/-- ENGINE_ROTATION: with BST_CTL.EROTEN = 1, every EINT minutes. -/
def execEngineRotation (s : State) : Host.Outcome State Fault Refusal :=
  s.live (fun s =>
    if s.fbit BST_CTL 16 && s.test.isNone && s.lcs ≠ 0 && s.lcs ≠ 5 then
      let (st, s') := s.engineRotation .rotation
      if st = 0 then s'.fset BST_CMD_ST 8 1 1 else s
    else s)

/-- ANALOG of a target: refused on a unit in service whose checks are intrusive. -/
def State.analog (s : State) (t : Nat) : State :=
  if !analogTarget t then s.bstArg t
  else s.bstCmd [0, 1, 2, 3, 4] (fun s =>
    if s.unitInService t then (stState, s) else (0, (s.withTest (some (.analog, t)))))

/-- ANALOG. -/
def execAnalog (tgt : BitVec 8) (s : State) : Host.Outcome State Fault Refusal := s.live (·.analog tgt.toNat)

/-- No test runs any more; the outcome of the command that asked for it, where one did (R441). -/
def State.testEnds (s : State) (k : TestKind) (st : Nat) : State :=
  if k = .rotation then s.fset BST_CMD_ST 8 1 0 else s.wr BST_CMD_ST st

/-- The running test ends INCOMPLETE (R437): the unit returns to its role. -/
def State.testIncomplete (s : State) : State :=
  match s.test with
  | none => s
  | some (k, t) =>
    let s := s.withTest none
    let s := (s.wr BST_RES (t * 2 ^ 8 + 3)).count BST_TCNT 1
    let s := s.testEnds k stIncomplete
    let s := if k = .analog then s.wr BST_ANA (t * 2 ^ 24 + analogCheck t * 2 ^ 16 + 3) else s
    if isEngine t && k != .analog then s.engineBack (t - 90) else s

/-- ABORT; without a running test it is refused with ST_STATE. -/
def State.bstAbort (s : State) : State :=
  if s.lcs = 5 then s.fset BST_CMD_ST 0 8 stPerm
  else if s.test.isNone then s.fset BST_CMD_ST 0 8 stState
  else s.testIncomplete

/-- ABORT. -/
def execAbort (s : State) : Host.Outcome State Fault Refusal := s.live (·.bstAbort)
/-- An enabled wake event of a domain interrupts the test of its unit, which ends INCOMPLETE (R437): the test that BST runs, or the
rotation test of a pair, which returns to its role. -/
def State.wakeTest (s : State) (d src : Nat) : State :=
  if wakeSources d ≤ src || !s.wakeOn d src || !s.underTest d then s
  else if d < 81 && s.role d = 3 then
    let s := s.abortRotation d
    match s.reserveFor d with
    | some c => (s.setPair d 1 false none).fset (CLU_RSV c) 0 3 0
    | none => (s.setPair d 2 false none).fset CLU_SP_ST 16 3 0
  else s.testIncomplete

/-- WAKE_EVENT. -/
def execWakeEvent (d : Domain) (source : Fin 5) (s : State) : Host.Outcome State Fault Refusal :=
  s.live (fun s => (s.wakeTest d source).wake d source)

/-- TEST_OVERRUN: the running test has run for twice its duration. -/
def execTestOverrun (s : State) : Host.Outcome State Fault Refusal := s.live (·.testIncomplete)

/-- The running test ends with its signature (R430, R436). -/
def State.testDone (s : State) (misr steps : Nat) : State :=
  match s.test with
  | none => s
  | some (k, t) =>
    if (k = .engine || k = .rotation) && s.cmpOcc (t - 90) ≠ 0 then s
    else
      let r := testRes t misr steps
      let s := (s.withTest none).recordTest t misr steps r
      let s := s.testEnds k (if r = .incomplete then stIncomplete else stOk)
      match k, r with
      | .analog, .incomplete => s.wr BST_ANA (t * 2 ^ 24 + analogCheck t * 2 ^ 16 + 3)
      | .analog, .pass => s.analogResult t (analogCheck t) true
      | .analog, .fail => s.analogResult t (analogCheck t) false
      | .engine, .pass | .rotation, .pass => (s.withAges (tabDel s.ages (t - 90))).engineBack (t - 90)
      | .engine, .incomplete | .rotation, .incomplete => s.engineBack (t - 90)
      | .engine, .fail | .rotation, .fail => s.unitFails t 2 0
      | .unit, .pass => if t < 81 then s.wr (PAI_TEST t) 1 else if isEngine t then s.engineBack (t - 90) else s
      | .unit, .incomplete =>
        if t < 81 then s.fset (PAI_TEST t) 0 4 3 else if isEngine t then s.engineBack (t - 90) else s
      | .unit, .fail => (if t < 81 then s.fset (PAI_TEST t) 0 4 2 else s).unitFails t 2 0

/-- TEST_COMPLETE. -/
def execTestComplete (misr : BitVec 64) (steps : BitVec 32) (s : State) : Host.Outcome State Fault Refusal :=
  s.live (·.testDone misr.toNat steps.toNat)

end Sys2Proof.Machine
end

