-- ==== Sys2Proof/Machine/Elec.lean ====
section
/-! DEFINITION. Pads, rails, clocks and the JTAG TAP: the ELC_ rules (R473, R485, R493), rail dips and VID (R466, R468), the
thermal trip (R489) and boundary scan (R487). -/

namespace Sys2Proof.Machine

/-- ELC_ST.LAST_ST. -/
def State.elcLast (s : State) (st : Nat) : State := s.fset ELC_ST 0 8 st

/-! ## Spread (R473) -/

/-- Some decision slot is enabled. -/
def State.anySlot (s : State) : Bool := s.fget DCF_SLOTS 0 11 != 0

/-- Some enabled stream's floor lies above its deadline. -/
def State.floorBroken (s : State) : Bool := s.enabledStreams.any (fun n => s.strD n < s.floor n)

/-- A write of ELC_SSC: a raise needs every decision slot disabled, and a raise of FSS keeps every floor below its deadline. -/
def State.sscWrite (s : State) (v : Nat) : State :=
  let fss := bits v 0 8
  let css := bits v 8 8
  let s' := ((s.wr ELC_SSC (2 ^ 16 + css * 256 + fss)).recomputeSubs).elcLast stOk
  let raiseF : Bool := s.fget ELC_SSC 0 8 < fss
  let raiseC : Bool := s.fget ELC_SSC 8 8 < css
  if 50 < fss || 50 < css then (s.elcLast stArg).errLog stArg srcElc none ELC_SSC
  else if (raiseF || raiseC) && s.anySlot then s.elcLast stState
  else if raiseF && s'.floorBroken then (s.elcLast stConflict).errLog stConflict srcElc none ELC_SSC
  else s'

/-! ## Shared ball groups (R485) -/

/-- A write of the owner field of group `g`: 1 GPIO, 2 Lantern trace (group 0) or clock observation (group 1), 0 releases. -/
def State.sbgWrite (s : State) (g v : Nat) : State :=
  let o := bits v 0 2
  let cur := s.fget (ELC_SBG_OWN g) 0 2
  if o = 3 then (s.elcLast stArg).errLog stArg srcElc none (ELC_SBG_OWN g)
  else if o ≠ 0 && g = 0 && o = 2 && !(s.lcs = 1 || s.lcs = 4) then s.elcLast stPerm
  else if o ≠ 0 && cur ≠ 0 && cur ≠ o then s.elcLast stConflict
  else (s.wr (ELC_SBG_OWN g) o).elcLast stOk

/-! ## Rails (R466, R468) and the thermal trip (R489) -/

/-- Rail `n` dips. A dip of VDD_GS, rail 8, stops the Groundsheet until PORn, and a power-fail sequence with it. -/
def State.railDip (s : State) (n : Nat) : State :=
  if n = 8 then s.sealLost.withHold (some .power)
  else if s.readout.powerFail.isSome then s
  else ((s.fset ELC_ST (16 + n) 1 1).errLog stDown srcElc none n).powerFailSeq

/-- The device changes its VID code by one step, within codes 20 to 50; which moment it chooses is the command's. -/
def State.vidStep (s : State) (up : Bool) : State :=
  let v := s.fget ELC_AVS 0 8
  if up then (if v < 50 then s.fset ELC_AVS 0 8 (v + 1) else s) else if 20 < v then s.fset ELC_AVS 0 8 (v - 1) else s

/-! ## Boundary scan (R487) -/

/-- An instruction that drives the balls takes effect under PORn or in the fault hold; else the TAP loads BYPASS in its place. -/
def State.drive (s : State) (i : TapIns) (cells : Option (BitVec 64)) : State :=
  if s.por || s.hold == some .fault then
    s.withJtag { ins := i, cells := cells.getD s.jtag.cells }
  else (s.withJtag { s.jtag with ins := .bypass }).errLog stState srcElc none 0

/-- The low `n` bits of a number, lowest first. -/
def bitList (v : Nat) : Nat → List Bool
  | 0 => []
  | n + 1 => bit v 0 :: bitList (v / 2) n

/-! ## Meanings -/

/-- RAIL_DIP. -/
def execRailDip (rail : Fin 10) (s : State) : Host.Outcome State Fault Refusal := s.live (·.railDip rail)
/-- VID_STEP. -/
def execVidStep (up : Bool) (s : State) : Host.Outcome State Fault Refusal := s.live (·.vidStep up)
/-- SSC_WRITE. -/
def execSscWrite (v : BitVec 32) (s : State) : Host.Outcome State Fault Refusal := s.live (·.sscWrite v.toNat)
/-- SPREAD_CHANGE_DONE. -/
def execSpreadChangeDone (s : State) : Host.Outcome State Fault Refusal := s.live (·.fset ELC_SSC 16 1 0)
/-- THERMAL_TRIP: fault code 0x6D11. -/
def execThermalTrip (sensor : Fin 24) (s : State) : Host.Outcome State Fault Refusal :=
  s.live (fun s => (s.withMgmt { s.mgmt with thermTrip := some sensor.val }).fatal 0x6D11)
/-- SBG_OWN_WRITE. -/
def execSbgOwnWrite (g : Fin 2) (v : BitVec 32) (s : State) : Host.Outcome State Fault Refusal := s.live (·.sbgWrite g v.toNat)
/-- BYPASS. -/
def execBypass (s : State) : Host.Outcome State Fault Refusal :=
  s.always (fun s => (s.withJtag { s.jtag with ins := .bypass }))
/-- IDCODE. -/
def execIdcode (s : State) : Host.Outcome State Fault Refusal :=
  s.always (fun s => (s.withJtag { s.jtag with ins := .idcode }).emit (.jtag (bitList 0x12048DE1 32)))
/-- SAMPLE/PRELOAD: the cells are loaded; what the balls carry comes out, which is free (assumption 2). -/
def execSamplePreload (cells : BitVec 64) (s : State) : Host.Outcome State Fault Refusal :=
  s.always (fun s =>
    let (n, s) := s.draw
    (s.withJtag { ins := .sample, cells := cells }).emit (.jtag (bitList (Config.freeWord n).toNat 64)))
/-- EXTEST. -/
def execExtest (cells : BitVec 64) (s : State) : Host.Outcome State Fault Refusal := s.always (·.drive .extest (some cells))
/-- EXTEST_PULSE. -/
def execExtestPulse (cells : BitVec 64) (s : State) : Host.Outcome State Fault Refusal :=
  s.always (·.drive .extestPulse (some cells))
/-- EXTEST_TRAIN. -/
def execExtestTrain (cells : BitVec 64) (s : State) : Host.Outcome State Fault Refusal :=
  s.always (·.drive .extestTrain (some cells))
/-- CLAMP. -/
def execClamp (s : State) : Host.Outcome State Fault Refusal := s.always (·.drive .clamp none)
/-- HIGHZ. -/
def execHighz (s : State) : Host.Outcome State Fault Refusal := s.always (·.drive .highz none)

end Sys2Proof.Machine
end

