-- ==== Sys2Proof/Machine/Security.lean ====
section
/-! DEFINITION. The security controller (R359 to R387): its commands and the order in which it serves them, key slots and the key
table, attestation, trace tokens, life-cycle transitions. A command runs from its write until SEC_COMMAND_DONE, which decides
its status and carries out its effect as one step. -/

namespace Sys2Proof.Machine

/-! ## Bytes -/

/-- A byte string cut or padded with zeros to `n` bytes. -/
def fitBytes (n : Nat) (bs : List Byte) : List Byte := bs.take n ++ List.replicate (n - bs.length) 0

/-- `n` bytes from offset `o` on. -/
def cut (bs : List Byte) (o n : Nat) : List Byte := (bs.drop o).take n

/-- The little-endian word at offset `o`. -/
def wordAt (bs : List Byte) (o : Nat) : Nat := ofLe (cut bs o 8)

/-- All bytes are zero. -/
def allZero (bs : List Byte) : Bool := bs.all (· == 0)

/-- `n` bytes the spec does not state: free (assumption 2). -/
def State.freeBytes (s : State) (n : Nat) : List Byte × State :=
  let (i, s) := s.draw
  ((List.range n).map (Config.freeByte i), s)

/-- The generator seeded with 48 bytes of the entropy source, which are free (R373). -/
def State.seed (s : State) (g : Drbg) : State :=
  let (e, s) := s.freeBytes 48
  let (key, v) := drbgUpdate g.key g.v e
  s.withSec { s.sec with drbg := { key := key, v := v, count := 1 } }

/-- `n` bytes of the random bit generator, which is seeded at first and again every 2^16 requests (R373). -/
def State.randomBytes (s : State) (n : Nat) : List Byte × State :=
  let s := if s.sec.drbg.count = 0 || 65536 < s.sec.drbg.count then s.seed s.sec.drbg else s
  let g := s.sec.drbg
  let m := ceilDiv n 16
  let (key, v) := drbgUpdate g.key (beBytes 16 ((ofBe g.v + m) % 2 ^ 128)) (List.replicate 48 0)
  ((drbgBlocks g.key m (ofBe g.v)).take n, s.withSec { s.sec with drbg := { key := key, v := v, count := g.count + 1 } })

/-- A private scalar or nonce of the random bit generator. -/
def State.randomScalar (s : State) : List Byte × State :=
  let (b, s) := s.randomBytes 56
  (ecScalar b, s)

/-- A public key field (R374). -/
def pubField (point : List Byte) : List Byte := fitBytes 97 point ++ List.replicate 31 0

/-- A public key field that is not malformed (R374). -/
def pubOk (f : List Byte) : Bool := ecValid (f.take 97) && allZero (f.drop 97)

/-- A signature field over SHA-384 of a byte string, by the identity key (R363, R374). -/
def State.signed (s : State) (bs : List Byte) : List Byte × State :=
  let (nonce, s) := s.randomScalar
  let key := s.sec.ident.getD Config.identKey
  (fitBytes 96 (ecSign key (sha384 bs) nonce) ++ List.replicate 32 0, s)

/-! ## Key slots (R376 to R379) -/

/-- The slot KEYID of a partition. -/
def State.keySlot (s : State) (pn kid : Nat) : KeySlot := tabGet .empty s.sec.keys (16 * pn + kid)

/-- The state with a key slot changed; the slot version counts installs and destroys (R376). -/
def State.setKeySlot (s : State) (pn kid : Nat) (x : KeySlot) : State :=
  s.withSec { s.sec with keys := tabPut .empty s.sec.keys (16 * pn + kid) x
                         voided := s.sec.voided.filter (fun i => i != 16 * pn + kid) }

/-- One more install or destroy of a slot. -/
def State.bumpSlot (s : State) (pn kid : Nat) : State :=
  let i := 16 * pn + kid
  s.withSec { s.sec with vers := tabPut 0 s.sec.vers i ((tabGet 0 s.sec.vers i + 1) % 65536) }

/-- A key is installed: the slot is LOADED and its entry stands in the key table. -/
def State.installKey (s : State) (pn kid : Nat) (key : List Byte) : State :=
  let s := (s.bumpSlot pn kid).setKeySlot pn kid (.loaded key)
  let i := 16 * pn + kid
  s.agentWrite (s.rd64 SEC_KTAB_LO + 64 * i) (fitBytes 64 (Config.ktabEntry s.sec.kek pn kid (tabGet 0 s.sec.vers i) key))

/-- The binding block B: PN, KEYID, epoch, SESSION, direction 1 import or 2 export (R378). -/
def State.binding (s : State) (pn kid dir : Nat) : List Byte :=
  [0x5A, 0x50, 0x4B, 0x57] ++ leBytes 2 pn ++ leBytes 1 kid ++ leBytes 1 (s.epoch pn) ++ leBytes 4 (s.rd SEC_SESSION) ++ leBytes 4 dir

/-- The IV of a key wrap. -/
def zeroIv : List Byte := List.replicate 12 0

/-- The identity number, little-endian. -/
def idnBytes : List Byte := leBytes 8 Config.idn.toNat

/-- KEY_GEN: a fresh key, wrapped to the recipient key, and installed: the export block. -/
def State.keyGen (s : State) (pn kid : Nat) (arg : List Byte) : Nat × List Byte × State :=
  if s.keySlot pn kid ≠ .empty then (stState, [], s)
  else if !pubOk arg then (stArg, [], s)
  else
    let (d, s) := s.randomScalar
    let (key, s) := s.randomBytes 32
    let b := s.binding pn kid 2
    let wk := hkdf (ecdh d (arg.take 97)) b
    let (ct, tag) := gcmSeal wk zeroIv b key
    let body := b ++ idnBytes ++ List.replicate 8 0 ++ pubField (ecPublic d) ++ fitBytes 32 ct ++ fitBytes 16 tag ++
      List.replicate 16 0
    let (sig, s) := s.signed body
    (0, body ++ sig, s.installKey pn kid key)

/-- KX_BEGIN: the slot is OFFERED: the import offer. -/
def State.kxBegin (s : State) (pn kid : Nat) : Nat × List Byte × State :=
  if s.keySlot pn kid ≠ .empty then (stState, [], s)
  else
    let (d, s) := s.randomScalar
    let body := s.binding pn kid 1 ++ idnBytes ++ List.replicate 8 0 ++ pubField (ecPublic d)
    let (sig, s) := s.signed body
    (0, body ++ sig, s.setKeySlot pn kid (.offered d (s.epoch pn)))

/-- KEY_IMPORT: the key is unwrapped with the offer's private key and installed; a refused one empties the slot. An offer that a
reset has voided refuses it with ST_EPOCH (R371). -/
def State.keyImport (s : State) (pn kid : Nat) (arg : List Byte) : Nat × List Byte × State :=
  match s.keySlot pn kid with
  | .offered d ep =>
    let void (st : Nat) : Nat × List Byte × State := (st, [], s.setKeySlot pn kid .empty)
    let b := s.binding pn kid 1
    let pub := cut arg 0x20 128
    if s.rngFail then void stDown
    else if ep ≠ s.epoch pn || (arg.getD 7 0).toNat ≠ s.epoch pn then void stEpoch
    else if arg.take 16 ≠ b || !allZero (cut arg 0x10 16) || !pubOk pub then void stArg
    else
      let wk := hkdf (ecdh d (pub.take 97)) b
      match gcmOpen wk zeroIv b (cut arg 0xA0 32) (cut arg 0xC0 16) with
      | some key => (0, [], s.installKey pn kid (fitBytes 32 key))
      | none => ((void stAuth).1, [], (void stAuth).2.2.count SEC_AUTHFAIL 1)
  | .empty => if s.sec.voided.contains (16 * pn + kid) then (stEpoch, [], s.setKeySlot pn kid .empty) else (stState, [], s)
  | .loaded _ => (stState, [], s)

/-! ## Trace tokens (R385, R386) -/

/-- SEC_TOKENS. -/
def State.setTokens (s : State) (t : Tab Token) : State :=
  (s.withSec { s.sec with tokens := t }).wr SEC_TOKENS t.length

/-- The trace token of a partition lapses: trace of the partition ends on every pair. -/
def State.lapse (s : State) (pn : Nat) : State :=
  match tabFind s.sec.tokens pn with
  | none => s
  | some _ =>
    let s := s.setTokens (tabDel s.sec.tokens pn)
    let s := (List.range 81).foldl (fun (s : State) pp =>
      if s.fbit (PAI_TRC_CTL pp) 31 && s.fget (PAI_TRC_CTL pp) 0 11 == pn then
        (s.fset (PAI_TRC_CTL pp) 31 1 0).fset (PAI_TRC_ST pp) 0 8 stAuth
      else s) s
    s.partEvent pn 5

/-- KEYID of a token. -/
def Token.keyid (t : Token) : Nat := bits (wordAt t.body 0) 1 4

/-- A reason for a lapse holds: expiry, another epoch, the slot no longer LOADED. -/
def State.tokenDead (s : State) (pn : Nat) (t : Token) : Bool :=
  bits (wordAt t.body 16) 4 60 < s.time.tick || t.epoch != s.epoch pn || !s.keyLoaded pn t.keyid

/-- TOKEN_LAPSE. -/
def execTokenLapse (pn : Pn) (s : State) : Host.Outcome State Fault Refusal :=
  s.live (fun s => match tabFind s.sec.tokens pn with
    | some t => if s.tokenDead pn t then s.lapse pn else s
    | none => s)

/-- A key slot is cleared; a token made with its key lapses. -/
def State.clearSlot (s : State) (pn kid : Nat) : State :=
  let s := (s.bumpSlot pn kid).setKeySlot pn kid .empty
  match tabFind s.sec.tokens pn with
  | some t => if t.keyid = kid then s.lapse pn else s
  | none => s

/-- TOKEN_INSTALL (R385). -/
def State.tokenInstall (s : State) (pn : Nat) (arg : List Byte) : Nat × List Byte × State :=
  let w := wordAt arg
  let serial := w 24
  let kid := bits (w 0) 1 4
  let iv := List.replicate 4 (0xFF : Byte) ++ (cut arg 24 8).reverse
  if bits (w 0) 32 32 ≠ 0x54524354 || bits (w 0) 24 8 ≠ 1 || bits (w 0) 13 11 ≠ pn || bit (w 0) 0 || w 8 ≠ Config.idn.toNat
      || bits (w 16) 0 4 ≠ 0 || w 32 ≠ 0 || w 40 ≠ 0 then (stArg, [], s)
  else if bits (w 0) 5 8 ≠ s.epoch pn then (stEpoch, [], s)
  else if bits (w 16) 4 60 ≤ s.time.tick || serial + 1 ≤ tabGet 0 s.sec.serials pn then (stRange, [], s)
  else
    match s.keySlot pn kid with
    | .loaded key =>
      match gcmOpen key iv (arg.take 48) [] (cut arg 48 16) with
      | none => (stAuth, [], s.count SEC_AUTHFAIL 1)
      | some _ =>
        if 64 ≤ s.sec.tokens.length && (tabFind s.sec.tokens pn).isNone then (stNospace, [], s)
        else
          let s := s.withSec { s.sec with serials := tabPut 0 s.sec.serials pn (serial + 1) }
          (0, [], s.setTokens (tabIns s.sec.tokens pn { epoch := s.epoch pn, body := arg.take 64 }))
    | _ => (stState, [], s)

/-! ## Identity, attestation, life cycle -/

/-- The public point of the identity key. -/
def State.identPub (s : State) : List Byte := fitBytes 97 (ecPublic (s.sec.ident.getD Config.identKey))

/-- The identity block (R372). -/
def State.idBlock (s : State) : List Byte :=
  idnBytes ++ leBytes 8 s.nvs.cert.length ++ pubField s.identPub ++ s.nvs.cert

/-- The attestation report (R384), with the block of a partition where one is given. -/
def State.report (s : State) (part : Option Nat) (nonce : List Byte) : List Byte × State :=
  let svn (i : Nat) : Nat := s.sec.svns.getD i 0
  let head := leBytes 8 (0x49564154 * 2 ^ 32 + 2 ^ 24 + s.lcs * 2 ^ 20 + b2n part.isSome) ++ idnBytes ++
    leBytes 8 (s.rd SEC_SESSION * 2 ^ 32) ++ leBytes 8 (if s.tstate = 2 then s.time.tick * 16 else 0) ++
    (List.range 4).flatMap (fun i => leBytes 8 (s.feat i)) ++ fitBytes 32 nonce ++
    (List.range 4).flatMap (fun i => fitBytes 48 (tabGet [] s.sec.mr i)) ++
    leBytes 8 (svn 0 * 2 ^ 48 + svn 1 * 2 ^ 32 + svn 2 * 2 ^ 16) ++ List.replicate 8 0
  let body := match part with
    | some pn =>
      let p := s.part pn
      head ++ leBytes 8 (pn * 2 ^ 53 + s.epoch pn * 2 ^ 45 + maskOf (s.keyLoaded pn) 16 * 2 ^ 29) ++
        leBytes 8 (p.nprog * 2 ^ 32 + p.ncode) ++ fitBytes 48 p.tmr ++ fitBytes 48 p.cmr ++ List.replicate 16 0
    | none => head
  let (sig, s) := s.signed body
  (body ++ sig, s)

/-- A write of non-volatile words that may end its command with ST_WEAR, nothing written (R370, R454): whether it does is free
(assumption 2). -/
def State.secWrites (s : State) (f : State → State) : Nat × List Byte × State :=
  let (i, s) := s.draw
  if Config.freeBool i then (0, [], f s) else (stWear, [], s)

/-- CERT_INSTALL (R363). -/
def State.certInstall (s : State) (arg : List Byte) : Nat × List Byte × State :=
  let n := wordAt arg 0
  let c := cut arg 8 n
  if n = 0 || 2048 < n || certParts c ≠ some (Config.idn.toNat, s.identPub) then (stArg, [], s)
  else s.secWrites (fun s => ((s.withNvs { s.nvs with cert := c }).wearControl).fset SEC_LC 9 1 1)

/-- A transition authorisation holds (R361). -/
def State.authOk (s : State) (arg : List Byte) (tgt : Nat) : Bool :=
  let w := wordAt arg
  let root := bits (w 0x40) 0 8
  let pub := cut arg 0x50 128
  bits (w 0) 32 32 == 0x4C435441 && bits (w 0) 24 8 == 1 && bits (w 0) 0 4 == tgt && w 8 == Config.idn.toNat && s.sec.challenge == some (cut arg 0x10 32)
    && root < 4 && !bit (s.rd SEC_ROOTREV) root && pubOk pub
    && sha384 (pub.take 97) == Config.rootDigest root
    && ecVerify (pub.take 97) (sha384 (arg.take 0xD0)) (cut arg 0xD0 128)

/-- Key table, tokens and session KEK are cleared (R360). -/
def State.clearSecrets (s : State) : State :=
  let s := (s.sec.tokens.map (·.1)).foldl (fun (s : State) pn => s.lapse pn) s
  (s.withSec { s.sec with kek := [], keys := [], voided := [] }).hbmZero (s.rd64 SEC_KTAB_LO) 0x200000

/-- The commit row is blown: the new state, and the device holds itself in reset until PORn (R360). -/
def State.advanceTo (s : State) (lcs : Nat) : State :=
  ((s.fset SEC_LC 0 4 lcs).fset SEC_LC 16 1 1).withHold (some .lifeCycle)

/-- The status registers of commands: a register with its BUSY bit and its status field. -/
def cmdRegs : List (Nat × Nat × Nat) :=
  [(CHS_CMD_ST, 8, 0), (NVS_ST, 8, 0), (BST_CMD_ST, 8, 0), (MGT_MBX_ST, 8, 0), (CLU_SP_CMD_ST, 8, 0), (CTB_INV_ST, 8, 0)] ++
    (List.range 8).map (fun c => (CLU_CMD_ST c, 8, 0)) ++ (List.range 9).map (fun c => (MEM_CL_HOLD_ST c, 8, 0)) ++
    (List.range 2048).flatMap (fun p => [(PRT_CMD_ST p, 16, 0), (PRT_CHS_CMD_ST p, 8, 0)])

/-- Every command in progress outside the security controller ends with ST_DOWN (R360). -/
def State.cmdsDown (s : State) : State :=
  cmdRegs.foldl (fun (s : State) r => if s.fbit r.1 r.2.1 then (s.fset r.1 r.2.1 1 0).fset r.1 r.2.2 8 stDown else s) s

/-- Every command of the security controller ends with ST_DOWN. -/
def State.secAllDown (s : State) : State :=
  let s := s.sec.runs.foldl (fun (s : State) e =>
    if e.1 = 0 then s.wr SEC_CMD_ST stDown else (s.wr (PRT_SEC_CMD_ST (e.1 - 1)) stDown).partEvent (e.1 - 1) 2) s
  (s.withSec { s.sec with runs := [], serving := none })

/-- LC_ADVANCE (R360, R361). Whether Walath has programmed the fuses over JTAG that BLANK to MANUFACTURE requires is free
(assumption 66). -/
def State.lcAdvance (s : State) (tgt confirm : Nat) (arg : List Byte) : Nat × List Byte × State :=
  let spent := s.withSec { s.sec with challenge := none }
  match s.lcs, tgt with
  | 0, 1 =>
    let (i, s) := s.draw
    if Config.freeBool i then (0, [], s.advanceTo 1) else (stState, [], s)
  | 1, 2 =>
    if s.rngFail then (stDown, [], s)
    else if !s.authOk arg 2 then (stAuth, [], spent.count SEC_AUTHFAIL 1)
    else
      let (key, s) := spent.randomScalar
      (0, [], ((s.withSec { s.sec with ident := some key }).fset SEC_LC 8 1 1).advanceTo 2)
  | 2, 3 => if s.fbit SEC_LC 9 then (0, [], s.advanceTo 3) else (stState, [], s)
  | 3, 4 =>
    if !s.authOk arg 4 then (stAuth, [], spent.count SEC_AUTHFAIL 1)
    else if (List.range 2048).any (fun pn => s.pstate pn != 0) then (stState, [], spent)
    else (0, [], spent.clearSecrets.advanceTo 4)
  | 3, 5 | 4, 5 =>
    if confirm ≠ 0x5C then (stState, [], s)
    else
      let s := s.clearSecrets.secAllDown.cmdsDown
      let s := (s.withSec { s.sec with ident := some (List.replicate 48 0xFF) })
      (0, [], (s.fset SEC_LC 8 1 0).advanceTo 5)
  | _, _ => (stState, [], s)

/-- Every fused minimum SVN raised to the SVN of the image of its TYPE that booted (R367). -/
def State.raiseSvns (s : State) : State :=
  (List.range 3).foldl (fun (s : State) i =>
    s.fset SEC_SVN (6 * (i + 1)) 6 (max (s.fget SEC_SVN (6 * (i + 1)) 6) (min (s.sec.svns.getD i 0) 63))) s

/-- SVN_COMMIT (R367): one that would raise no minimum blows nothing. -/
def State.svnCommit (s : State) : Nat × List Byte × State :=
  if (List.range 3).all (fun i => s.sec.svns.getD i 0 ≤ s.fget SEC_SVN (6 * (i + 1)) 6) then (0, [], s)
  else s.secWrites (·.raiseSvns)

/-! ## Commands (R368 to R371) -/

/-- The argument bytes and the output bytes of an operation (R370). -/
def secArgLen (op tgt : Nat) : Nat :=
  match op with
  | 0x01 => 128
  | 0x03 => 208
  | 0x05 => 32
  | 0x06 => 64
  | 0x11 => 2056
  | 0x13 => if tgt = 2 || tgt = 4 then 336 else 0
  | _ => 0

/-- The life-cycle states in which an operation is permitted (R370). -/
def secStates (op : Nat) : List Nat :=
  match op with
  | 0x05 | 0x10 => [2, 3, 4]
  | 0x11 => [2]
  | 0x12 => [1, 3]
  | 0x13 => [0, 1, 2, 3, 4]
  | _ => [3]

/-- An issuer may give an operation (R370): 0 the manager, else a partition. -/
def secIssuer (op : Nat) (mgr : Bool) : Bool :=
  match op with
  | 0x01 | 0x02 | 0x03 => !mgr
  | 0x04 | 0x05 | 0x07 | 0x10 => true
  | _ => mgr

/-- The operation needs random bits (R375); KEY_IMPORT and LC_ADVANCE see to it themselves. -/
def secRandom (op : Nat) : Bool := [0x01, 0x02, 0x05, 0x12].contains op

/-- The parts of an area of `n` bytes that an issuer names: physical pages of no partition for the manager, a virtual range
with permission bit `p` for a partition (R369). -/
def State.secArea (s : State) (who p a n : Nat) : Option (List (Nat × Nat)) :=
  if who = 0 then
    if a + n ≤ hbmSize && s.unassigned a n then some [(a, n)] else none
  else s.walkRange (who - 1) p (n / 0x200000 + 2) a n

/-- The bytes of an area. -/
def State.readParts (s : State) (ps : List (Nat × Nat)) : List Byte := ps.flatMap (fun p => s.hbmRead p.1 p.2)

/-- Bytes written over the parts of an area, as an agent without a cache. -/
def State.writeParts : State → List (Nat × Nat) → List Byte → State
  | s, [], _ => s
  | s, p :: ps, bs => (s.agentWrite p.1 (bs.take p.2)).writeParts ps (bs.drop p.2)

/-- The argument of a command; a certificate is read by its own length. -/
def State.secArg (s : State) (who op tgt a : Nat) : Option (List Byte) :=
  if op = 0x11 then
    match s.secArea who 61 a 8 with
    | some ps =>
      let n := min (ofLe (s.readParts ps)) 2048
      (s.secArea who 61 a (8 + n)).map s.readParts
    | none => none
  else if secArgLen op tgt = 0 then some []
  else (s.secArea who 61 a (secArgLen op tgt)).map s.readParts

/-- The effect of an operation: status, output, state. -/
def State.secEffect (s : State) (who : Nat) (r : SecRun) (arg : List Byte) : Nat × List Byte × State :=
  let worn := s.sec.worn && r.op < 5
  if worn then (stWear, [], s)
  else
    match r.op with
    | 0x01 => s.keyGen r.pn r.keyid arg
    | 0x02 => s.kxBegin r.pn r.keyid
    | 0x03 => s.keyImport r.pn r.keyid arg
    | 0x04 => (0, [], s.clearSlot r.pn r.keyid)
    | 0x05 =>
      if who = 0 && r.scope && s.pstate r.pn = 0 then (stState, [], s)
      else
        let (bs, s) := s.report (if who = 0 && !r.scope then none else some r.pn) arg
        (0, bs, s)
    | 0x06 => s.tokenInstall r.pn arg
    | 0x07 => if (tabFind s.sec.tokens r.pn).isNone then (stState, [], s) else (0, [], s.lapse r.pn)
    | 0x10 => (0, s.idBlock, s)
    | 0x11 => s.certInstall arg
    | 0x12 =>
      let (c, s) := s.randomBytes 32
      (0, c, (s.withSec { s.sec with challenge := some c }))
    | 0x13 => s.lcAdvance r.tgt r.confirm arg
    | _ => s.svnCommit

/-- The bytes of a command's output block (R370). -/
def State.secOutLen (s : State) (who : Nat) (r : SecRun) : Nat :=
  match r.op with
  | 0x01 => 352
  | 0x02 => 288
  | 0x05 => if who = 0 && !r.scope then 432 else 560
  | 0x10 => s.idBlock.length
  | 0x12 => 32
  | _ => 0

/-- The output area of a running command: none where its address fails a condition of R369. -/
def State.secOut (s : State) (who : Nat) (r : SecRun) : Option (List (Nat × Nat)) :=
  if s.secOutLen who r = 0 then some [] else s.secArea who 60 r.out (s.secOutLen who r)

/-- What a running command comes to: its status, and the state after it with its output written on ST_OK. The refusals of R369
stand before those of the operation (R370). -/
def State.secOutcome (s : State) (who : Nat) (r : SecRun) : Nat × State :=
  if !secIssuer r.op (who == 0) then (stPerm, s)
  else if !(secStates r.op).contains s.lcs then (stState, s)
  else
    match r.arg, s.secOut who r with
    | some arg, some ps =>
      if secRandom r.op && s.rngFail then (stDown, s)
      else
        let (st, out, s') := s.secEffect who r arg
        if st ≠ 0 then (st, s') else (0, s'.writeParts ps out)
    | _, _ => (stPerm, s)

/-- The issuer served next (R368): the manager first, but one partition after each manager command; partitions in ascending
order after the one served last. -/
def SecSt.next (x : SecSt) : Option Nat :=
  let parts := x.runs.filter (fun e => e.1 != 0)
  let pick : Option Nat := match parts.find? (fun e => x.lastPn + 1 < e.1) with
    | some e => some e.1
    | none => parts.head?.map (·.1)
  let mgr := (tabFind x.runs 0).isSome
  if mgr && !(x.afterMgr && pick.isSome) then some 0 else pick

/-- SEC_CMD_ST, or PRT_SEC_CMD_ST of a partition. -/
def secStReg (who : Nat) : Nat := if who = 0 then SEC_CMD_ST else PRT_SEC_CMD_ST (who - 1)

/-- A command word is written (R368, R369): refused while a command of the issuer runs, and for a partition while it is
QUIESCING (R394). -/
def State.secCmd (s : State) (who op pn kid : Nat) (scope : Bool) (confirm tgt : Nat) : State :=
  if s.fbit (secStReg who) 8 then s.fset (secStReg who) 0 8 stBusy
  else if who ≠ 0 && s.pstate (who - 1) = 3 then (s.wr (secStReg who) stState).partEvent (who - 1) 2
  else
    let (a, o) := if who = 0 then (s.rd64 SEC_ARG_LO, s.rd64 SEC_OUT_LO)
      else (s.rd64 (PRT_SEC_ARG_LO (who - 1)), s.rd64 (PRT_SEC_OUT_LO (who - 1)))
    let pn := if who = 0 then pn else who - 1
    let r : SecRun := { op := op, pn := pn, keyid := kid, scope := scope, confirm := confirm, tgt := tgt,
                        arg := s.secArg who op tgt a, out := o, epoch := s.epoch pn }
    let s := s.wr (secStReg who) 0x100
    let x := { s.sec with runs := tabIns s.sec.runs who r }
    s.withSec (if x.serving.isNone then { x with serving := some who } else x)

/-- A running command ends with a status. -/
def State.secEnds (s : State) (who st ep : Nat) : State :=
  let x := s.sec
  let runs := tabDel x.runs who
  let x := if x.serving = some who then
      let x := { x with runs := runs, afterMgr := who == 0, lastPn := if who = 0 then x.lastPn else who - 1 }
      { x with serving := x.next }
    else { x with runs := runs }
  let s := (s.withSec x).wr (secStReg who) st
  if who = 0 then s else s.eventOf (who - 1) 2 ep

/-- SEC_COMMAND_DONE of the command that the controller serves. -/
def State.secDone (s : State) (who : Nat) : State :=
  if s.sec.serving ≠ some who then s
  else
    match tabFind s.sec.runs who with
    | some r =>
      let (st, s') := s.secOutcome who r
      if (tabFind s'.sec.runs who).isSome then s'.secEnds who st r.epoch else s'.wr (secStReg who) st
    | none => s

/-- The running security command of a partition ends with ST_EPOCH (R371): a stale message. -/
def State.secVoid (s : State) (pn : Nat) : State :=
  match tabFind s.sec.runs (pn + 1) with
  | some r => (s.stale pn 7 r.epoch).secEnds (pn + 1) stEpoch r.epoch
  | none => s

/-- The number of an issuer. -/
def issuerNo : Issuer → Nat
  | .mgr => 0
  | .part pn => pn.val + 1

/-! ## Meanings -/

/-- KEY_GEN. -/
def execKeyGen (who : Issuer) (keyid : Fin 16) (s : State) : Host.Outcome State Fault Refusal :=
  s.live (·.fromPart (issuerSide who) 0x90 (·.secCmd (issuerNo who) 0x01 0 keyid false 0 0))
/-- KX_BEGIN. -/
def execKxBegin (who : Issuer) (keyid : Fin 16) (s : State) : Host.Outcome State Fault Refusal :=
  s.live (·.fromPart (issuerSide who) 0x90 (·.secCmd (issuerNo who) 0x02 0 keyid false 0 0))
/-- KEY_IMPORT. -/
def execKeyImport (who : Issuer) (keyid : Fin 16) (s : State) : Host.Outcome State Fault Refusal :=
  s.live (·.fromPart (issuerSide who) 0x90 (·.secCmd (issuerNo who) 0x03 0 keyid false 0 0))
/-- KEY_DESTROY. -/
def execKeyDestroy (who : Issuer) (pn : Pn) (keyid : Fin 16) (s : State) : Host.Outcome State Fault Refusal :=
  s.live (·.fromPart (issuerSide who) 0x90 (·.secCmd (issuerNo who) 0x04 pn keyid false 0 0))
/-- ATTEST. -/
def execAttest (who : Issuer) (pn : Pn) (scope : Bool) (s : State) : Host.Outcome State Fault Refusal :=
  s.live (·.fromPart (issuerSide who) 0x90 (·.secCmd (issuerNo who) 0x05 pn 0 scope 0 0))
/-- TOKEN_INSTALL. -/
def execTokenInstall (pn : Pn) (s : State) : Host.Outcome State Fault Refusal := s.live (·.secCmd 0 0x06 pn 0 false 0 0)
/-- TOKEN_REVOKE. -/
def execTokenRevoke (who : Issuer) (pn : Pn) (s : State) : Host.Outcome State Fault Refusal :=
  s.live (·.fromPart (issuerSide who) 0x90 (·.secCmd (issuerNo who) 0x07 pn 0 false 0 0))
/-- ID_READ. -/
def execIdRead (who : Issuer) (s : State) : Host.Outcome State Fault Refusal := s.live (·.fromPart (issuerSide who) 0x90 (·.secCmd (issuerNo who) 0x10 0 0 false 0 0))
/-- CERT_INSTALL. -/
def execCertInstall (s : State) : Host.Outcome State Fault Refusal := s.live (·.secCmd 0 0x11 0 0 false 0 0)
/-- LC_CHALLENGE. -/
def execLcChallenge (s : State) : Host.Outcome State Fault Refusal := s.live (·.secCmd 0 0x12 0 0 false 0 0)
/-- LC_ADVANCE. -/
def execLcAdvance (tgt : BitVec 4) (confirm : BitVec 8) (s : State) : Host.Outcome State Fault Refusal :=
  s.live (·.secCmd 0 0x13 0 0 false confirm.toNat tgt.toNat)
/-- SVN_COMMIT. -/
def execSvnCommit (s : State) : Host.Outcome State Fault Refusal := s.live (·.secCmd 0 0x14 0 0 false 0 0)
/-- SEC_COMMAND_DONE. -/
def execSecCommandDone (s : State) : Host.Outcome State Fault Refusal :=
  s.live (fun s => match s.sec.serving with | some i => s.secDone i | none => s)
/-- RNG_HEALTH_FAILURE (R375). -/
def execRngHealthFailure (s : State) : Host.Outcome State Fault Refusal := s.live (·.fset SEC_RNG 1 1 1)

end Sys2Proof.Machine
end

