-- ==== Sys2Proof/Machine/Partitions.lean ====
section
/-! DEFINITION. Partitions: commands (R391 to R396), page owners (R399, R400), translations renewed (R401), shares (R404, R406),
the arbitration epoch (R403, R409), staging words (R415), function-level resets (R410, R411). -/

namespace Sys2Proof.Machine

/-- A partition command or a function-level reset has ended (R393, R410, R459). -/
def State.partEnded (s : State) (pn : Nat) : State :=
  let m := s.mgmt
  let m := if m.pevtq.length < 64 then { m with pevtq := m.pevtq ++ [pn] } else { m with pevtOvf := true }
  (s.withMgmt m).mgrEvent 1

/-- PRT_STATE.STATE. -/
def State.setPstate (s : State) (pn v : Nat) : State := s.fset (PRT_STATE pn) 0 3 v

/-- The partitions for which the register at offset `o` of their window does not hold its reset value. -/
def State.prtWith (s : State) (o : Nat) : List Nat :=
  (s.regs.filter (fun e => 0x2000000 ≤ e.1 && e.1 < 0x2800000 && e.1 % 0x1000 == o)).map (fun e => (e.1 - 0x2000000) / 0x1000)

/-- The partitions that are not FREE. -/
def State.livePns (s : State) : List Nat := (s.prtWith 0).filter (fun pn => s.pstate pn != 0)

/-! ## Pages (R399, R400) -/

/-- The page table of a partition: 16,384 entries of 8 bytes (R175). -/
def State.pageTable (s : State) (pn : Nat) : Nat × Nat := (s.rd64 (PRT_PTB_LO pn), 0x20000)

/-- Engine `e` serves an enabled stream: the stream's lane set holds one of its lanes. -/
def State.servesStream (s : State) (e : Nat) : Bool :=
  s.enabledStreams.any (fun n => bits (s.strLanes n) (16 * e) 16 != 0)

/-- The device areas (R399). -/
def State.deviceAreas (s : State) : List (Nat × Nat) :=
  (if s.fbit CTB_CTL 0 then [(s.rd64 CTB_BASE_LO, 64 * s.fget CTB_NCHAN 0 19)] else [])
    ++ s.enabledStreams.flatMap s.rings
    ++ ((List.range 4).filter s.servesStream).map (fun e => (s.lbBase e, s.lbChunks e * 2048))
    ++ (if s.fbit CHS_CTL 0 then s.chsAreas else [])
    ++ [(s.rd64 SEC_KTAB_LO, 0x200000)]
    ++ ((List.range 8).filter (fun c => s.fbit (CLU_CTL c) 0)).map (fun c => (s.rd64 (CLU_MIR_LO c), 0x100000))
    ++ s.livePns.map s.pageTable

/-- FIRST, LAST and ALL of PRT_ARG. -/
def argFirst (arg : Nat) : Nat := bits arg 0 14
def argLast (arg : Nat) : Nat := bits arg 16 14
def argAll (arg : Nat) : Bool := bit arg 31

/-- The bytes of pages `f` to `l`. -/
def pageBytes (f l : Nat) : Nat × Nat := (f * 0x200000, (l + 1 - f) * 0x200000)

/-- The status of PG_ASSIGN, 0 where it is accepted. -/
def State.assignSt (s : State) (pn f l : Nat) : Nat :=
  if l < f then stArg
  else if s.owners.any (fun e => f ≤ e.1 && e.1 ≤ l && e.2 != pn) || s.deviceAreas.any (fun a => rangesMeet a (pageBytes f l)) then
    stConflict
  else 0

/-- The ring of the enabled delivering subscription of a partition. -/
def State.ringOf (s : State) (pn : Nat) : Option (Nat × Nat) :=
  if s.subEn pn && s.fbit (SLC_SUB_CTL pn) 30 then some (s.subRing pn, s.subQd pn * s.slotSz pn) else none

/-- The status of PG_RELEASE, 0 where it is accepted. -/
def State.releaseSt (s : State) (pn f l : Nat) : Nat :=
  if l < f then stArg
  else if (match s.ringOf pn with | some r => rangesMeet r (pageBytes f l) | none => false) then stConflict
  else if (List.range (l + 1 - f)).any (fun i => s.owner (f + i) != some pn) then stPerm
  else 0

/-- Locked translations that a test on the entry and its VPN picks become invalid. -/
def Arch.dropLocked (a : Arch) (p : Nat → Nat → Bool) : Arch :=
  (List.range 16).foldl (fun (a : Arch) n =>
    if bit (a.csrv (0x410 + n)).toNat 63 && p (a.csrf (0x410 + n) 0 14) (tabGet 0 a.tlb n).toNat then
      a.setCsrf (0x410 + n) 63 1 0
    else a) a

/-- The contexts, checkpoints and images of every logical pair changed. -/
def State.mapImages (s : State) (f : Image → Image) : State :=
  (s.withLps (s.lps.map (fun e => (e.1, { e.2 with
      ctx := e.2.ctx.map (fun x => (x.1, f x.2))
      hbmCtx := e.2.hbmCtx.map (fun x => (x.1, f x.2))
      mirror := e.2.mirror.map f
      closed := e.2.closed.map (fun i =>
        let x := f { arch := i.arch, sl := i.sl, pn := i.pn }
        { i with arch := x.arch, sl := x.sl })
      flushed := e.2.flushed.map f }))))

/-- The unlocked translations that a test on partition, VPN and entry picks leave every core (R400, R401). -/
def State.dropUnlocked (s : State) (p : Nat → Nat → Nat → Bool) : State :=
  (s.withCores (s.cores.map (fun e => (e.1, { e.2 with utlb := e.2.utlb.filter (fun x => !p e.2.pn x.2.1 x.2.2.toNat) }))))

/-- The contexts of the cores changed, with the partition each one runs. -/
def State.mapCores (s : State) (f : Nat → Arch → Arch) : State :=
  (s.withCores (s.cores.map (fun e => (e.1, { e.2 with arch := f e.2.pn e.2.arch }))))

/-- An image with its contexts changed, the one before its SLGET too. -/
def Image.mapArch (i : Image) (f : Arch → Arch) : Image := { i with arch := f i.arch, sl := i.sl.map (fun p => (f p.1, p.2)) }

/-- The stores in the store buffer of core `k` to a page are dropped, Monitor stores with them (R264, R400). -/
def State.dropPageStores (s : State) (f l k : Nat) : State :=
  let c := s.core k
  let hit (st : Store) : Bool :=
    (st.ty == .cacheable || st.ty == .uncached) && f ≤ st.pa / 0x200000 && st.pa / 0x200000 ≤ l
  if c.sb.any hit then
    let s := s.setCore k { c with sb := c.sb.filter (fun st => !hit st) }
    (c.sb.filter hit).foldl (fun (s : State) st => (s.storeDropped k st 3).errLog stPerm srcMem (some st.pn) st.pa) s
  else s

/-- Zeros written over pages as an agent without a cache writes them (R252): no cache keeps a line of them. -/
def State.scrub (s : State) (f l : Nat) : State :=
  let (a, n) := pageBytes f l
  let out (line : Nat) : Bool := line < a / 64 || (a + n) / 64 ≤ line
  let s : State := (((s.withClusters (s.clusters.map (fun e => (e.1, { e.2 with l2 := e.2.l2.filter (fun x => out x.1) })))).withCores (s.cores.map (fun e => (e.1, { e.2 with l1d := e.2.l1d.filter (fun x => out x.1) })))).withPoison (s.poison.filter out))
  s.hbmZero a n

/-- Pages `f` to `l` are released (R400): owner fields, translations, buffered stores, contents. -/
def State.releasePages (s : State) (f l : Nat) : State :=
  let s := s.withOwners (s.owners.filter (fun e => e.1 < f || l < e.1))
  let here (_ e : Nat) : Bool := f ≤ bits e 21 14 && bits e 21 14 ≤ l
  let s := (s.mapCores (fun _ a => a.dropLocked here)).mapImages (fun i => i.mapArch (fun a => a.dropLocked here))
  let s := s.dropUnlocked (fun _ => here)
  ((s.cores.map (·.1)).foldl (fun (s : State) k => s.dropPageStores f l k) s).scrub f l

/-! ## TLBINV (R401) -/

/-- The locked entries that a test on the VPN picks, walked again. -/
def State.rewalk (s : State) (pn : Nat) (p : Nat → Bool) (a : Arch) : Arch :=
  (List.range 16).foldl (fun (a : Arch) n =>
    let vpn := a.csrf (0x410 + n) 0 14
    if bit (a.csrv (0x410 + n)).toNat 63 && p vpn then
      match s.walk pn (vpn * 0x200000) with
      | .ok e => { a with tlb := tabPut 0 a.tlb n (BitVec.ofNat 64 e) }
      | _ => a.setCsrf (0x410 + n) 63 1 0
    else a) a

/-- TLBINV of a partition: its unlocked entries go, its locked ones in the cores and in its saved contexts are walked again. -/
def State.tlbinv (s : State) (pn arg : Nat) : State :=
  let p (vpn : Nat) : Bool := argAll arg || (argFirst arg ≤ vpn && vpn ≤ argLast arg)
  let w := s.rewalk pn p
  let s := s.dropUnlocked (fun q vpn _ => q == pn && p vpn)
  (s.mapCores (fun q a => if q = pn then w a else a)).mapImages (fun i => if i.pn = pn then i.mapArch w else i)

/-! ## Quiesce (R394) -/

/-- Untaken notices are discarded, held entries released (step 2). -/
def State.dropNotices (s : State) (pn : Nat) : State :=
  let x := s.sub pn
  ((s.setSub pn { x with entries := [], copies := [] }).fset (SLC_SUB_OCC pn) 0 7 0).unhold pn

/-- The cores of a pair in an IDLE window; a halted core stays halted. -/
def State.idlePair (s : State) (pp : Nat) : State :=
  (s.halves pp).foldl (fun (s : State) h =>
    let w := (s.core h.2).wait
    let s := s.idleHalf h
    if w = .halted then s.setCore h.2 { s.core h.2 with wait := .halted } else s) s

/-- A logical pair that runs the partition saves its context and runs IDLE (step 3); one in a takeover keeps the context of its
last complete slice checkpoint. A running retry ends first, and stores that wait for their commit. -/
def State.preempt (s : State) (pn l : Nat) : State :=
  let stop (s : State) : State := s.setLp l { s.lp l with cur := none }
  if (s.lp l).cur ≠ some pn then s
  else if s.lpState l = 1 then
    let s := s.mirrorApply l
    let x := s.lp l
    match x.mirror with
    | some m => if m.pn = pn && s.mirrored l then stop (s.setLp l { x with ctx := tabIns x.ctx (ctxKey 0 pn) m }) else stop s
    | none => stop s
  else
    match s.ppOf l with
    | none => stop s
    | some pp =>
      let s := s.commitPair pp
      if (s.core (2 * pp)).attempt ≠ 0 || s.uncommitted pp then s
      else
        let s := (s.halves pp).foldl (fun (s : State) h => s.saveHalf l pn h) s
        ((stop (s.idlePair pp)).sliceCkpt l (2 * pp) none true).reeval pp

/-- Every pair that runs the partition. -/
def State.preemptAll (s : State) (pn : Nat) : State := (List.range 64).foldl (fun (s : State) l => s.preempt pn l) s

/-- Steps 1 to 3: the partition is QUIESCING. -/
def State.quiesce (s : State) (pn : Nat) : State := ((s.setPstate pn 3).dropNotices pn).preemptAll pn

/-- A store buffer or pre-commit queue holds a device-region store of the partition (step 4). -/
def State.devStores (s : State) (pn : Nat) : Bool :=
  s.cores.any (fun e => (e.2.sb ++ e.2.preq).any (fun st => st.ty == .device && st.mode != .monitor && st.pn == pn))

/-- Every pair has left the partition and its device-region stores are gone. -/
def State.quiet (s : State) (pn : Nat) : Bool := !s.lps.any (fun e => e.2.cur == some pn) && !s.devStores pn

/-- Steps 5 and 6: a running command of the channel subsystem ends, and the partition is QUIESCED. -/
def State.quiesced (s : State) (pn : Pn) : State := (s.chsDone (.part pn)).setPstate pn 1

/-! ## Reset (R395) -/

/-- The pending STORE_ERRORs of a partition are discarded and counted as stale (step 4). -/
def State.voidErrs (s : State) (pn : Nat) : State :=
  let mine (e : StoreErr) : Bool := e.mode != .monitor && e.pn == pn
  let dead := s.cores.flatMap (fun e => e.2.errs.filter mine)
  let s := (s.withCores (s.cores.map (fun e => (e.1, { e.2 with errs := e.2.errs.filter (fun x => !mine x) }))))
  dead.foldl (fun (s : State) e => s.stale pn 5 e.epoch) s

/-- No context, checkpoint or notice of the partition is left (step 5): it starts again in a fresh context (R180). -/
def State.voidContexts (s : State) (pn : Nat) : State :=
  let keep (i : Option Image) : Option Image := i.filter (fun i => i.pn != pn)
  ((s.withLps (s.lps.map (fun e => (e.1, { e.2 with
      ctx := e.2.ctx.filter (fun x => x.1 % 2048 != pn)
      hbmCtx := e.2.hbmCtx.filter (fun x => x.1 % 2048 != pn)
      mirror := keep e.2.mirror
      closed := e.2.closed.filter (fun i => i.pn != pn)
      flushed := keep e.2.flushed })))).withTaken (s.taken.filter (fun e => e.1 % 2048 != pn)))

/-- The OFFERED key slots of a partition become EMPTY (R377). -/
def State.voidOffers (s : State) (pn : Nat) : State :=
  let mine (e : Nat × KeySlot) : Bool := match e.2 with
    | .offered _ _ => e.1 / 16 == pn
    | _ => false
  s.withSec { s.sec with
    keys := s.sec.keys.filter (fun e => !mine e)
    voided := (s.sec.keys.filter mine).map (·.1) ++ s.sec.voided }

/-- The registers of step 6. -/
def resetRegs395 (pn : Nat) : List Nat :=
  [PRT_EVT pn, PRT_ERR pn, PRT_ERRINFO pn, PRT_EVTEN pn, PRT_EVTVEC pn, PRT_MISS pn, PRT_STAGE_IDX pn,
   PRT_SEC_ARG_LO pn, PRT_SEC_ARG_HI pn, PRT_SEC_OUT_LO pn, PRT_SEC_OUT_HI pn]

/-- Steps 1 to 6 of a reset. -/
def State.resetSteps (s : State) (pn : Nat) : State :=
  let s := s.fset (PRT_STATE pn) 8 8 (s.epoch pn + 1)
  let s := s.loseAll 0xB (fun x => x.pn == pn)
  let mine := s.readout.subch.filter (fun e => e.2.owner == some pn)
  let s := mine.foldl (fun (s : State) e => if 2 ≤ e.2.state then s.scClear e.1 0xB else s.cqLost 8192 e.1) s
  let s := (((s.secVoid pn).voidOffers pn).lapse pn).voidErrs pn
  let s := s.voidContexts pn
  let s := (resetRegs395 pn).foldl (fun (s : State) r => s.wr r 0) s
  s.setPart pn { s.part pn with pba := 0, stage := [], tmr := [], cmr := [], ncode := 0, nprog := 0 }

/-! ## Commands (R392, R393) -/

/-- Every field of the window but PN and EPOCH at its reset value, with the loss registers it shows (R415). -/
def State.clearWindow (s : State) (pn : Nat) : State :=
  let e := s.epoch pn
  let s := s.resetRegs (PRT_STATE pn) (PRT_STATE pn + 0x1000)
  let s := ((s.wr (CHS_P_LOSS pn) 0).wr (CHS_P_LSUM pn) 0).wr (CHS_P_LRUN pn) 0
  let p := s.part pn
  let s := s.setPart pn { p with stage := [], qsd := 0x00100001, qrd := 1, qhbm := 0x30100001, qcw := 0x10, inArb := false,
                                 tmr := [], cmr := [], ncode := 0, nprog := 0 }
  s.fset (PRT_STATE pn) 8 8 e

/-- A subscription, slot, subchannel or loss record of the partition is left (R396). -/
def State.holdsOn (s : State) (pn : Nat) : Bool :=
  s.subEn pn || (s.slotOf pn).isSome || s.readout.subch.any (fun e => e.2.owner == some pn)
    || s.fget (CHS_P_LOSS pn) 16 7 != 0 || s.rd (CHS_P_LSUM pn) != 0

/-- A WEIGHT or QUOTA is 0. -/
def State.noShare (s : State) (pn : Nat) : Bool :=
  s.fget (PRT_QSD pn) 0 16 == 0 || s.fget (PRT_QRD pn) 0 16 == 0 || s.fget (PRT_QHBM pn) 0 16 == 0
    || s.fget (PRT_QCW pn) 0 11 == 0

/-- The states in which a command is permitted (R392). -/
def prtPermits (op st : Nat) : Bool :=
  match op with
  | 1 => st == 0
  | 2 | 4 | 5 => st == 1
  | 3 => st == 2
  | _ => st == 1 || st == 2

/-- The status of a command that is refused, 0 where it is accepted; life-cycle states without partitions refuse all (R359). OP 0
and 9 to 15 are reserved. -/
def State.prtCheck (s : State) (pn op arg : Nat) : Nat :=
  let (f, l) := (argFirst arg, argLast arg)
  if !prtPermits op (s.pstate pn) || !([1, 3, 4].contains s.lcs) then stState
  else
    match op with
    | 2 =>
      let t := s.pageTable pn
      if s.noShare pn then stState else if hbmSize < t.1 + t.2 then stRange
      else if !s.unassigned t.1 t.2 then stPerm else 0
    | 5 => if s.holdsOn pn then stState else 0
    | 6 => s.assignSt pn f l
    | 7 => s.releaseSt pn f l
    | 8 => if l < f then stArg else 0
    | _ => 0

/-- What a command does as it starts. -/
def State.prtStart (s : State) (pn op arg : Nat) : State :=
  let (f, l) := (argFirst arg, argLast arg)
  match op with
  | 1 => s.fset (PRT_STATE pn) 8 8 (s.epoch pn + 1)
  | 3 => s.quiesce pn
  | 4 | 5 => s.resetSteps pn
  | 6 => s.withOwners ((List.range (l + 1 - f)).foldl (fun t i => tabIns t (f + i) pn) s.owners)
  | 7 => s.releasePages f l
  | 8 => s.tlbinv pn arg
  | _ => s

/-- A write of PRT_CMD: one command at a time, none while a function-level reset runs. A refusal ends the command. -/
def State.prtCmd (s : State) (pn op : Nat) : State :=
  let arg := s.rd (PRT_ARG pn)
  let busy := s.fbit (PRT_CMD_ST pn) 16 || (s.part pn).flr != 0
  let st := if busy then stBusy else s.prtCheck pn op arg
  if st ≠ 0 then
    (s.fset (PRT_CMD_ST pn) 0 8 st).partEnded pn
  else
    let s := (s.prtStart pn op arg).fset (PRT_CMD_ST pn) 16 1 1
    s.setPart pn { s.part pn with cmd := some (op, arg) }

/-- A command ends with a status. -/
def State.prtEnds (s : State) (pn st : Nat) : State :=
  let s := (s.setPart pn { s.part pn with cmd := none }).fset (PRT_CMD_ST pn) 16 1 0
  (s.fset (PRT_CMD_ST pn) 0 8 st).partEnded pn

/-- The last steps of REMOVE: keys cleared, pages released and scrubbed, the window cleared, FREE. -/
def State.removed (s : State) (pn : Nat) : State :=
  let s := (List.range 16).foldl (fun (s : State) k => if s.keySlot pn k = .empty then s else s.clearSlot pn k) s
  let mine := (s.owners.filter (fun e => e.2 == pn)).map (·.1)
  let s := mine.foldl (fun (s : State) p => s.releasePages p p) s
  (s.clearWindow pn).setPstate pn 0

/-- PARTITION_COMMAND_DONE: a running command completes once its work is done: RUN has taken effect, a quiesce has come to
rest. -/
def State.prtDone (s : State) (pn : Pn) : State :=
  match (s.part pn).cmd with
  | none => s
  | some (op, _) =>
    match op with
    | 1 => ((s.clearWindow pn).setPstate pn 1).prtEnds pn stOk
    | 2 => if s.pstate pn = 2 then s.prtEnds pn stOk else s
    | 3 =>
      let s := s.preemptAll pn
      if s.quiet pn then (s.quiesced pn).prtEnds pn stOk else s
    | 5 => (s.removed pn).prtEnds pn stOk
    | _ => s.prtEnds pn stOk

/-! ## Function-level reset (R410, R411) -/

/-- The configuration state of a VF at its reset values. -/
def State.vfConfigReset (s : State) (pn : Nat) : State :=
  s.setPart pn { s.part pn with msixEn := false, fmask := false, busMaster := false, tbl := [], pba := 0 }

/-- A function-level reset of VF PN begins: it quiesces a RUNNING partition, resets a QUIESCED one, takes up the work of a
running QUIESCE, RESET or REMOVE. A RUN that has not taken effect ends with ST_STATE: the partition stays QUIESCED. -/
def State.vfFlr (s : State) (pn : Nat) : State :=
  let s := s.vfConfigReset pn
  let op := ((s.part pn).cmd.map (·.1)).getD 0
  let mark (s : State) (v : Nat) : State := s.setPart pn { s.part pn with flr := v }
  if (s.part pn).flr ≠ 0 then s
  else
    match s.pstate pn with
    | 0 => s
    | 2 => mark ((s.quiesce pn).fset (PRT_STATE pn) 7 1 1) 1
    | 3 => mark (s.fset (PRT_STATE pn) 7 1 1) 1
    | _ =>
      if op = 4 || op = 5 then mark s 2
      else
        let s := if op = 2 then s.prtEnds pn stState else s
        mark (s.resetSteps pn) 2

/-- The next stage of a function-level reset: the quiesce comes to rest and the reset begins, or the reset is complete. -/
def State.flrDone (s : State) (pn : Pn) : State :=
  let mark (s : State) (v : Nat) : State := s.setPart pn { s.part pn with flr := v }
  if (s.part pn).flr = 1 then
    let s := s.preemptAll pn
    if s.quiet pn then
      let s := s.quiesced pn
      let s := if ((s.part pn).cmd.map (·.1)) = some 3 then s.prtEnds pn stOk else s
      mark (s.resetSteps pn) 2
    else s
  else
    let s := if (s.part pn).cmd.isSome then s.prtDone pn else s
    (mark s 0).partEnded pn

/-- PARTITION_COMMAND_DONE, or the next stage of a function-level reset. -/
def State.partitionDone (s : State) (pn : Pn) : State := if (s.part pn).flr ≠ 0 then s.flrDone pn else s.prtDone pn

/-- A function-level reset of the PF: every partition that is not FREE, VF Enable, the PF's MSI-X table. -/
def State.pfFlr (s : State) : State :=
  let s := s.livePns.foldl (fun (s : State) pn => s.vfFlr pn) s
  s.withPf { s.pf with vfEnable := false, tbl := [], pba := 0 }

/-! ## Shares and the arbitration epoch (R403, R404, R406, R409) -/

/-- The QLIM of the partitions in class 0 but one (R406). -/
def State.classZero (s : State) (but : Nat) : Nat :=
  sumN (((s.prtWith 0x28).filter (fun q => q != but && s.fget (PRT_QHBM q) 28 2 == 0)).map (fun q => s.fget (PRT_QHBM q) 16 8))

/-- The offset of a share register. -/
def shareOff (pn : Nat) : ShareReg → Nat
  | .qsd => PRT_QSD pn
  | .qrd => PRT_QRD pn
  | .qhbm => PRT_QHBM pn
  | .qcw => PRT_QCW pn

/-- The bits that a share register holds of a written value. -/
def shareBits (v : Nat) : ShareReg → Nat
  | .qsd => bits v 0 24
  | .qrd => bits v 0 16
  | .qhbm => bits v 28 2 * 2 ^ 28 + bits v 0 24
  | .qcw => bits v 0 11

/-- A field would hold a reserved value: QLIM 0, QUOTA above 1,024 (R415). -/
def shareReserved (v : Nat) : ShareReg → Bool
  | .qsd => bits v 16 8 == 0
  | .qrd => false
  | .qhbm => bits v 16 8 == 0
  | .qcw => 1024 < bits v 0 11

/-- WEIGHT or QUOTA is 0. -/
def shareZero (v : Nat) : ShareReg → Bool
  | .qcw => bits v 0 11 == 0
  | _ => bits v 0 16 == 0

/-- A write of a share register in the manager view. -/
def State.shareWrite (s : State) (pn : Nat) (r : ShareReg) (v : Nat) : State :=
  let last (s : State) (st : Nat) : State := s.fset (PRT_CMD_ST pn) 8 8 st
  if shareReserved v r then (last s stArg).errLog stArg srcPrt (some pn) (shareOff pn r)
  else if shareZero v r && s.pstate pn != 1 then last s stState
  else if r = .qhbm && bits v 28 2 = 0 && 8 < s.classZero pn + bits v 16 8 then last s stNospace
  else last (s.wr (shareOff pn r) (shareBits v r)) stOk

/-- The pending vectors of a VF that are unmasked are sent once (R409). -/
def State.sendPending (s : State) (pn : Nat) : State :=
  (List.range 16).foldl (fun (s : State) v =>
    let p := s.part pn
    if bit p.pba v then (s.setPart pn { p with pba := clrBit p.pba v }).vfVector pn v else s) s

/-- An arbitration epoch begins for one partition: a RUN takes effect; a RUNNING one's shares are taken. -/
def State.epochOf (s : State) (pn : Nat) : State :=
  let starts := s.pstate pn = 1 && ((s.part pn).cmd.map (·.1)) = some 2
  let s := if starts then
      let s := ((s.setPstate pn 2).fset (PRT_STATE pn) 7 1 0).sendPending pn
      s.partEvent pn 6
    else s
  let p := s.part pn
  if s.pstate pn = 2 then
    s.setPart pn { p with
      qsd := s.rd (PRT_QSD pn), qrd := s.rd (PRT_QRD pn), qhbm := s.rd (PRT_QHBM pn), qcw := s.rd (PRT_QCW pn), inArb := true }
  else s.setPart pn { p with inArb := false }

/-- ARBITRATION_EPOCH. -/
def State.arbEpoch (s : State) : State :=
  let s := s.withArb { s.arb with epochs := s.arb.epochs + 1 }
  s.livePns.foldl (fun (s : State) pn => s.epochOf pn) s

/-! ## Staging words (R415) -/

/-- IDX of a partition, advanced after an access. -/
def State.stageNext (s : State) (pn : Nat) : State := s.wr (PRT_STAGE_IDX pn) ((s.fget (PRT_STAGE_IDX pn) 0 7 + 1) % 128)

/-- Staging word IDX. -/
def State.stageRead (s : State) (pn : Nat) : Nat := (tabGet 0 (s.part pn).stage (s.fget (PRT_STAGE_IDX pn) 0 7)).toNat

/-- A write of staging word IDX. -/
def State.stageWrite (s : State) (pn v : Nat) : State :=
  let p := s.part pn
  (s.setPart pn { p with stage := tabPut 0 p.stage (s.fget (PRT_STAGE_IDX pn) 0 7) (BitVec.ofNat 32 v) }).stageNext pn

/-- An access to PRT_STAGE_DATA through the VF: in FREE, and until a function-level reset completes, a read answers all-ones and
a write is dropped (R390, R410). -/
def State.stageAccess (s : State) (pn : Nat) (wr : Option (BitVec 32)) : State :=
  let ones (s : State) : State := if wr.isNone then s.emit (.regData 0xFFFFFFFF) else s
  if !s.vfOpen pn then ones s
  else if s.pstate pn = 0 then (ones s).errLog stState srcHost (some pn) (PRT_STAGE_DATA pn % 0x1000)
  else
    match wr with
    | some v => s.stageWrite pn v.toNat
    | none => (s.emit (.regData (BitVec.ofNat 32 (s.stageRead pn)))).stageNext pn

/-! ## Meanings -/

/-- CREATE. -/
def execCreate (pn : Pn) (s : State) : Host.Outcome State Fault Refusal := s.live (·.prtCmd pn 1)
/-- RUN. -/
def execRun (pn : Pn) (s : State) : Host.Outcome State Fault Refusal := s.live (·.prtCmd pn 2)
/-- QUIESCE. -/
def execQuiesce (pn : Pn) (s : State) : Host.Outcome State Fault Refusal := s.live (·.prtCmd pn 3)
/-- RESET. -/
def execReset (pn : Pn) (s : State) : Host.Outcome State Fault Refusal := s.live (·.prtCmd pn 4)
/-- REMOVE. -/
def execRemove (pn : Pn) (s : State) : Host.Outcome State Fault Refusal := s.live (·.prtCmd pn 5)
/-- PG_ASSIGN. -/
def execPgAssign (pn : Pn) (s : State) : Host.Outcome State Fault Refusal := s.live (·.prtCmd pn 6)
/-- PG_RELEASE. -/
def execPgRelease (pn : Pn) (s : State) : Host.Outcome State Fault Refusal := s.live (·.prtCmd pn 7)
/-- TLBINV. -/
def execTlbinv (pn : Pn) (s : State) : Host.Outcome State Fault Refusal := s.live (·.prtCmd pn 8)
/-- PARTITION_COMMAND_DONE. -/
def execPartitionCommandDone (pn : Pn) (s : State) : Host.Outcome State Fault Refusal := s.live (·.partitionDone pn)
/-- SHARE_WRITE. -/
def execShareWrite (pn : Pn) (reg : ShareReg) (v : BitVec 32) (s : State) : Host.Outcome State Fault Refusal :=
  s.live (·.shareWrite pn reg v.toNat)
/-- ARBITRATION_EPOCH. -/
def execArbitrationEpoch (s : State) : Host.Outcome State Fault Refusal := s.live (·.arbEpoch)
/-- STAGE_DATA_ACCESS. -/
def execStageDataAccess (pn : Pn) (wr : Option (BitVec 32)) (s : State) : Host.Outcome State Fault Refusal :=
  s.live (·.stageAccess pn wr)
/-- VF_FLR. -/
def execVfFlr (pn : Pn) (s : State) : Host.Outcome State Fault Refusal := s.live (·.vfFlr pn)
/-- PF_FLR. -/
def execPfFlr (s : State) : Host.Outcome State Fault Refusal := s.live (·.pfFlr)

end Sys2Proof.Machine
end

