-- ==== Sys2Proof/Machine/Regs.lean ====
section
/-! DEFINITION. Register values: reads of a register with their side effects (R7, R496), and writes of the registers with
writable fields, with the rules of their chapters. The registers whose write starts a command are in Access.lean. -/

namespace Sys2Proof.Machine

/-! ## Fields -/

/-- The access type of a field in a view: the manager's, or the partition's (R38, R414). -/
def Fld.view (f : Fld) (part : Bool) : Acc := if part then f.accP else f.acc

/-- A write would place a reserved encoding in a field (R9). -/
def Fld.reserved (f : Fld) (part : Bool) (v : Nat) : Bool :=
  let x := bits v f.lo f.w
  (f.view part == .rw || f.view part == .wo) && f.res.any (fun r => r.1 ≤ x && x ≤ r.2)

/-- A register value after a write of one field (R7). The two words of a command keep their low word, which reads as zero. -/
def Fld.put (part : Bool) (v acc : Nat) (f : Fld) : Nat :=
  match f.view part with
  | .rw | .wo => putBits acc f.lo f.w (bits v f.lo f.w)
  | .w1c => putBits acc f.lo f.w (bits acc f.lo f.w &&& (2 ^ f.w - 1 ^^^ bits v f.lo f.w))
  | .ro | .rc | .rwl | .na => acc

/-- A register value as a view reads it: reserved bits, WO fields and fields without access read zero (R7, R8, R414). -/
def readMask (part : Bool) (v : Nat) : List Fld → Nat
  | [] => 0
  | f :: fs =>
    match f.view part with
    | .wo | .na => readMask part v fs
    | .rw | .w1c | .ro | .rc | .rwl => bits v f.lo f.w * 2 ^ f.lo + readMask part v fs

/-- A register value after a read: RC fields are clear. -/
def clearRead (part : Bool) (v : Nat) : List Fld → Nat
  | [] => v
  | f :: fs =>
    match f.view part with
    | .rc => clearRead part (putBits v f.lo f.w 0) fs
    | .rw | .w1c | .ro | .wo | .rwl | .na => clearRead part v fs

/-- A view may write some field of the register. -/
def RegRow.writable (r : RegRow) (part : Bool) : Bool :=
  r.flds.any (fun f => !(f.view part == .ro || f.view part == .rc || f.view part == .na))

/-- A view has no access to the register (R414). -/
def RegRow.noAccess (r : RegRow) (part : Bool) : Bool := !r.flds.isEmpty && r.flds.all (fun f => f.view part == .na)

/-! ## Status fields -/

/-- The field that reports the status of writes to a register: register and lowest bit (R9); for the registers of a core, setLast
names it. -/
def lastSt (off : Nat) : Option (Nat × Nat) :=
  if off < 0x10000 then some (MGT_ST, 0)
  else if off < 0x20000 then some (ELC_ST, 0)
  else if off < 0x20100 then none
  else if off < 0x20300 then some (TIM_STR_ST ((off - 0x20100) / 0x80), 0)
  else if off < 0x30000 then none
  else if off = SEC_KTAB_LO || off = SEC_KTAB_HI then some (SEC_ST, 0)
  else if off < 0x50000 then none
  else if off < 0x60000 then some (PWR_ST, 0)
  else if off = BST_CMD then some (BST_CMD_ST, 0)
  else if off < 0x80000 then none
  else if off < 0x81000 then some (MEM_ST, 0)
  else if off < 0x88000 then some (MEM_CL_ST ((off - 0x81000) / 0x100), 0)
  else if off < 0x100000 then none
  else if off < 0x140000 then (if off % 0x1000 = 0 then some (FEL_STAT ((off - 0x100000) / 0x1000), 8) else none)
  else if off < 0x140020 then some (CTB_ST, 0)
  else if off < 0x160000 then none
  else if off < 0x1A0000 then
    if off % 0x10000 < 0x8000 then some (SLC_ST ((off - 0x160000) / 0x10000), 0)
    else some (SLC_SUB_ST ((off % 0x8000) / 0x40 * 4 + (off - 0x160000) / 0x10000), 0)
  else if off < 0x1B0000 then some (DCF_ST, 0)
  else if off < 0x1C0000 then some (DCF_SLOT_ST ((off - 0x1B0000) / 0x40), 0)
  else if off < 0x280000 then some (CLU_ST ((off - 0x200000) / 0x10000), 0)
  else if off < 0x300000 then some (CLU_SP_ST, 0)
  else if off < 0x400000 then some (PAI_ST ((off - 0x300000) / 0x1000), 0)
  else if off < 0x400020 || (0x430000 ≤ off && off < 0x440000) then some (CHS_ST, 0)
  else if off < 0x500000 then none
  else if off < 0x580000 then some (CMP_ST ((off - 0x500000) / 0x1000), 0)
  else if off < 0x600000 then some (WRR_ST ((off - 0x580000) / 0x20000), 0)
  else if off % 0x1000 = 0x20 || off % 0x1000 = 0x24 || off % 0x1000 = 0x28 || off % 0x1000 = 0x2C then
    some (PRT_CMD_ST ((off - 0x2000000) / 0x1000), 8)
  else none

/-- The state with the status of a write recorded; for a register of the checker copy of a lockstep pair, in that of the main copy
(R268). -/
def State.setLast (s : State) (off st : Nat) : State :=
  if 0x88000 ≤ off && off < 0xA0000 then s.memLast ((off - 0x88000) / 0x40) st
  else
    match lastSt off with
    | some (r, lo) => s.fset r lo 8 st
    | none => s

/-- A write refused with a status, recorded in the error log too. -/
def State.refuseLog (s : State) (off st : Nat) : State :=
  (s.setLast off st).errLog st ((blockAt off).getD srcHost) none off

/-- The register takes the value written, field by field, and the write is accepted. -/
def State.accept (s : State) (part : Bool) (off v : Nat) (fs : List Fld) : State :=
  (s.wr off (fs.foldl (Fld.put part v) (s.rd off))).setLast off stOk

/-- A write accepted, or discarded with a status where a condition locks the register. -/
def State.acceptUnless (s : State) (locked : Bool) (st off v : Nat) (fs : List Fld) : State :=
  if locked then s.setLast off st else s.accept false off v fs

/-! ## Writes -/

/-- The reserved encodings that span fields (R493, R267, R340). -/
def crossReserved (off v : Nat) : Bool :=
  if (0x10100 ≤ off && off < 0x10200) || (0x10300 ≤ off && off < 0x10320) then 63 < bits v 13 5 + bits v 7 6 + bits v 3 4
  else if 0x80020 ≤ off && off < 0x80030 then bit v 31 && Nat.blt (bits v 16 14) (bits v 0 14)
  else if 0x430000 ≤ off && off < 0x440000 then
    (off % 0x20 == 0 && Nat.blt 32767 (bits v 0 15 + bits v 16 6)) || (off % 0x20 == 0xC && Nat.blt 4096 (bits v 0 12 + bits v 16 13))
  else false

/-- The unit whose block holds a register, as a power domain (R438). -/
def State.unitOf (s : State) (off : Nat) : Option Nat :=
  if 0x81000 ≤ off && off < 0x81900 then some (81 + (off - 0x81000) / 0x100)
  else if 0x88000 ≤ off && off < 0x8A880 then some ((off - 0x88000) / 0x80)
  else if 0x100000 ≤ off && off < 0x140000 then some (106 + (off - 0x100000) / 0x4000)
  else if 0x200000 ≤ off && off < 0x280000 then some (81 + s.pclOf ((off - 0x200000) / 0x10000))
  else if 0x300000 ≤ off && off < 0x351000 then some ((off - 0x300000) / 0x1000)
  else if 0x500000 ≤ off && off < 0x510000 then some (90 + (off - 0x500000) / 0x1000)
  else if 0x580000 ≤ off && off < 0x5C0000 then some (122 + (off - 0x580000) / 0x20000 * 2)
  else none

/-- The unit whose block holds a register is under test. -/
def State.testing (s : State) (off : Nat) : Bool :=
  match s.unitOf off with
  | some d => s.underTest d || (122 ≤ d && s.underTest (d + 1))
  | none => false

/-- ELC_ (R493). -/
def State.elcStore (s : State) (off v : Nat) (fs : List Fld) : State :=
  if off = ELC_SSC then s.sscWrite v
  else if off = ELC_SBG_OWN 0 then s.sbgWrite 0 v
  else if off = ELC_SBG_OWN 1 then s.sbgWrite 1 v
  else if 0x10300 ≤ off then s.acceptUnless (s.fbit (WRR_CTL ((off - 0x10300) / 4 / 8)) 0) stState off v fs
  else if 0x10100 ≤ off then s.acceptUnless (s.fbit (FEL_CTL ((off - 0x10100) / 4)) 0) stState off v fs
  else s.accept false off v fs

/-- TIM_ (R51, R58, R149): a stream's parameters are locked while it is enabled. -/
def State.timStore (s : State) (off v : Nat) (fs : List Fld) : State :=
  if off < 0x20100 then
    let s := s.accept false off v fs
    if off = TIM_DOL_CTL then s.reeval 130 else s
  else
    let n := (off - 0x20100) / 0x80
    let d := bits v 0 13
    if off = TIM_STR_CTL n then (if bit v 0 then s.streamEnable n else s.streamStop n)
    else if s.strEn n then s.refuseLog off stState
    else if off = TIM_STR_D n && (Nat.blt d 16 || Nat.blt d (s.floor n) || Nat.blt 4096 d) then s.refuseLog off stRange
    else s.accept false off v fs

/-- SEC_ (R387): SEC_KTAB is locked while a key slot is in use. -/
def State.secStore (s : State) (off v : Nat) (fs : List Fld) : State :=
  s.acceptUnless ((off == SEC_KTAB_LO || off == SEC_KTAB_HI) && !s.sec.keys.isEmpty) stState off v fs

/-- PWR_ (R440): votes, and wake enables of the sources the domain has; a pair's window start reads 1. -/
def State.pwrStore (s : State) (off v : Nat) (fs : List Fld) : State :=
  if 0x58000 ≤ off then s.votePn ((off - 0x58000) / 4) v
  else
    let d := (off - 0x51000) / 0x10
    if off = PWR_D_VOTE d then s.voteDom d v
    else s.accept false off ((v &&& (2 ^ wakeSources d - 1)) ||| (if d < 81 then 8 else 0)) fs

/-- MEM_ (R267, R268). -/
def State.memStore (s : State) (off v : Nat) (fs : List Fld) : State :=
  if off = MEM_HBM_CFG then
    if s.fbit MEM_HBM_CFG 31 then s.setLast off stState
    else
      let (old, new) := (s.fget MEM_HBM_CFG 0 2, bits v 0 2)
      let s := s.accept false off v fs
      if old = new then s else s.remapHbm old new
  else if off < 0x81000 then s.accept false off v fs
  else if off < 0x88000 then
    let c := (off - 0x81000) / 0x100
    let s := s.accept false off v fs
    if off = MEM_CL_L2CTL c then s.setCluster c { s.cluster c with lfsr := bits v 0 16 } else s
  else
    let k := (off - 0x88000) / 0x40
    if off = MEM_C_L1CFG k then s.l1cfg k v
    else if off = MEM_C_ILBASE_LO k then s.ilbase k false v
    else if off = MEM_C_ILBASE_HI k then s.ilbase k true v
    else
      let s := s.accept false off v fs
      if off = MEM_C_SEED k then s.setCore k { s.core k with dlfsr := bits v 0 16, ilfsr := bits v 16 16 } else s

/-- FEL_ (R82, R91, R92). -/
def State.felStore (s : State) (off v : Nat) (fs : List Fld) : State :=
  if off < 0x100000 then s.accept false off v fs
  else
    let l := (off - 0x100000) / 0x1000
    let d := off % 0x1000
    if d = 0 then s.felCtl l v
    else if (d = 0x108 || (0x200 ≤ d && d < 0x300)) && s.fbit (FEL_TXSTAT l) 8 then s.fset (FEL_TXSTAT l) 0 8 stBusy
    else s.accept false off v fs

/-- CTB_ (R94). -/
def State.ctbStore (s : State) (off v : Nat) (fs : List Fld) : State :=
  if off = CTB_CTL then s.ctbCtl v
  else if off < CTB_INV_LO && s.fbit CTB_CTL 0 then s.refuseLog off stState
  else s.accept false off v fs

/-- SLC_ and the subscriptions (R125, R133, R150): a new chunk ring starts at its first chunk. -/
def State.slcStore (s : State) (off v : Nat) (fs : List Fld) : State :=
  let e := (off - 0x160000) / 0x10000
  if off % 0x10000 < 0x8000 then
    if s.servesStream e then s.setLast off stState
    else
      let s := s.accept false off v fs
      s.setEng e { s.eng e with nextChunk := 0 }
  else
    let pn := (off % 0x8000) / 0x40 * 4 + e
    if off = SLC_SUB_CTL pn then s.subCtl pn v else s.acceptUnless (s.subEn pn) stState off v fs

/-- DCF_ (R140, R143): a write of PRESCALE clears the prescale count. -/
def State.dcfStore (s : State) (off v : Nat) (fs : List Fld) : State :=
  if off < 0x1B0000 then s.accept false off v fs
  else
    let t := (off - 0x1B0000) / 0x40
    if off = DCF_SLOT_CTL t then s.slotCtl t v
    else if off = DCF_SLOT_PRESCALE t then (s.accept false off v fs).wr (DCF_SLOT_PSCNT t) 0
    else s.accept false off v fs

/-- CLU_ of a logical cluster, and the sparing controller's CLU_SPCFG (R298): the entries of the bank in force and its frame
origin are locked, and so is the mirror area while MIREN = 1. -/
def State.cluStore (s : State) (off v : Nat) (fs : List Fld) : State :=
  if 0x280000 ≤ off then s.accept false off v fs
  else
    let c := (off - 0x200000) / 0x10000
    let d := off % 0x10000
    if off = CLU_CTL c then s.cluCtl c v
    else if off = CLU_MIR_LO c || off = CLU_MIR_HI c then s.acceptUnless (s.fbit (CLU_CTL c) 0) stState off v fs
    else if 0x4000 ≤ d then
      let l := 8 * c + (d - 0x4000) / 0x400
      s.acceptUnless (s.cbank l == d % 0x400 / 0x200) stState off v fs
    else if 0x100 ≤ d && 8 ≤ d % 0x20 then
      let l := 8 * c + (d - 0x100) / 0x20
      s.acceptUnless (s.cbank l == (if d % 0x20 < 0x10 then 0 else 1)) stState off v fs
    else s.accept false off v fs

/-- PAI_ (R295 to R300). -/
def State.paiStore (s : State) (off v : Nat) (fs : List Fld) : State :=
  let pp := (off - 0x300000) / 0x1000
  let st := s.paiRefused pp
  if off = PAI_INJ pp then s.injCtl pp v
  else if off = PAI_DBG_CTL pp then s.dbgCtl pp v
  else if off = PAI_TRC_CTL pp then s.traceCtl pp v
  else if st ≠ 0 then s.paiLast pp st
  else s.accept false off v fs

/-- The program slots of two partitions overlap (R412). -/
def State.slotsMeet (s : State) (pn v : Nat) : Bool :=
  (s.regs.filter (fun e => 0x430000 ≤ e.1 && e.1 < 0x440000 && e.1 % 0x20 == 0xC && e.1 != CHS_P_PSLOT pn)).any (fun e =>
    rangesMeet (bits v 0 12, bits v 16 13) (bits e.2.toNat 0 12, bits e.2.toNat 16 13))

/-- CHS_ (R340, R412). -/
def State.chsStore (s : State) (off v : Nat) (fs : List Fld) : State :=
  if off = CHS_CTL then s.chsCtl v
  else if off < 0x400020 then s.acceptUnless (s.fbit CHS_CTL 0) stState off v fs
  else if off < 0x430000 then s.accept false off v fs
  else
    let pn := (off - 0x430000) / 0x20
    if (off = CHS_P_RDSC pn || off = CHS_P_PSLOT pn) && s.subEn pn then s.setLast off stState
    else if off = CHS_P_PSLOT pn && s.slotsMeet pn v then s.setLast off stConflict
    else s.accept false off v fs

/-- WRR_ (R341): the sub-port addresses are locked while EN = 1; a multicast MAC address is refused. -/
def State.wrrStore (s : State) (off v : Nat) (fs : List Fld) : State :=
  let p := (off - 0x580000) / 0x20000
  let d := off % 0x20000
  if off = WRR_CTL p then s.wrrCtl p v
  else if 0x100 ≤ d && d < 0x200 then
    if d % 0x40 < 0x1C && s.fbit (WRR_CTL p) 0 then s.setLast off stState
    else if d % 0x40 = 4 && bit v 8 then s.setLast off stArg
    else s.accept false off v fs
  else s.accept false off v fs

/-- The share register at an offset. -/
def shareReg (off : Nat) : Option ShareReg :=
  let d := off % 0x1000
  if off < 0x2000000 then none
  else if d = 0x20 then some .qsd else if d = 0x24 then some .qrd else if d = 0x28 then some .qhbm
  else if d = 0x2C then some .qcw else none

/-- A write of a register that starts no command, by its block. -/
def State.blockStore (s : State) (part : Bool) (off v : Nat) (fs : List Fld) : State :=
  if off < 0x10000 then s.accept part off v fs
  else if off < 0x20000 then s.elcStore off v fs
  else if off < 0x30000 then s.timStore off v fs
  else if off < 0x40000 then s.secStore off v fs
  else if off < 0x50000 then s.accept part off v fs
  else if off < 0x60000 then s.pwrStore off v fs
  else if off < 0x80000 then s.accept part off v fs
  else if off < 0xA0000 then s.memStore off v fs
  else if off < 0x140000 then s.felStore off v fs
  else if off < 0x160000 then s.ctbStore off v fs
  else if off < 0x1A0000 then s.slcStore off v fs
  else if off < 0x200000 then s.dcfStore off v fs
  else if off < 0x300000 then s.cluStore off v fs
  else if off < 0x400000 then s.paiStore off v fs
  else if off < 0x500000 then s.chsStore off v fs
  else if off < 0x580000 then s.cmpCtl ((off - 0x500000) / 0x1000) v
  else if off < 0x600000 then s.wrrStore off v fs
  else if part then s.accept true off v fs
  else
    match shareReg off with
    | some r => s.shareWrite ((off - 0x2000000) / 0x1000) r v
    | none => s.accept false off v fs

/-- A register of the checker copy of a lockstep pair (R268). -/
def State.checkerReg (s : State) (off : Nat) : Bool := 0x88000 ≤ off && off < 0x8A880 && !s.agent ((off - 0x88000) / 0x40)

/-- A write of a register with writable fields (R7 to R9): one of a checker copy is refused (R268); a reserved encoding discards it;
a unit under test refuses it. -/
def State.regStore (s : State) (part : Bool) (off v : Nat) (r : RegRow) : State :=
  if !r.writable part then s
  else if s.checkerReg off then s.setLast off stState
  else if (shareReg off).isNone && r.flds.any (fun f => f.reserved part v) || crossReserved off v then
    s.refuseLog off stArg
  else if s.testing off then s.setLast off stTesting
  else s.blockStore part off v r.flds

/-! ## Views -/

/-- SLC_RETMIN (R129): the retention in µs that the ring of an engine gives. -/
def State.retMin (s : State) (e : Nat) : Nat :=
  let size := s.fget (SLC_LB_SIZE e) 0 14 * 0x200000
  let rate := s.engineRate e s.enabledStreams
  if size ≤ 0x8000000 then 0 else if rate = 0 then 0xFFFFFFFF else (size - 0x8000000) / rate

/-- MEM_HBM_TRD (R260): 29 CCLK + 108 FCLK + 5 HCLK + 870 ns at the lowest frequencies of the spread in force, rounded up; 0 until
the HBM is trained in boot stage 5. -/
def State.trd (s : State) : Nat :=
  let f := cclkNom * 10
  let d := f * s.cq * s.fq * 7
  if s.fget MGT_ST 8 4 < 6 then 0
  else ceilDiv (29 * 10000000 * s.fq * 7 + 108 * 10000 * f * s.cq * 7 + 50 * f * s.cq * s.fq + 870 * d) d

/-- FEL_UP: the lanes in UP. -/
def State.upMask (s : State) : Nat := maskOf (fun l => s.lstate l == 4) 64

/-- A word of the error log's entry IDX. -/
def State.logWord (s : State) (i : Nat) : Nat :=
  match tabFind s.mgmt.log (s.fget MGT_LOG_SEL 0 8) with
  | some (a, b) => bits (if i < 2 then a else b).toNat (32 * (i % 2)) 32
  | none => 0

/-- The age of the oldest pass in a physical cluster. -/
def State.rotAge (s : State) (c : Nat) : Nat := maxN ((List.range 9).map (fun i => s.age (9 * c + i)))

/-- BST_ERT: the next engine unit to test and its age. -/
def State.ert (s : State) : Nat :=
  match s.nextEngine with
  | some e => e * 0x10000 + min (tabGet 0 s.ages e) 0xFFFF
  | none => 0

/-- The balls GPIO0 to GPIO15: those that GPIO drives carry their output, the others a free level (assumption 2). -/
def State.gpioIn (s : State) : Nat × State :=
  let own : Nat := (if s.fget (ELC_SBG_OWN 0) 0 2 = 1 then 0x3FF else 0) + (if s.fget (ELC_SBG_OWN 1) 0 2 = 1 then 0x400 else 0)
    + 0xF800
  let drive := own &&& s.fget ELC_GPIO_OE 0 16
  let (n, s) := s.draw
  ((s.fget ELC_GPIO_OUT 0 16 &&& drive) ||| (bits (Config.freeWord n).toNat 0 16 &&& (0xFFFF ^^^ drive)), s)

/-- The device's power in 1/8 W (MGT_POWER): what is measured is free (assumption 2). -/
def State.powerNow (s : State) : Nat × State :=
  let (n, s) := s.draw
  (bits (Config.freeWord n).toNat 0 16, s)

/-- The owner, state and last status of a subchannel as CHS_SCSTAT shows them. -/
def Subch.stat (c : Subch) : Nat := c.owner.getD 0 * 0x10000 + c.state * 0x100 + c.lastSt

/-- The channel subsystem's views (R340). -/
def State.chsView (s : State) (off : Nat) : Nat :=
  let c := s.subch (s.fget CHS_SCSEL 0 15)
  if off = CHS_TAGS then s.freeCount * 0x10000 + s.tagReserve
  else if off = CHS_SCSTAT then c.stat
  else if off = CHS_SCIDX then c.cqPi % 0x10000 * 0x10000 + c.cqCi % 0x10000
  else if off = CHS_SCINFL then (s.readout.txns.filter (fun e => e.2.scn == s.fget CHS_SCSEL 0 15)).length
  else if off = CHS_SCINST then c.inst
  else if 0x430000 ≤ off && off % 0x20 = 0x1C then s.lossCount ((off - 0x430000) / 0x20)
  else if 0x430000 ≤ off && off % 0x20 = 8 then putBits (s.rd off) 0 13 (s.tagUse ((off - 0x430000) / 0x20))
  else s.rd off

/-- The views in a partition's window (R415): the loss registers are those of the channel subsystem. -/
def State.prtView (s : State) (off : Nat) : Nat :=
  let pn := (off - 0x2000000) / 0x1000
  let d := off % 0x1000
  if d = 0x30 then (s.owners.filter (fun e => e.2 == pn)).length * 0x10000 + s.windowUseNow pn % 0x800
  else if d = 0x34 then maxN ((List.range 4).map (s.sdOcc pn)) % 256 * 0x10000 + min (s.hbmOut pn) 255
  else if d = 0x70 then s.stageRead pn
  else if d = 0x80 then s.rd (CHS_P_LOSS pn)
  else if d = 0x84 then s.rd (CHS_P_LSUM pn)
  else if d = 0x8C then s.lossCount pn
  else s.rd off

/-- The words of the settings store's registers (R462). -/
def State.nvsView (s : State) (off : Nat) : Nat :=
  let w := (tabGet 0 s.nvs.shadow (s.fget NVS_SHIDX 0 14)).toNat
  if off = NVS_SHDATA_LO then bits w 0 32
  else if off = NVS_SHDATA_HI then bits w 32 32
  else if off = NVS_WEAR_A then min s.nvs.wearA 0xFFFFFFFF
  else if off = NVS_WEAR_B then min s.nvs.wearB 0xFFFFFFFF
  else if off = NVS_WEAR_C then min s.nvs.wearC 0xFFFFFFFF
  else if off = NVS_WEAR_J then min s.nvs.wearJ 0xFFFFFFFF
  else s.rd off

/-- What a register holds, as a read finds it. -/
def State.regView (s : State) (off : Nat) : Nat :=
  if off = MGT_BOOT then putBits (s.rd off) 8 3 s.nvs.pref
  else if MGT_LOG_W 0 ≤ off && off < MGT_LOG_W 4 then s.logWord ((off - MGT_LOG_W 0) / 4)
  else if off = MGT_PEVTQ then
    (match s.mgmt.pevtq with | p :: _ => 2 ^ 31 + p | [] => 0) + b2n s.mgmt.pevtOvf * 2 ^ 30
  else if off = TIM_TICK_LO then s.time.tick % 2 ^ 32
  else if off = TIM_TICK_HI then s.time.tick / 2 ^ 32
  else if 0x20100 ≤ off && off < 0x20300 && off % 0x80 = 0x1C then
    if s.period = 0 then 0 else min (s.floor ((off - 0x20100) / 0x80)) 0x1FFF
  else if 0x30100 ≤ off && off < 0x30200 then
    ofLe (((measBytes (tabGet [] s.sec.mr ((off - 0x30100) / 0x40))).drop (off % 0x40)).take 4)
  else if 0x40000 ≤ off && off < 0x50000 then s.nvsView off
  else if 0x51000 ≤ off && off < 0x58000 && off % 0x10 = 0 then s.votes ((off - 0x51000) / 0x10)
  else if 0x51000 ≤ off && off < 0x58000 && off % 0x10 = 4 then s.domStatus ((off - 0x51000) / 0x10)
  else if off = BST_ERT then s.ert
  else if off = MEM_HBM_TRD then s.trd
  else if 0x88000 ≤ off && off < 0xA0000 then s.rd (0x88000 + s.coreKey ((off - 0x88000) / 0x40) * 0x40 + off % 0x40)
  else if off = FEL_UP_LO then s.upMask % 2 ^ 32
  else if off = FEL_UP_HI then s.upMask / 2 ^ 32
  else if 0x160000 ≤ off && off < 0x1A0000 && 0x8000 ≤ off % 0x10000 && off % 0x40 = 0x1C then
    s.subThit ((off % 0x8000) / 0x40 * 4 + (off - 0x160000) / 0x10000)
  else if 0x160000 ≤ off && off < 0x1A0000 && off % 0x10000 = 0x10 then s.retMin ((off - 0x160000) / 0x10000)
  else if 0x200100 ≤ off && off < 0x280000 && off % 0x10000 < 0x200 && off % 0x20 = 4 then
    let l := 8 * ((off - 0x200000) / 0x10000) + (off % 0x10000 - 0x100) / 0x20
    putBits (putBits (s.rd off) 16 7 (s.nw l 0)) 24 7 (s.nw l 1)
  else if 0x280040 ≤ off && off < 0x280064 then s.rotAge ((off - 0x280040) / 4)
  else if 0x400000 ≤ off && off < 0x440000 then s.chsView off
  else if 0x2000000 ≤ off && off < 0x2800000 then s.prtView off
  else s.rd off

/-- The peak fields restart at the occupancy present (R496). -/
def State.peaks (s : State) (off : Nat) : State :=
  if 0x140100 ≤ off && off < 0x140180 then
    let b := s.bank ((off - 0x140100) / 4)
    s.wr off (b.missStore * 0x10000 + b.fills.length)
  else if 0x160000 ≤ off && off < 0x1A0000 && off % 0x10000 = 0x48 then
    s.fset off 0 5 (s.eng ((off - 0x160000) / 0x10000)).pend.length
  else if 0x88000 ≤ off && off < 0xA0000 && off % 0x40 = 0x28 then
    s.fset off 0 5 (s.core ((off - 0x88000) / 0x40)).sb.length
  else s

/-- What a read does beside clearing RC fields: the partition event queue gives its oldest entry, the staging and shadow
indices advance (R415, R459, R462). -/
def State.readEffect (s : State) (part : Bool) (off : Nat) : State :=
  if off = MGT_PEVTQ then s.withMgmt { s.mgmt with pevtq := s.mgmt.pevtq.drop 1, pevtOvf := false }
  else if off = NVS_SHDATA_HI then s.wr NVS_SHIDX ((s.fget NVS_SHIDX 0 14 + 1) % 15352)
  else if part && off % 0x1000 = 0x70 then s.stageNext ((off - 0x2000000) / 0x1000)
  else s

/-- The FEC codewords corrected and uncorrectable on an Ethernet port since the last read (R341): their number is free
(assumption 2). -/
def State.fecCount (s : State) (off : Nat) : State :=
  if off = WRR_FECCORR 0 || off = WRR_FECCORR 1 || off = WRR_FECUNC 0 || off = WRR_FECUNC 1 then
    let (i, s) := s.draw
    s.count off (Config.freeWord32 i).toNat
  else s

/-- A read of a register: its value in a view, and the state after it (R7). A register of the checker copy of a lockstep pair is
that of the main copy (R268). -/
def State.regFetch (s : State) (part : Bool) (off : Nat) (r : RegRow) : Nat × State :=
  let s := s.fecCount off
  if off = ELC_GPIO_IN then s.gpioIn
  else if off = MGT_POWER then s.powerNow
  else
    let off' := if 0x88000 ≤ off && off < 0xA0000 then 0x88000 + s.coreKey ((off - 0x88000) / 0x40) * 0x40 + off % 0x40 else off
    (readMask part (s.regView off) r.flds,
      ((s.wr off' (clearRead part (s.rd off') r.flds)).peaks off').readEffect part off)

end Sys2Proof.Machine
end

