-- ==== Sys2Proof/Machine/Mgmt.lean ====
section
/-! DEFINITION. Resets (R442 to R445), boot (R446 to R448, R365, R366, R381, R338), the settings store (R449 to R454), the
mailbox (R457), the error log's commands (R458), THERM (R459) and the SMBus port (R460). -/

namespace Sys2Proof.Machine

/-! ## The settings store (R449 to R454) -/

/-- The records of the active bank. -/
def State.image (s : State) : List Word :=
  match if s.fbit NVS_ST 16 then s.nvs.bankB else s.nvs.bankA with
  | some (_, recs) => recs
  | none => []

/-- The table whose entry `i` is element `i` of a list, from index `i` on. -/
def tabOf : Nat → List Word → Tab Word
  | _, [] => []
  | i, w :: ws => if w = 0 then tabOf (i + 1) ws else (i, w) :: tabOf (i + 1) ws

/-- The shadow and its record count are loaded from the active bank. -/
def State.loadShadow (s : State) : State :=
  (s.withNvs { s.nvs with shadow := tabOf 0 s.image }).wr NVS_SHLEN s.image.length

/-- The mount (R451): the bank that the pointer names, or the other with FALLBK; an abandoned STORE is recorded (R453). -/
def State.mount (s : State) : State :=
  let x := s.nvs
  let named := (x.ptr.map (·.1)).getD false
  let valid (b : Bool) : Bool := (if b then x.bankB else x.bankA).isSome && x.ptr.isSome
  let fall := !valid named && valid (!named)
  let s := s.wr NVS_ST (b2n (named != fall) * 2 ^ 16 + b2n fall * 2 ^ 17)
  let s := s.wr64 NVS_SEQ_LO (match if named != fall then x.bankB else x.bankA with | some (q, _) => q | none => 0)
  let s := if valid named && !x.torn then s else s.errLog stIncomplete srcNvs none 0
  (s.withNvs { s.nvs with torn := false }).loadShadow

/-- A STORE is running. -/
def State.storing (s : State) : Bool := match s.nvs.cmd with | some (true, _) => true | _ => false

/-- A write of NVS_CMD: 1 STORE, 2 RELOAD (R452 to R454). -/
def State.nvsCmd (s : State) (op : Nat) : State :=
  let st (s : State) (v : Nat) : State := s.fset NVS_ST 0 8 v
  let run (c : Bool × List Word) : State := (s.withNvs { s.nvs with cmd := some c }).fset NVS_ST 8 1 1
  if s.fbit NVS_ST 8 then st s stBusy
  else if op = 2 then run (false, [])
  else if Nat.ble 1000000000 (if s.fbit NVS_ST 16 then s.nvs.wearA else s.nvs.wearB) then st s stWear
  else run (true, (List.range (s.fget NVS_SHLEN 0 14)).map (fun i => tabGet 0 s.nvs.shadow i))

/-- A STORE or RELOAD ends. -/
def State.nvsDone (s : State) (failed : Bool) : State :=
  let done (s : State) (st : Nat) : State :=
    (((s.withNvs { s.nvs with cmd := none }).fset NVS_ST 8 1 0).fset NVS_ST 0 8 st).mgrEvent 6
  match s.nvs.cmd with
  | none => s
  | some (true, recs) => if failed then done (s.setInactive none) stWear else done (s.storeSwitch recs) stOk
  | some (false, _) => done s.loadShadow stOk

/-- An access to NVS_SHDATA: a write changes a half of the record reached, a read returns it; each access to HI then moves to the
next record (R462). -/
def State.shadowAccess (s : State) (hi : Bool) (wr : Option Nat) : State :=
  let i := s.fget NVS_SHIDX 0 14
  let lo := if hi then 32 else 0
  let w := (tabGet 0 s.nvs.shadow i).toNat
  let next (s : State) : State := if hi then s.wr NVS_SHIDX ((i + 1) % 15352) else s
  match wr with
  | none => next (s.emit (.regData (BitVec.ofNat 32 (bits w lo 32))))
  | some v =>
    if s.storing then s.fset NVS_ST 0 8 stBusy
    else
      let s := s.withNvs { s.nvs with shadow := tabPut 0 s.nvs.shadow i (BitVec.ofNat 64 (putBits w lo 32 v)) }
      next (s.fset NVS_ST 0 8 stOk)

/-- A write of NVS_SHLEN with a defined value; it is a write of the shadow. -/
def State.shadowLen (s : State) (v : Nat) : State :=
  let v := bits v 0 14
  if s.storing then s.fset NVS_ST 0 8 stBusy
  else (s.wr NVS_SHLEN v).fset NVS_ST 0 8 stOk

/-- STORE. -/
def execStore (s : State) : Host.Outcome State Fault Refusal := s.live (·.nvsCmd 1)
/-- RELOAD. -/
def execReload (s : State) : Host.Outcome State Fault Refusal := s.live (·.nvsCmd 2)
/-- NVS_COMMAND_DONE. -/
def execNvsCommandDone (failed : Bool) (s : State) : Host.Outcome State Fault Refusal := s.live (·.nvsDone failed)
/-- SHADOW_WRITE. -/
def execShadowWrite (hi : Bool) (wr : Option (BitVec 32)) (s : State) : Host.Outcome State Fault Refusal :=
  s.live (·.shadowAccess hi (wr.map (·.toNat)))

/-! ## Settings image (R450) -/

/-- A record names a register that the image may not write. -/
def skipped (off : Nat) : Bool :=
  (0x30000 ≤ off && off < 0x50000) || 0x2000000 ≤ off ||
  match regAt off with
  | some (_, _, r) => r.flds.all (fun f => f.acc == .wo || f.acc == .rc || f.acc == .rwl)
  | none => true

/-- One record: applied as the manager would write it, or skipped and recorded with its status and offset. Its reserved bits are
ignored (R8). -/
def State.applyRecord (s : State) (w : Word) : State :=
  let off := bits w.toNat 0 26
  let v := bits w.toNat 32 32
  let skip (s : State) (st : Nat) (log : Bool) : State :=
    (if log then s.errLog st ((blockAt off).getD srcHost) none off else s).countFld NVS_APPLY 16 16
  if skipped off then skip s stArg true
  else
    match regAt off with
    | none => skip s stArg true
    | some (_, _, r) =>
      let s' := s.regStore false off v r
      let bad : Bool := r.flds.any (fun f => f.reserved false v) || crossReserved off v
      let st := if bad then stArg else match lastSt off with | some (q, lo) => s'.fget q lo 8 | none => stOk
      if st = stOk then s'.countFld NVS_APPLY 0 16 else skip s' st (s'.mgmt.log == s.mgmt.log)

/-- The settings image is applied, record by record. -/
def State.applyImage (s : State) : State := s.image.foldl State.applyRecord (s.wr NVS_APPLY 0)

/-! ## Boot flash (R447) -/

/-- The bytes of the boot flash. -/
def flashSize : Nat := 0x1000000 + 0x10000 * Config.flashExtra

/-- Flash offset and size of a slot of an image TYPE. -/
def flashSlot (t slot : Nat) : Nat × Nat :=
  match t with
  | 1 => (slot * 0x100000, 0x100000)
  | 2 => (0x200000 + slot * 0x200000, 0x200000)
  | _ => (0x600000 + slot * 0x300000, 0x300000)

/-- A byte of the flash. -/
def State.flashAt (s : State) (a : Nat) : Byte :=
  match tabFind s.mgmt.flash a with
  | some b => b
  | none => if s.mgmt.erased.contains (a / 0x10000) then 0xFF else Config.flashByte a

/-- `n` bytes of the flash. -/
def State.flashRead (s : State) (a n : Nat) : List Byte := (List.range n).map (fun i => s.flashAt (a + i))

/-- Pages programmed: a flash bit goes from 1 to 0 only. -/
def State.flashProgram : State → Nat → List Byte → State
  | s, _, [] => s
  | s, a, b :: bs =>
    (s.withMgmt { s.mgmt with flash := tabIns s.mgmt.flash a (s.flashAt a &&& b) }).flashProgram (a + 1) bs

/-- A sector erased. -/
def State.flashErase (s : State) (a : Nat) : State :=
  (s.withMgmt { s.mgmt with
    flash := tabDrop s.mgmt.flash a (a + 0x10000)
    erased := a / 0x10000 :: s.mgmt.erased.filter (fun x => x != a / 0x10000) })

/-- The range touches a slot that a TYPE booted from. -/
def State.inBootedSlot (s : State) (a n : Nat) : Bool :=
  [1, 2, 3].any (fun t => rangesMeet (flashSlot t (s.fget MGT_BOOT (t - 1) 1)) (a, n))

/-! ## Images (R364, R365) -/

/-- The number of the first check of R365 that the image in a slot fails, 0 where all pass. -/
def State.imageCheck (s : State) (t slot : Nat) : Nat :=
  let (a, size) := flashSlot t slot
  let m := s.flashRead a 0x180
  let w := wordAt m
  let len := bits (w 8) 32 32
  let root := bits (w 0x18) 8 8
  let pub := cut m 0x80 128
  if bits (w 0) 24 40 ≠ 0x4956494D01 || bits (w 0) 16 8 ≠ t || bits (w 8) 0 32 ≠ 0 || bits (w 0x18) 16 48 ≠ 0 ||
      bits (w 0x18) 6 2 ≠ 0 || !allZero (cut m 0x50 48) || 63 < bits (w 0) 0 16 || len = 0 || size - 0x1000 < len then 1
  else if 3 < root || bit (s.rd SEC_ROOTREV) root then 2
  else if sha384 (pub.take 97) ≠ Config.rootDigest root then 3
  else if !bit (w 0x18) s.lcs then 4
  else if w 0x10 ≠ 0 && w 0x10 ≠ Config.idn.toNat then 5
  else if bits (w 0) 0 16 < s.fget SEC_SVN (6 * t) 6 then 6
  else if !pubOk pub || !ecVerify (pub.take 97) (sha384 (m.take 0x100)) (cut m 0x100 128) then 7
  else if sha384 (s.flashRead (a + 0x1000) len) ≠ cut m 0x20 48 then 8
  else 0

/-- A measurement register is extended (R366). -/
def State.extendMr (s : State) (i : Nat) (d : List Byte) : State :=
  s.withSec { s.sec with mr := tabIns s.sec.mr i (extend (tabGet [] s.sec.mr i) d) }

/-- A boot-image fault (R448): the device stays in reset with FAULTn asserted. -/
def State.imageFault (s : State) (t d : Nat) : State :=
  let s := (s.wr BST_FAULT (2 ^ 31 + 0x5000 + t * 2 ^ 4 + d)).fset MGT_ST 8 4 0xF
  (s.withHold (some .fault)).withMgmt { s.mgmt with faultn := true }

/-- An image is taken from its preferred slot, else from the other one, and measured. In BLANK and SCRAPPED none is accepted, and
Kindling waits or stops (R359). -/
def State.loadImage (s : State) (t : Nat) (flashOk : Bool) : State :=
  let use (slot : Nat) : State :=
    let m := s.flashRead (flashSlot t slot).1 0x100
    let s := (s.fset MGT_BOOT (t - 1) 1 slot).extendMr t (sha384 m)
    s.withSec { s.sec with svns := s.sec.svns ++ [bits (wordAt m 0) 0 16] }
  let p := b2n (bit s.nvs.pref (t - 1))
  if s.hold.isSome then s
  else if s.lcs = 0 || s.lcs = 5 then s.withHold (some .lifeCycle)
  else if !flashOk then s.imageFault t 0
  else if s.imageCheck t p = 0 then use p
  else if s.imageCheck t (1 - p) = 0 then use (1 - p)
  else s.imageFault t (s.imageCheck t (1 - p))

/-! ## Boot (R446) -/

/-- A boot stage: nothing once the device holds itself in reset. -/
def State.stage (s : State) (n : Nat) (f : State → State) : State := if s.hold.isSome then s else f (s.fset MGT_ST 8 4 n)

/-- Stage 2: the units that self-test finds faulty fail (R430, R431). -/
def State.selfTest (s : State) (faults : List (BitVec 16)) : State :=
  let n := s.nvs.retired.length
  let s := faults.foldl (fun (s : State) c =>
    if s.hold.isSome then s else s.unitFails (bits c.toNat 4 8) (bits c.toNat 12 4) (bits c.toNat 0 4)) s
  s.wr BST_POR (8194 * 2 ^ 16 + (s.nvs.retired.length - n))

/-- Stage 4: the SESSION increment (R381), a new session KEK (R376), the generator seeded. -/
def State.newSession (s : State) (ok : Bool) : State :=
  let worn := !ok || Nat.ble 0xFFFFFFFE s.nvs.session
  let s := if worn then s else (s.withNvs { s.nvs with session := s.nvs.session + 1 }).wearControl.wearControl
  let (kek, s) := (s.withSec { s.sec with drbg := {} }).randomBytes 32
  ((s.withSec { s.sec with worn := worn, kek := kek }).wr SEC_SESSION s.nvs.session).fset SEC_RNG 0 1 1

/-- A domain stands in a power state, steady. -/
def State.placeDomain (s : State) (d v : Nat) : State := (s.fset (PWR_D_ST d) 0 2 v).fset (PWR_D_ST d) 4 2 0

/-- The replacements that a boot finds due are made before it enters service: takeovers and the failover (R286, R289). -/
def State.bootReplace (s : State) : State :=
  let s := (List.range 8).foldl (fun (s : State) c =>
    if s.fget (CLU_ST c) 8 2 = 1 then
      (((List.range 9).foldl (fun (s : State) i => s.placeDomain (72 + i) 0) (s.placeDomain 89 0))).failoverResume c
    else s) s
  (List.range 64).foldl (fun (s : State) l =>
    match (s.lp l).tk with
    | some q =>
      let s := ((s.placeDomain q 0).takeoverResume l).setLpState l 0
      s.setLp l { s.lp l with tk := none }
    | none => s) s

/-- Stage 7: pairs in service run, and the clusters that hold them; reserves and retired pairs are in BIVOUAC. -/
def State.placePairs (s : State) : State :=
  let s := (List.range 81).foldl (fun (s : State) pp => s.placeDomain pp (if s.role pp = 0 then 0 else 3)) s
  let s := (List.range 9).foldl (fun (s : State) c => s.placeDomain (81 + c) (if (s.lclOf c).isSome then 0 else 3)) s
  (List.range 90).foldl (fun (s : State) d => s.reeval d) s

/-- Stage 8: the recovery report of a session's journal (R338). -/
def State.recoveryReport (s : State) (session : Nat) (words : List Nat) : State :=
  let n := (words.filter (fun w => w != 0)).length
  let head := [0x5245435600010000, session * 2 ^ 32, Config.idn.toNat, n, 0, 0, 0, 0]
  let body := (head ++ words).flatMap (leBytes 8)
  let (sig, s) := s.signed body
  let a := s.work + 0xC00000
  let s := s.agentWrite a ((body ++ sig).take (hbmSize - a))
  ((s.fset CHS_ST 16 1 1).wr CHS_REC (2 ^ 31 + n)).mgrEvent 3

/-- HBM is zeroed (stage 6). -/
def State.zeroHbm (s : State) : State := (s.withHbm []).withPoison []

/-- The report of a boot: of the journal-flush region where its seal holds; without a seal an entry of the error log, unless the
region was never written (R338, R339). -/
def State.sealReport (s : State) : State :=
  match s.nvs.sealed with
  | some (_, session, crc) =>
    if crc32c (s.nvs.flush.flatMap (fun w => leBytes 8 w.toNat)) = crc then
      s.recoveryReport session (s.nvs.flush.map (·.toNat))
    else s.errLog stIncomplete srcChs none 0
  | none => if s.nvs.wearJ = 0 then s else s.errLog stIncomplete srcChs none 0

/-- Boot stages 2 to 9; `report` writes the recovery report. -/
def State.boot (s : State) (p : BootInput) (report : State → State) : State :=
  let s := s.stage 2 (·.selfTest p.faults)
  let s := s.stage 3 (fun s =>
    let s := s.extendMr 0 Config.romDigest
    let fuses := [s.lcs, s.rd SEC_SVN, s.rd SEC_ROOTREV, s.feat 0, 0, 0, 0, 0].flatMap (leBytes 8)
    ((s.extendMr 0 fuses).withSec { (s.extendMr 0 fuses).sec with svns := [] }).loadImage 1 p.flashOk)
  let s := s.stage 4 (fun s => (s.newSession p.sessionOk).loadImage 2 p.flashOk)
  let s := s.stage 5 id
  let s := s.stage 6 (fun s => s.zeroHbm.loadImage 3 p.flashOk)
  let s := s.stage 7 (fun s => s.bootReplace.placePairs)
  let s := s.stage 8 (fun s => report s.applyImage)
  s.stage 9 id

/-- The settings store as a power-on reset finds it; a RETIRED_CLEAR that waits empties the retired-unit list (R457). -/
def State.porStore (s : State) : State :=
  let s := s.sealLost.storeAbandon
  if s.fbit MGT_RETIRED 31 then (s.withNvs { s.nvs with retired := [] }).wearControl else s

/-- Power-on reset up to stage 1: fuses, settings store and flash are kept (R442), and what has left the device; the retired units
take their places (R286), but for the FE lanes, which a power-on reset brings back to OFF (R84). -/
def State.powerOn (s : State) : State :=
  let s := s.porStore
  let r := State.reset
  let t : State := { r with
    pending := s.pending, free := s.free, outs := s.outs, jtag := s.jtag
    nvs := { s.nvs with shadow := [], cmd := none }
    mgmt := { r.mgmt with flash := s.mgmt.flash, erased := s.mgmt.erased }
    sec := { r.sec with ident := s.sec.ident } }
  let t := ((t.wr SEC_LC (s.rd SEC_LC)).wr SEC_SVN (s.rd SEC_SVN)).fset SEC_LC 16 1 0
  let t := ((t.fset MGT_ST 16 4 1).fset MGT_ST 8 4 1).wr MGT_RETIRED s.nvs.retired.length
  (s.nvs.retired.filter (fun u => u < 106 || 122 ≤ u)).foldl (fun (t : State) u => t.unitFails u 0 0) t.mount

/-- POWER_ON_RESET. -/
def execPowerOnReset (p : BootInput) (s : State) : Host.Outcome State Fault Refusal :=
  s.always (fun s => s.powerOn.boot p State.sealReport)

/-! ## Warm reset (R442 to R444) -/

/-- A register that a warm reset keeps (R442, R300, R441, R458): the fields of others that it keeps are put back after it. -/
def keptWarm (off : Nat) : Bool :=
  (0x40000 ≤ off && off < 0x50000) || off == MGT_LOG_CNT || off == MGT_LOG_LOST || off == MGT_FWEVT || off == MGT_RETIRED ||
  off == SEC_LC || off == SEC_SVN || off == BST_POR || off == BST_FAULT || off == CLU_SP_ST || off == CLU_PCL_ST ||
  (List.range 8).any (fun c => off == CLU_RSV c) || (List.range 64).any (fun l => off == CLU_LP_MAP l) ||
  (0x300000 ≤ off && off < 0x351000 && off == PAI_TEST ((off - 0x300000) / 0x1000))

/-- The fields that keep their values in registers that a warm reset resets. -/
def State.keepFields (t s : State) : State :=
  let t := (List.range 2048).foldl (fun (t : State) pn => if s.epoch pn = 0 then t else t.fset (PRT_STATE pn) 8 8 (s.epoch pn)) t
  let t := (List.range 8).foldl (fun (t : State) c =>
    (t.fset (CLU_ST c) 16 4 (s.pclOf c)).fset (CLU_ST c) 8 2 (s.fget (CLU_ST c) 8 2)) t
  let t := (List.range 81).foldl (fun (t : State) pp =>
    (t.fset (PAI_ST pp) 29 3 (s.role pp)).fset (PAI_ST pp) 16 7 (s.fget (PAI_ST pp) 16 7)) t
  let t := (List.range 64).foldl (fun (t : State) l => if s.lpState l = 4 then t.setLpState l 0 else t) t
  let t := (List.range 64).foldl (fun (t : State) l => if s.lstate l = 7 then t.setLstate l 7 else t) t
  let t := (List.range 16).foldl (fun (t : State) e => if s.cmpState e = 4 || s.nvs.retired.contains (90 + e) then t.fset (CMP_ST e) 16 3 4 else t) t
  (t.fset MEM_HBM_CFG 31 1 (s.fget MEM_HBM_CFG 31 1)).fset SEC_RNG 1 1 (s.fget SEC_RNG 1 1)

/-- A reset writes a line of a cluster's L2 back, with its modified L1D copy, and invalidates it. Where the writeback fails, which is
free, the line is discarded and counted in the error log, with a status that is not stated (R266; assumption 52). -/
def State.evictOrLose (s : State) (c line : Nat) : State :=
  match s.l2Line c line with
  | some l =>
    if l.dirty || l.owner.isSome then
      let (i, s) := s.draw
      if Config.freeBool i then (s.dropLine c line).errLog ((Config.freeWord i).toNat % 16) srcMem none (line * 64)
      else s.evictLine c line
    else s.dropLine c line
  | none => s

/-- The L2 of a cluster written back and invalidated by a reset. -/
def State.flushL2 (s : State) (c : Nat) : State := ((s.cluster c).l2.map (·.1)).foldl (fun (s : State) line => s.evictOrLose c line) s

/-- The L2s of the clusters in service written back and invalidated by a warm reset. -/
def State.flushL2s (s : State) : State :=
  (List.range 9).foldl (fun (s : State) p => if (s.lclOf p).isSome then s.flushL2 p else s) s

/-- The stores discarded by a reset are counted, and recorded once for each core (R266). -/
def State.wrst (t : State) (k n : Nat) : State :=
  if n = 0 then t else (t.count (MEM_C_WRST k) n).errLog stTimeout srcMem none k

/-- Pairs under test return to their roles: a reset ends every test (R437). -/
def State.endTests (s : State) : State :=
  let s := s.withTest none
  (List.range 81).foldl (fun (s : State) pp =>
    if s.role pp = 3 then
      match s.reserveFor pp with
      | some c => ((s.setPair pp 1 false none).fset (CLU_RSV c) 0 3 0)
      | none => (s.setPair pp 2 false none).fset CLU_SP_ST 16 3 0
    else s) s

/-- The reset of a warm reset, after its steps 1 and 2. -/
def State.warmScope (s : State) : State :=
  let r := State.reset
  let t : State := { r with
    pending := s.pending, free := s.free, outs := s.outs, jtag := s.jtag, nvs := s.nvs
    regs := s.regs.filter (fun e => keptWarm e.1)
    mgmt := { r.mgmt with flash := s.mgmt.flash, erased := s.mgmt.erased, log := s.mgmt.log, smbUnread := s.mgmt.smbUnread }
    sec := { r.sec with ident := s.sec.ident, mr := s.sec.mr, challenge := s.sec.challenge }
    pf := { s.pf with tbl := [], pba := 0 }
    lps := (s.lps.map (fun e => (e.1, ({ tk := e.2.tk, exch := e.2.exch } : LpSt)))).filter (fun e => e.2 != {})
    parts := (List.range 2048).map (fun pn => (pn, ({ msixEn := false, busMaster := false } : PartSt))) }
  (s.cores.foldl (fun (t : State) e => t.wrst e.1 e.2.undrained.length) (t.keepFields s)).endTests

/-- A warm reset from a source, with the streams disabled first (R152, R443, R495): ignored while a power-fail sequence runs. -/
def State.warm (s : State) (src : Nat) (p : BootInput) : State :=
  if s.readout.powerFail.isSome then s
  else
    let s := ((s.enabledStreams.foldl (fun s n => s.disableStream n) s).closeCreations).flushL2s
    let words := s.journalWords
    let session := s.rd SEC_SESSION
    (s.warmScope.fset MGT_ST 16 4 src).boot p (·.recoveryReport session words)

/-- What a boot finds that a warm reset from the mailbox does not say: free (assumption 2). -/
def State.freeBoot (s : State) : BootInput × State :=
  let (i, s) := s.draw
  let w := (Config.freeWord i).toNat
  ({ faults := if Config.freeBool i then [] else [BitVec.ofNat 16 w], flashOk := bit w 16, sessionOk := bit w 17 }, s)

/-- WARMN_ASSERT. -/
def execWarmnAssert (p : BootInput) (s : State) : Host.Outcome State Fault Refusal := s.live (·.warm 2 p)

/-- The mailbox command WARM_RESET: where it is not refused it ends without a status (R444). -/
def State.warmReset (s : State) (param : Nat) (p : BootInput) : State :=
  if s.fbit MGT_MBX_ST 8 || param ≠ 0 || s.mbxArg ≠ 0xA5A5 then s.mbxRun (fun s => (stArg, s)) else s.warm 3 p

/-- WARM_RESET. -/
def execWarmReset (param : BitVec 8) (p : BootInput) (s : State) : Host.Outcome State Fault Refusal :=
  s.live (·.warmReset param.toNat p)

/-- PCIE_FUNDAMENTAL_RESET: a link-down, a function-level reset of the PF, and the configuration spaces reset. -/
def execPcieFundamentalReset (s : State) : Host.Outcome State Fault Refusal :=
  s.live (fun s =>
    let s := s.linkDown.pfFlr
    let s := (List.range 2048).foldl (fun (s : State) pn => s.vfConfigReset pn) s
    (s.withPf { msixEn := false, fmask := false, busMaster := false, tbl := [], pba := 0, vfEnable := false, numVfs := 0 }))

/-! ## Cluster and pair reset (R445) -/

/-- The registers of a core that such a reset resets (R267). -/
def State.resetCoreRegs (s : State) (k : Nat) : State :=
  [MEM_C_ST k, MEM_C_SERR_LO k, MEM_C_SERR_HI k, MEM_C_SERR_PN k, MEM_C_SECNT k, MEM_C_WRST k, MEM_C_ECC k, MEM_C_SBPEAK k].foldl
    (fun (s : State) r => s.wr r 0) s

/-- The registers of a pair that such a reset resets (R300). -/
def State.resetPairRegs (s : State) (pp : Nat) : State :=
  [PAI_RTEV pp, PAI_RTATT pp, PAI_MIS pp, PAI_MISPC_LO pp, PAI_MISPC_HI pp, PAI_DBG_ST pp, PAI_TRC_ST pp].foldl
    (fun (s : State) r => s.wr r 0) (s.fset (PAI_ST pp) 0 8 0)

/-- The reset of one core: queues, L1s and local memory (R266); its seeds are as its register has them. -/
def State.resetCore (s : State) (k : Nat) : State :=
  let c := s.core k
  let s := s.setCore k { c with preq := [], sb := [] }
  let s := (s.applyStores k (c.sb.takeWhile (fun st => st.ty != .device))).emptyWays k 0
  let s := s.setCore k { change := (s.core k).change, dlfsr := s.fget (MEM_C_SEED k) 0 16, ilfsr := s.fget (MEM_C_SEED k) 16 16 }
  (s.resetCoreRegs k).wrst k c.undrained.length

/-- The reset of the pair that fills a logical pair: it resumes at its next window switch from its context area. -/
def State.resetPair (s : State) (l pp : Nat) : State :=
  let s := ((s.resetCore (2 * pp)).resetCore (2 * pp + 1)).resetPairRegs pp
  let s := if s.lpState l = 4 then s.setLpState l 0 else s
  let x := s.lp l
  let s := s.setLp l { x with cur := none, log := [], logN := 0, closed := none, resetting := true }
  (s.wr (CLU_LP_CKPT l) 0).reeval pp

/-- The status and counter fields that a reset of logical cluster `c` at physical cluster `p` resets in the PAI_ blocks and the
MEM_ registers of every physical pair of the cluster, a RETIRED one included, and in CLU_LPs_CKPT of every logical pair, an EMPTY
one included (R267, R300, R442). -/
def State.resetCluRegs (s : State) (c p : Nat) : State :=
  let s := (List.range 9).foldl (fun (s : State) i =>
    ((s.resetCoreRegs (2 * (9 * p + i))).resetCoreRegs (2 * (9 * p + i) + 1)).resetPairRegs (9 * p + i)) s
  (lpsOf c).foldl (fun (s : State) l => s.wr (CLU_LP_CKPT l) 0) s

/-- CLU_RESET of a logical cluster. -/
def State.cluReset (s : State) (c : Nat) : State :=
  s.mbxRun (fun s =>
    if 8 ≤ c then (stArg, s)
    else if s.fget (CLU_ST c) 8 2 ≠ 0 || s.takeoverIn c then (stState, s)
    else
      let p := s.pclOf c
      let s := s.resetCluRegs c p
      let s := (lpsOf c).foldl (fun (s : State) l => match s.ppOf l with | some pp => s.resetPair l pp | none => s) s
      let s := match s.reserveOf c with
        | some q =>
          let s := (((s.abortRotation q).resetCore (2 * q)).resetCore (2 * q + 1)).resetPairRegs q
          if s.role q = 3 then (s.setPair q 1 false none).fset (CLU_RSV c) 0 3 0 else s
        | none => s
      let s := s.flushL2 p
      let s := (lpsOf c).foldl (fun (s : State) l => s.setLp l { s.lp l with hbmCtx := (s.lp l).ctx }) s
      let s := s.setCluster p { s.cluster p with lfsr := s.fget (MEM_CL_L2CTL p) 0 16, holdCmd := none, decq := [] }
      let s := [MEM_CL_ST p, MEM_CL_HOLD_ST p, MEM_CL_L2MISS_LO p, MEM_CL_L2MISS_HI p, MEM_CL_L2ECC p, MEM_CL_COHERR p,
        CLU_CMD_ST c, CLU_TOCNT c, CLU_FOCNT c].foldl (fun (s : State) r => s.wr r 0) s
      (0, (s.fset (CLU_ST c) 0 8 0).withMgmt { s.mgmt with mbxCl := some c }))

/-- PAIR_RESET of a logical pair. -/
def State.pairReset (s : State) (l : Nat) : State :=
  s.mbxRun (fun s =>
    if 64 ≤ l then (stArg, s)
    else
      match s.ppOf l with
      | some pp =>
        if s.lpState l ≠ 0 then (stState, s)
        else
          let s := s.resetPair l pp
          (0, s.withMgmt { s.mgmt with mbxCl := some (l / 8) })
      | none => (stState, s))

/-- CLU_RESET. -/
def execCluReset (param : BitVec 8) (s : State) : Host.Outcome State Fault Refusal := s.live (·.cluReset param.toNat)
/-- PAIR_RESET. -/
def execPairReset (param : BitVec 8) (s : State) : Host.Outcome State Fault Refusal := s.live (·.pairReset param.toNat)

/-! ## Other mailbox commands (R457) -/

/-- A command that may end with another status than ST_OK, which is then free (assumption 2), with nothing done. -/
def State.mbxMayFail (s : State) (st : Nat) (f : State → State) : State :=
  let (i, s) := s.draw
  if Config.freeBool i then f s else s.withMgmt { s.mgmt with mbxSt := st }

/-- A mailbox command whose action may end so; `f` gives the status of a refusal. -/
def State.mbxTry (s : State) (st : Nat) (f : State → Nat) (g : State → State) : State :=
  let t := s.mbxRun (fun s => (f s, s))
  if s.fbit MGT_MBX_ST 8 || f s ≠ 0 then t else t.mbxMayFail st g

/-- FLASH_ERASE. -/
def State.cmdErase (s : State) (param : Nat) : State :=
  let a := s.rd MGT_MBX_ARG2
  s.mbxTry stTimeout (fun s =>
    if param ≠ 0 || a % 0x10000 ≠ 0 || flashSize ≤ a then stArg else if s.inBootedSlot a 0x10000 then stPerm else 0)
    (·.flashErase a)

/-- FLASH_WRITE. -/
def State.cmdProgram (s : State) (param : Nat) : State :=
  let a := s.rd MGT_MBX_ARG2
  let h := s.mbxArg
  let n := 256 * param
  s.mbxTry stTimeout (fun s =>
    if param = 0 || a % 256 ≠ 0 || h % 256 ≠ 0 || flashSize < a + n || hbmSize < h + n then stArg
    else if s.inBootedSlot a n || !s.unassigned h n || rangesMeet (s.rd64 SEC_KTAB_LO, 0x200000) (h, n) then stPerm else 0)
    (fun s => s.flashProgram a (s.hbmRead h n))

/-- BOOT_SELECT. -/
def State.bootSelect (s : State) (t : Nat) : State :=
  let v := s.mbxArg
  s.mbxTry stWear (fun _ => if t = 0 || 3 < t || 1 < v then stArg else 0)
    (fun s => (s.withNvs { s.nvs with pref := putBits s.nvs.pref (t - 1) 1 v }).wearControl)

/-- LOG_CLEAR. -/
def State.logClear (s : State) (param : Nat) : State :=
  s.mbxRun (fun s =>
    if param ≠ 0 then (stArg, s)
    else (0, ((s.withMgmt { s.mgmt with log := [], smbUnread := 0 }).wr MGT_LOG_CNT 0).fset MGT_FWEVT 0 1 0))

/-- RETIRED_CLEAR. -/
def State.retiredClear (s : State) (param : Nat) : State :=
  s.mbxRun (fun s =>
    if param ≠ 0 then (stArg, s) else if !s.debugOk then (stPerm, s) else (0, s.fset MGT_RETIRED 31 1 1))

/-- No reset of a cluster or a pair runs any more. -/
def State.mbxEnded (s : State) : State := s.withMgmt { s.mgmt with mbxCl := none }

/-- MAILBOX_COMMAND_DONE. -/
def State.mbxDone (s : State) : State :=
  if s.fbit MGT_MBX_ST 8 then 
    ((s.timesetDone.wr MGT_MBX_ST s.mgmt.mbxSt).mgrEvent 5).mbxEnded else s

/-- FLASH_ERASE. -/
def execFlashErase (param : BitVec 8) (s : State) : Host.Outcome State Fault Refusal := s.live (·.cmdErase param.toNat)
/-- FLASH_WRITE. -/
def execFlashWrite (param : BitVec 8) (s : State) : Host.Outcome State Fault Refusal := s.live (·.cmdProgram param.toNat)
/-- BOOT_SELECT. -/
def execBootSelect (param : BitVec 8) (s : State) : Host.Outcome State Fault Refusal := s.live (·.bootSelect param.toNat)
/-- LOG_CLEAR. -/
def execLogClear (param : BitVec 8) (s : State) : Host.Outcome State Fault Refusal := s.live (·.logClear param.toNat)
/-- RETIRED_CLEAR. -/
def execRetiredClear (param : BitVec 8) (s : State) : Host.Outcome State Fault Refusal := s.live (·.retiredClear param.toNat)
/-- MAILBOX_COMMAND_DONE. -/
def execMailboxCommandDone (s : State) : Host.Outcome State Fault Refusal := s.live (·.mbxDone)

/-- A write of MGT_MBX_CMD: a reserved OP is discarded (R9). -/
def State.mailbox (s : State) (op param : Nat) : State :=
  match op with
  | 1 => s.timeset param
  | 2 => let (p, t) := s.freeBoot; (if s.fbit MGT_MBX_ST 8 || param ≠ 0 || s.mbxArg ≠ 0xA5A5 then s else t).warmReset param p
  | 3 => s.cluReset param
  | 4 => s.pairReset param
  | 5 => s.cmdErase param
  | 6 => s.cmdProgram param
  | 7 => s.bootSelect param
  | 8 => s.logClear param
  | 9 => s.retiredClear param
  | _ => s.refuseLog MGT_MBX_CMD stArg

/-! ## THERM and the firmware queue -/

/-- MGT_TEMP takes a value: it raises THERM where it reaches MGT_TALARM (R459). -/
def State.therm (s : State) (t : Nat) : State :=
  let a := sext 16 (s.fget MGT_TALARM 0 16)
  let old := sext 16 (s.fget MGT_TEMP 0 16)
  let s := s.wr MGT_TEMP t
  if old < a ∧ a ≤ sext 16 t then s.mgrEvent 8 else s

/-- THERM. -/
def execTherm (tmax : BitVec 16) (s : State) : Host.Outcome State Fault Refusal := s.live (·.therm tmax.toNat)

/-! ## SMBus (R460) -/

/-- A transaction that is not acknowledged. -/
def State.nack (s : State) : State := (s.count MGT_SMB_ERR 1).emit .smbusNack

/-- A command that the port does not answer in the fault hold and in SCRAPPED. -/
def State.smbFull (s : State) (f : State → State) : Host.Outcome State Fault Refusal :=
  s.always (fun s => if s.hold == some .fault || s.lcs = 5 then s.nack else f s)

/-- Read Word. -/
def State.smbWord (s : State) (v : Nat) : State := s.emit (.smbus (leBytes 2 v))

/-- STATUS. -/
def execStatus (s : State) : Host.Outcome State Fault Refusal :=
  s.always (fun s => s.smbWord (s.lcs * 2 ^ 12 + s.fget MGT_ST 8 4 * 2 ^ 8 + s.fget BST_FAULT 31 1 * 2 ^ 7
    + s.fget CHS_ST 16 1 * 2 ^ 6))
/-- FAULT. -/
def execFault (s : State) : Host.Outcome State Fault Refusal :=
  s.always (fun s => s.smbWord (if s.fbit BST_FAULT 31 then s.fget BST_FAULT 0 16 else 0))
/-- TEMP. -/
def execTemp (s : State) : Host.Outcome State Fault Refusal := s.always (fun s => s.smbWord (s.fget MGT_TEMP 0 16))
/-- Twelve sensors, whose readings are free (assumption 2). -/
def State.sensors (s : State) : State :=
  let (bs, s) := s.freeBytes 24
  s.emit (.smbus bs)
/-- TSENS_LO. -/
def execTsensLo (s : State) : Host.Outcome State Fault Refusal := s.smbFull (·.sensors)
/-- TSENS_HI. -/
def execTsensHi (s : State) : Host.Outcome State Fault Refusal := s.smbFull (·.sensors)
/-- POWER. -/
def execPower (s : State) : Host.Outcome State Fault Refusal :=
  s.smbFull (fun s => let (v, s) := s.powerNow; s.smbWord v)
/-- IDENT: the identity number, FEAT0, FEAT3. -/
def execIdent (s : State) : Host.Outcome State Fault Refusal :=
  s.always (fun s => s.emit (.smbus (leBytes 8 Config.idn.toNat ++ leBytes 4 (s.feat 0) ++ leBytes 4 (s.feat 3))))
/-- The oldest entry of the error log not yet read over SMBus. -/
def State.smbLog (s : State) : State :=
  let n := s.mgmt.smbUnread
  match tabFind s.mgmt.log ((s.fget MGT_LOG_CNT 0 8 + 256 - n) % 256) with
  | some (a, b) =>
    if n = 0 then s.emit (.smbus [])
    else (s.withMgmt { s.mgmt with smbUnread := n - 1 }).emit (.smbus (leBytes 8 a.toNat ++ leBytes 8 b.toNat))
  | none => s.emit (.smbus [])
/-- LOG. -/
def execLog (s : State) : Host.Outcome State Fault Refusal := s.smbFull (·.smbLog)
/-- SMBUS WARM_RESET: in a hold the device waits for PORn. -/
def execSmbusWarmReset (data : BitVec 16) (p : BootInput) (s : State) : Host.Outcome State Fault Refusal :=
  s.smbFull (fun s =>
    if data = 0xA5A5 && s.fbit MGT_SMB_CFG 8 then
      if s.hold.isSome then s.emit (.smbus []) else (s.emit (.smbus [])).warm 4 p
    else s.nack)
/-- SMBUS_UNKNOWN_COMMAND: a code of no command of the port. -/
def execSmbusUnknownCommand (code : BitVec 8) (s : State) : Host.Outcome State Fault Refusal :=
  s.always (fun s => if (1 ≤ code.toNat && code.toNat ≤ 8) || code = 0x10 then s else s.nack)
/-- SMBUS_CLOCK_TIMEOUT: the port is reset; it holds no state between transactions. -/
def execSmbusClockTimeout (s : State) : Host.Outcome State Fault Refusal := s.always id

/-! ## Ridgepole messages (R160) -/

/-- A message arrives; it wakes the pairs that run its partition (R426). -/
def State.message (s : State) (d : MsgDest) : State :=
  match d with
  | .part pn =>
    let s := s.setPart pn { s.part pn with msgs := (s.part pn).msgs + 1 }
    s.wakePairs (s.subCl pn) pn 0
  | .firmware => s.withMgmt { s.mgmt with fwMsgs := s.mgmt.fwMsgs + 1 }

/-- RIDGEPOLE_MESSAGE_ARRIVAL. -/
def execRidgepoleMessageArrival (dest : MsgDest) (s : State) : Host.Outcome State Fault Refusal := s.live (·.message dest)

end Sys2Proof.Machine
end

