-- ==== Sys2Proof/Machine/Access.lean ====
section
/-! DEFINITION. Accesses to registers and to HBM through the BARs: the registers whose write starts a command, the views of the PF
and of a partition (R31 to R38, R414, R494), the MSI-X tables (R35, R408), erroneous accesses (R36, R390), the failure of a
Ridgepole stop (R25). -/

namespace Sys2Proof.Machine

/-! ## Registers whose write starts a command -/

/-- A command word of the security controller (R368, R370). -/
def State.secWord (s : State) (who : Nat) (reg w : Nat) : State :=
  let op := bits w 56 8
  if (1 ≤ op && op ≤ 7) || (0x10 ≤ op && op ≤ 0x14) then
    s.secCmd who op (bits w 45 11) (bits w 41 4) (bit w 40) (bits w 4 8) (bits w 0 4)
  else s.refuseLog reg stArg

/-- A command word of the channel subsystem (R303, R304). -/
def State.chsWord (s : State) (who : Issuer) (reg w : Nat) : State :=
  let n := bits w 30 15
  let pn := who.acts (Fin.ofNat 2048 (bits w 45 11))
  match bits w 56 8 with
  | 1 => if who = .mgr then s.scAssign (bits w 45 11) n else s.chsRun who (fun s => (stPerm, s))
  | 2 => if who = .mgr then s.scRelease n else s.chsRun who (fun s => (stPerm, s))
  | 3 => s.pgLoad who (bits w 0 56)
  | 4 => s.scLoad who pn n
  | 5 => s.scEnable who pn n
  | 6 => s.scDisable who pn n
  | 7 => s.scReset who pn n
  | 16 => if who = .mgr then s.recAck else s.chsRun who (fun s => (stPerm, s))
  | _ => s.refuseLog reg stArg

/-- A doorbell word (R322). -/
def State.doorbell (s : State) (src : Src) (w : Nat) : State := if bit w 63 then s.cqDoorbell src w else s.bufDoorbell src w

/-- POP and CLRSUM, the two bits of a loss command (R334, R335). -/
def State.lossCmd (s : State) (pn v : Nat) : State :=
  let s := if bit v 0 then s.popLoss pn else s
  if bit v 1 then s.clrSum pn else s

/-- BST_CMD (R439). -/
def State.bstWord (s : State) (v : Nat) : State :=
  let t := bits v 8 8
  if reservedTarget t then s.bstArg t
  else match bits v 0 4 with
  | 1 => s.unitTest t
  | 2 => s.bstCmd [1, 3, 4] (·.engineRotation .engine)
  | 3 => s.analog t
  | _ => s.bstAbort

/-- The 64-bit word whose HI half is written and whose LO half stands before it. -/
def State.pairWord (s : State) (hi v : Nat) : Nat := v * 2 ^ 32 + s.rd (hi - 4)

/-- A command register of the manager's blocks; none for a register that starts no command. -/
def State.mgrCommand (s : State) (off v : Nat) : Option State :=
  if off = MGT_MBX_CMD then some (s.mailbox (bits v 0 8) (bits v 8 8))
  else if off = SEC_CMD_HI then some (s.secWord 0 off (s.pairWord off v))
  else if off = NVS_CMD then some (s.nvsCmd (bits v 0 2))
  else if off = NVS_SHDATA_LO then some (s.shadowAccess false (some v))
  else if off = NVS_SHDATA_HI then some (s.shadowAccess true (some v))
  else if off = NVS_SHLEN then some (s.shadowLen v)
  else if off = BST_CMD then some (s.bstWord v)
  else if 0x81000 ≤ off && off < 0x81900 && off % 0x100 = 0x14 then
    let c := (off - 0x81000) / 0x100
    some (s.holdCmd c (bits v 0 2))
  else if off = FEL_SWCMD then some (s.swcmdWrite (bits v 0 16))
  else if 0x100000 ≤ off && off < 0x140000 && off % 0x1000 = 0x100 then
    some (if bit v 0 then s.txGo ((off - 0x100000) / 0x1000) else s)
  else if 0x100000 ≤ off && off < 0x140000 && off % 0x1000 = 0x308 then
    some (if bit v 0 then s.fset (FEL_RXSTAT ((off - 0x100000) / 0x1000)) 0 1 0 else s)
  else if off = CTB_INV_CMD then some (s.invalidate (bits v 0 2))
  else if 0x200000 ≤ off && off < 0x280000 && off % 0x10000 = 0xC then
    some (s.cluCmd ((off - 0x200000) / 0x10000 * 8 + bits v 4 3) (bits v 0 3))
  else if off = CLU_SP_CMD then some (if bits v 0 2 = 1 then s.failoverCmd (bits v 8 4) else s.rotateNow)
  else if off = CHS_CMD_HI then some (s.chsWord .mgr off (s.pairWord off v))
  else if off = CHS_DB_HI then some (s.doorbell .pf (s.pairWord off v))
  else if 0x430000 ≤ off && off < 0x440000 && off % 0x20 = 0x18 then some (s.lossCmd ((off - 0x430000) / 0x20) v)
  else none

/-- A command register of a partition's window, in one of its two views. -/
def State.partCommand (s : State) (src : Src) (pn : Pn) (off v : Nat) : Option State :=
  if off = PRT_CMD pn then some (s.prtCmd pn (bits v 0 4))
  else if off = PRT_STAGE_DATA pn then some (s.stageWrite pn v)
  else if off = PRT_LCMD pn then some (s.lossCmd pn v)
  else if off = PRT_CHS_CMD_HI pn then some (s.chsWord (.part pn) off (s.pairWord off v))
  else if off = PRT_DB_HI pn then some (s.doorbell src (s.pairWord off v))
  else if off = PRT_SEC_CMD_HI pn then some (s.secWord (pn.val + 1) off (s.pairWord off v))
  else none

/-- A write of a register in a view: a command, or a value. A reserved encoding discards it before the command looks at
anything (R9). -/
def State.regWrite (s : State) (src : Src) (off v : Nat) (r : RegRow) : State :=
  let part := src != .pf
  let cmd (t : State) : Option State :=
    if off < 0x2000000 then t.mgrCommand off v
    else t.partCommand src (Fin.ofNat 2048 ((off - 0x2000000) / 0x1000)) off v
  match cmd s with
  | none => s.regStore part off v r
  | some t =>
    if r.flds.any (fun f => f.reserved part v) then
      let s := s.refuseLog off stArg
      if off = BST_CMD then s.fset BST_CMD_ST 0 8 stArg else s
    else if s.testing off then s.setLast off stTesting
    else t

/-! ## MSI-X tables and pending bits (R35, R408, R409) -/

/-- A word of an MSI-X table: vector control is masked at first. -/
def msixWord (tbl : Tab Word32) (o : Nat) : Nat := (tabGet (if o % 16 = 12 then 1 else 0) tbl o).toNat

/-- A word of a pending-bit array. -/
def pbaWord (pba o : Nat) : Nat := bits pba (8 * o) 32

/-- A table with a word written. -/
def msixPut (tbl : Tab Word32) (o v : Nat) : Tab Word32 :=
  if o % 16 = 12 then tabPut 1 tbl o (BitVec.ofNat 32 (v % 2)) else tabPut 0 tbl o (BitVec.ofNat 32 v)

/-- A write of the PF's table: a pending vector that it unmasks is sent. -/
def State.pfMsix (s : State) (o v : Nat) : State :=
  let s := s.withPf { s.pf with tbl := msixPut s.pf.tbl o v }
  let n := o / 16
  if bit s.pf.pba n && s.pf.msixEn && !s.pf.fmask && msixWord s.pf.tbl (16 * n + 12) = 0 then
    (s.withPf { s.pf with pba := clrBit s.pf.pba n }).emit (.msixPf n)
  else s

/-- A write of a VF's table. -/
def State.vfMsix (s : State) (pn o v : Nat) : State :=
  let p := s.part pn
  let p := { p with tbl := msixPut p.tbl o v }
  let n := o / 16
  if bit p.pba n && s.pstate pn = 2 && p.msixEn && !p.fmask && msixWord p.tbl (16 * n + 12) = 0 then
    (s.setPart pn { p with pba := clrBit p.pba n }).emit (.msixVf pn n)
  else s.setPart pn p

/-! ## 32-bit accesses -/

/-- An erroneous access of a side, recorded where R36 and R414 say. -/
def State.accessErr (s : State) (src : Src) (st off : Nat) : State :=
  match src with
  | .pf => s.errLog st ((blockAt off).getD srcHost) none off
  | .vf pn => s.partErr pn 1 st off

/-- The BAR0 offset of the PF at which a side finds a register at an offset of its own. -/
def srcBase : Src → Nat
  | .pf => 0
  | .vf pn => 0x2000000 + pn.val * 0x1000

/-- The register that a side finds at an aligned offset. -/
def srcReg (src : Src) (off : Nat) : Option RegRow :=
  match src with
  | .pf => (regAt off).map (·.2.2)
  | .vf _ => if off < 0x1000 then (regAt (srcBase src + off)).map (·.2.2) else none

/-- What else of a BAR0 an offset reaches: the MSI-X table or the pending-bit array. -/
def srcMsix (src : Src) (off : Nat) : Option (Bool × Nat) :=
  let (t, n, p) := match src with
    | .pf => (0x3F00000, 1024, 0x3F80000)
    | .vf _ => (0x8000, 256, 0x9000)
  if t ≤ off && off < t + n then some (true, off - t) else if p ≤ off && off < p + 8 then some (false, off - p) else none

/-- A 32-bit write of a side. -/
def State.write32 (s : State) (src : Src) (off v : Nat) : State :=
  match srcReg src off with
  | some r =>
    if s.gated (srcBase src + off) then s.accessErr src stDown off
    else if r.noAccess (src != .pf) then s.accessErr src stPerm off
    else s.regWrite src (srcBase src + off) v r
  | none =>
    match srcMsix src off, src with
    | some (true, o), .pf => s.pfMsix o v
    | some (true, o), .vf pn => s.vfMsix pn o v
    | some (false, _), _ => s
    | none, _ => s.accessErr src stArg off

/-- A 32-bit read of a side: the value and the state after it. -/
def State.read32 (s : State) (src : Src) (off : Nat) : Nat × State :=
  match srcReg src off with
  | some r =>
    if s.gated (srcBase src + off) then (0xFFFFFFFF, s.accessErr src stDown off)
    else s.regFetch (src != .pf) (srcBase src + off) r
  | none =>
    match srcMsix src off, src with
    | some (true, o), .pf => (msixWord s.pf.tbl o, s)
    | some (true, o), .vf pn => (msixWord (s.part pn).tbl o, s)
    | some (false, o), .pf => (pbaWord s.pf.pba o, s)
    | some (false, o), .vf pn => (pbaWord (s.part pn).pba o, s)
    | none, _ => (0, s.accessErr src stArg off)

/-- A write of 32 or 64 bits: the lower register first (R32). -/
def State.writeReg (s : State) (src : Src) (off : Nat) (wide : Bool) (v : Nat) : State :=
  let s := s.write32 src off (v % 2 ^ 32)
  if wide then s.write32 src (off + 4) (v / 2 ^ 32 % 2 ^ 32) else s

/-- A read of 32 or 64 bits. -/
def State.readReg (s : State) (src : Src) (off : Nat) (wide : Bool) : Nat × State :=
  let (a, s) := s.read32 src off
  if wide then
    let (b, s) := s.read32 src (off + 4)
    (b * 2 ^ 32 + a, s)
  else (a, s)

/-! ## Host accesses -/

/-- The offset of an access within its BAR0. -/
def srcOff (src : Src) (off : BitVec 26) : Nat := match src with | .pf => off.toNat | .vf _ => off.toNat % 0x10000

/-- A host access: a VF that answers no requests, or whose partition is FREE, turns it away (R390, R410). -/
def State.hostAccess (s : State) (src : Src) (off : Nat) (closed f : State → State) : State :=
  match src with
  | .pf => f s
  | .vf pn =>
    if !s.vfOpen pn then closed s
    else if s.pstate pn = 0 then (closed s).errLog stState srcHost (some pn) off
    else f s

/-- All-ones data. -/
def State.ones (s : State) (n : Nat) : State := s.emit (.hostData (List.replicate n 0xFF))

/-- REGISTER_WRITE. -/
def execRegisterWrite (src : Src) (off : BitVec 26) (wide : Bool) (v : BitVec 64) (s : State) :
    Host.Outcome State Fault Refusal :=
  let o := srcOff src off
  s.live (fun s => s.hostAccess src o id (fun s =>
    if o % (if wide then 8 else 4) ≠ 0 then s.accessErr src stArg o else s.writeReg src o wide v.toNat))

/-- The data of a register read leaves the device. -/
def State.sendReg (s : State) (src : Src) (off : Nat) (wide : Bool) : State :=
  let (v, s) := s.readReg src off wide
  if wide then (s.emit (.regData (BitVec.ofNat 32 v))).emit (.regData (BitVec.ofNat 32 (v / 2 ^ 32)))
  else s.emit (.regData (BitVec.ofNat 32 v))

/-- READ_CLEAR: a read of registers. -/
def execReadClear (src : Src) (off : BitVec 26) (wide : Bool) (s : State) : Host.Outcome State Fault Refusal :=
  let o := srcOff src off
  let n := if wide then 8 else 4
  s.live (fun s => s.hostAccess src o (·.ones n) (fun s =>
    if o % n ≠ 0 then (s.accessErr src stArg o).ones n else s.sendReg src o wide))

/-- A 32-bit access at an offset is in error: nothing stands there, or its block is gated (R36). -/
def State.halfBad (s : State) (src : Src) (off : Nat) : Bool :=
  match srcReg src off with
  | some _ => s.gated (srcBase src + off)
  | none => (srcMsix src off).isNone

/-- A host access that may be in error: one that is not whole and aligned, or one with an erroneous half. One that is neither is
no such access. A 64-bit access is two 32-bit ones, each with its own record and value: R36 does not say so (DESIGN CHOICE,
assumption 41). -/
def State.errorAccess (s : State) (src : Src) (off n : Nat) (wr : Bool) : State :=
  if (n = 4 || n = 8) && off % n = 0 then
    let halves := if n = 8 then [off, off + 4] else [off]
    if !halves.any (s.halfBad src) then s
    else if wr then halves.foldl (fun (s : State) o => if s.halfBad src o then s.write32 src o 0 else s) s
    else s.sendReg src off (n == 8)
  else
    let s := s.accessErr src stArg off
    if wr then s else s.ones n

/-- HOST_BAR_ERROR_ACCESS. -/
def execHostBarErrorAccess (src : Src) (off : BitVec 26) (write : Bool) (len : BitVec 4) (s : State) :
    Host.Outcome State Fault Refusal :=
  let o := srcOff src off
  s.live (fun s => s.hostAccess src o (fun s => if write then s else s.ones len.toNat)
    (fun s => s.errorAccess src o len.toNat write))

/-! ## PF BAR2 (R34) -/

/-- A request of `n` bytes at an HBM address: served by `f`, or refused whole, with what a refusal answers. -/
def State.bar2 (s : State) (a n : Nat) (refused f : State → State) : State :=
  if 0x1000 < a % 0x1000 + n then s
  else
    match s.owner (a / 0x200000) with
    | some pn => (refused s).errLog stPerm srcHost (some pn) a
    | none => if s.keyPage a then ((refused s).count SEC_PERMFAIL 1).errLog stPerm srcHost none a else f s

/-- HOST_BAR2_READ. -/
def execHostBar2Read (addr : BitVec 35) (len : BitVec 13) (s : State) : Host.Outcome State Fault Refusal :=
  s.live (fun s => s.bar2 addr.toNat len.toNat (·.ones len.toNat)
    (fun s => s.emit (.hostData (s.hbmRead addr.toNat len.toNat))))

/-- HOST_BAR2_WRITE. -/
def execHostBar2Write (addr : BitVec 35) (data : List (BitVec 8)) (s : State) : Host.Outcome State Fault Refusal :=
  s.live (fun s => s.bar2 addr.toNat data.length id (fun s => s.agentWrite addr.toNat data))

/-! ## The Ridgepole (R25) -/

/-- STOP_LINK_FAILURE: the stop position is recorded and the device holds itself as the failure of a non-redundant unit demands.
The status of the entry, and UNIT and DETAIL of the run-time fault code, have no stated value: they are free (assumption 2). -/
def execStopLinkFailure (pos : Fin 26) (s : State) : Host.Outcome State Fault Refusal :=
  s.live (fun s =>
    let (i, s) := s.draw
    let w := (Config.freeWord i).toNat
    (s.errLog (w % 16) srcRidge none pos.val).fatal (0x6000 + w / 16 % 0x1000))

end Sys2Proof.Machine
end

