-- ==== Sys2Proof/Machine/Alu.lean ====
section
/-! DEFINITION. The integer operations: ALU (R192 to R195), immediates (R196), shifts (R197), wide forms (R198), CSEL (R199). -/

namespace Sys2Proof.Machine

/-! ## Shared forms -/

/-- An operation of `n` bytes that writes `f` of the context to `rd` and nothing else. -/
def State.alu (s : State) (k : CoreNo) (n : Nat) (rd : Gr) (f : Arch → Word) : Host.Outcome State Fault Refusal :=
  s.instrArch k n (fun a => (a.setGr rd.val (f a), .seq))

/-- An operation that writes a result to `rd` and flags. -/
def State.aluF (s : State) (k : CoreNo) (n : Nat) (rd : Nat) (f : Arch → Word × Flg) : Host.Outcome State Fault Refusal :=
  s.instrArch k n (fun a => let (r, g) := f a; ((a.setGr rd r).setFlg g, .seq))

/-- A saturating operation: the exact result, clipped, goes to `rd`; SAT is set when it clips (R194). -/
def State.aluS (s : State) (k : CoreNo) (rd : Gr) (f : Arch → Int) : Host.Outcome State Fault Refusal :=
  s.instrArch k 4 (fun a => ((a.setGr rd.val (BitVec.ofInt 64 (clip 64 (f a)))).saturate (outside 64 (f a)), .seq))

/-- A trapping operation: INT_OVERFLOW where the exact result leaves the signed range and CTL.OVT = 1 (R194, R218). -/
def State.aluT (s : State) (k : CoreNo) (rd : Gr) (f : Arch → Int) : Host.Outcome State Fault Refusal :=
  s.instrArch k 4 (fun a =>
    if a.ctl 1 && outside 64 (f a) then (a, .trap tOverflow 0) else (a.setGr rd.val (BitVec.ofInt 64 (f a)), .seq))

/-- One or zero. -/
def flagW (b : Bool) : Word := if b then 1 else 0

/-- The leading zeros of a word, counted from bit `n - 1` down. -/
def clzFrom (w : Word) : Nat → Nat
  | 0 => 0
  | n + 1 => if w.getLsbD n then 0 else 1 + clzFrom w n

/-- The trailing zeros of a word: of the `n` bits from bit `i` on. -/
def ctzFrom (w : Word) (i : Nat) : Nat → Nat
  | 0 => 0
  | n + 1 => if w.getLsbD i then 0 else 1 + ctzFrom w (i + 1) n

/-- The set bits among the low `n` of a word. -/
def popFrom (w : Word) : Nat → Nat
  | 0 => 0
  | n + 1 => b2n (w.getLsbD n) + popFrom w n

/-- The amount of a register shift: rb[5:0] (R197). -/
def shAmt (w : Word) : Nat := w.toNat % 64

/-! ## ALU operations (R192) -/

/-- ADD. -/
def execAdd (k : CoreNo) (rd ra rb : Gr) (s : State) : Host.Outcome State Fault Refusal :=
  s.alu k 4 rd (fun a => a.gr ra + a.gr rb)
/-- ADDF. -/
def execAddf (k : CoreNo) (rd ra rb : Gr) (s : State) : Host.Outcome State Fault Refusal :=
  s.aluF k 4 rd (fun a => (a.gr ra + a.gr rb, a.flg.add (a.gr ra) (a.gr rb) false))
/-- SUB. -/
def execSub (k : CoreNo) (rd ra rb : Gr) (s : State) : Host.Outcome State Fault Refusal :=
  s.alu k 4 rd (fun a => a.gr ra - a.gr rb)
/-- SUBF. -/
def execSubf (k : CoreNo) (rd ra rb : Gr) (s : State) : Host.Outcome State Fault Refusal :=
  s.aluF k 4 rd (fun a => (a.gr ra - a.gr rb, a.flg.sub (a.gr ra) (a.gr rb) false))
/-- ADDS. -/
def execAdds (k : CoreNo) (rd ra rb : Gr) (s : State) : Host.Outcome State Fault Refusal :=
  s.aluS k rd (fun a => (a.gr ra).toInt + (a.gr rb).toInt)
/-- SUBS. -/
def execSubs (k : CoreNo) (rd ra rb : Gr) (s : State) : Host.Outcome State Fault Refusal :=
  s.aluS k rd (fun a => (a.gr ra).toInt - (a.gr rb).toInt)
/-- ADDT. -/
def execAddt (k : CoreNo) (rd ra rb : Gr) (s : State) : Host.Outcome State Fault Refusal :=
  s.aluT k rd (fun a => (a.gr ra).toInt + (a.gr rb).toInt)
/-- SUBT. -/
def execSubt (k : CoreNo) (rd ra rb : Gr) (s : State) : Host.Outcome State Fault Refusal :=
  s.aluT k rd (fun a => (a.gr ra).toInt - (a.gr rb).toInt)
/-- ABS: |ra| modulo 2^64. -/
def execAbs (k : CoreNo) (rd ra : Gr) (s : State) : Host.Outcome State Fault Refusal :=
  s.alu k 4 rd (fun a => if (a.gr ra).msb then 0 - a.gr ra else a.gr ra)
/-- ABSS. -/
def execAbss (k : CoreNo) (rd ra : Gr) (s : State) : Host.Outcome State Fault Refusal :=
  s.aluS k rd (fun a => ((a.gr ra).toInt.natAbs : Int))
/-- MIN. -/
def execMin (k : CoreNo) (rd ra rb : Gr) (s : State) : Host.Outcome State Fault Refusal :=
  s.alu k 4 rd (fun a => if (a.gr ra).toInt ≤ (a.gr rb).toInt then a.gr ra else a.gr rb)
/-- MAX. -/
def execMax (k : CoreNo) (rd ra rb : Gr) (s : State) : Host.Outcome State Fault Refusal :=
  s.alu k 4 rd (fun a => if (a.gr ra).toInt ≤ (a.gr rb).toInt then a.gr rb else a.gr ra)
/-- MINU. -/
def execMinu (k : CoreNo) (rd ra rb : Gr) (s : State) : Host.Outcome State Fault Refusal :=
  s.alu k 4 rd (fun a => if (a.gr ra).toNat ≤ (a.gr rb).toNat then a.gr ra else a.gr rb)
/-- MAXU. -/
def execMaxu (k : CoreNo) (rd ra rb : Gr) (s : State) : Host.Outcome State Fault Refusal :=
  s.alu k 4 rd (fun a => if (a.gr ra).toNat ≤ (a.gr rb).toNat then a.gr rb else a.gr ra)
/-- ADC. -/
def execAdc (k : CoreNo) (rd ra rb : Gr) (s : State) : Host.Outcome State Fault Refusal :=
  s.aluF k 4 rd (fun a =>
    (a.gr ra + a.gr rb + BitVec.ofNat 64 (b2n a.flg.c), a.flg.add (a.gr ra) (a.gr rb) a.flg.c))
/-- SBC. -/
def execSbc (k : CoreNo) (rd ra rb : Gr) (s : State) : Host.Outcome State Fault Refusal :=
  s.aluF k 4 rd (fun a =>
    (a.gr ra - a.gr rb - BitVec.ofNat 64 (b2n (!a.flg.c)), a.flg.sub (a.gr ra) (a.gr rb) (!a.flg.c)))
/-- AND. -/
def execAnd (k : CoreNo) (rd ra rb : Gr) (s : State) : Host.Outcome State Fault Refusal :=
  s.alu k 4 rd (fun a => a.gr ra &&& a.gr rb)
/-- OR. -/
def execOr (k : CoreNo) (rd ra rb : Gr) (s : State) : Host.Outcome State Fault Refusal :=
  s.alu k 4 rd (fun a => a.gr ra ||| a.gr rb)
/-- XOR. -/
def execXor (k : CoreNo) (rd ra rb : Gr) (s : State) : Host.Outcome State Fault Refusal :=
  s.alu k 4 rd (fun a => a.gr ra ^^^ a.gr rb)
/-- ANDN: ra and not rb. -/
def execAndn (k : CoreNo) (rd ra rb : Gr) (s : State) : Host.Outcome State Fault Refusal :=
  s.alu k 4 rd (fun a => a.gr ra &&& ~~~a.gr rb)
/-- ORN: ra or not rb. -/
def execOrn (k : CoreNo) (rd ra rb : Gr) (s : State) : Host.Outcome State Fault Refusal :=
  s.alu k 4 rd (fun a => a.gr ra ||| ~~~a.gr rb)
/-- XNOR. -/
def execXnor (k : CoreNo) (rd ra rb : Gr) (s : State) : Host.Outcome State Fault Refusal :=
  s.alu k 4 rd (fun a => ~~~(a.gr ra ^^^ a.gr rb))
/-- CLZ. -/
def execClz (k : CoreNo) (rd ra : Gr) (s : State) : Host.Outcome State Fault Refusal :=
  s.alu k 4 rd (fun a => BitVec.ofNat 64 (clzFrom (a.gr ra) 64))
/-- CTZ. -/
def execCtz (k : CoreNo) (rd ra : Gr) (s : State) : Host.Outcome State Fault Refusal :=
  s.alu k 4 rd (fun a => BitVec.ofNat 64 (ctzFrom (a.gr ra) 0 64))
/-- POPC. -/
def execPopc (k : CoreNo) (rd ra : Gr) (s : State) : Host.Outcome State Fault Refusal :=
  s.alu k 4 rd (fun a => BitVec.ofNat 64 (popFrom (a.gr ra) 64))
/-- SLL. -/
def execSll (k : CoreNo) (rd ra rb : Gr) (s : State) : Host.Outcome State Fault Refusal :=
  s.alu k 4 rd (fun a => a.gr ra <<< shAmt (a.gr rb))
/-- SRL. -/
def execSrl (k : CoreNo) (rd ra rb : Gr) (s : State) : Host.Outcome State Fault Refusal :=
  s.alu k 4 rd (fun a => a.gr ra >>> shAmt (a.gr rb))
/-- SRA. -/
def execSra (k : CoreNo) (rd ra rb : Gr) (s : State) : Host.Outcome State Fault Refusal :=
  s.alu k 4 rd (fun a => (a.gr ra).sshiftRight (shAmt (a.gr rb)))
/-- ROR. -/
def execRor (k : CoreNo) (rd ra rb : Gr) (s : State) : Host.Outcome State Fault Refusal :=
  s.alu k 4 rd (fun a => (a.gr ra).rotateRight (shAmt (a.gr rb)))
/-- SLT. -/
def execSlt (k : CoreNo) (rd ra rb : Gr) (s : State) : Host.Outcome State Fault Refusal :=
  s.alu k 4 rd (fun a => flagW (a.gr ra |>.slt (a.gr rb)))
/-- SLTU. -/
def execSltu (k : CoreNo) (rd ra rb : Gr) (s : State) : Host.Outcome State Fault Refusal :=
  s.alu k 4 rd (fun a => flagW (a.gr ra |>.ult (a.gr rb)))
/-- SEXTB. -/
def execSextb (k : CoreNo) (rd ra : Gr) (s : State) : Host.Outcome State Fault Refusal :=
  s.alu k 4 rd (fun a => sextW ((a.gr ra).truncate 8))
/-- SEXTH. -/
def execSexth (k : CoreNo) (rd ra : Gr) (s : State) : Host.Outcome State Fault Refusal :=
  s.alu k 4 rd (fun a => sextW ((a.gr ra).truncate 16))
/-- SEXTW. -/
def execSextw (k : CoreNo) (rd ra : Gr) (s : State) : Host.Outcome State Fault Refusal :=
  s.alu k 4 rd (fun a => sextW ((a.gr ra).truncate 32))
/-- ZEXTB. -/
def execZextb (k : CoreNo) (rd ra : Gr) (s : State) : Host.Outcome State Fault Refusal :=
  s.alu k 4 rd (fun a => zextW ((a.gr ra).truncate 8))
/-- ZEXTH. -/
def execZexth (k : CoreNo) (rd ra : Gr) (s : State) : Host.Outcome State Fault Refusal :=
  s.alu k 4 rd (fun a => zextW ((a.gr ra).truncate 16))
/-- ZEXTW. -/
def execZextw (k : CoreNo) (rd ra : Gr) (s : State) : Host.Outcome State Fault Refusal :=
  s.alu k 4 rd (fun a => zextW ((a.gr ra).truncate 32))
/-- CSEL (R199). -/
def execCsel (k : CoreNo) (rd ra rb : Gr) (cond : BitVec 4) (s : State) : Host.Outcome State Fault Refusal :=
  s.alu k 4 rd (fun a => if a.flg.cond cond then a.gr ra else a.gr rb)

/-! ## Immediate operations (R196) -/

/-- ADDI. -/
def execAddi (k : CoreNo) (rd ra : Gr) (imm : BitVec 16) (s : State) : Host.Outcome State Fault Refusal :=
  s.alu k 4 rd (fun a => a.gr ra + sextW imm)
/-- ADDIF. -/
def execAddif (k : CoreNo) (rd ra : Gr) (imm : BitVec 16) (s : State) : Host.Outcome State Fault Refusal :=
  s.aluF k 4 rd (fun a => (a.gr ra + sextW imm, a.flg.add (a.gr ra) (sextW imm) false))
/-- ANDI. -/
def execAndi (k : CoreNo) (rd ra : Gr) (imm : BitVec 16) (s : State) : Host.Outcome State Fault Refusal :=
  s.alu k 4 rd (fun a => a.gr ra &&& zextW imm)
/-- ORI. -/
def execOri (k : CoreNo) (rd ra : Gr) (imm : BitVec 16) (s : State) : Host.Outcome State Fault Refusal :=
  s.alu k 4 rd (fun a => a.gr ra ||| zextW imm)
/-- XORI. -/
def execXori (k : CoreNo) (rd ra : Gr) (imm : BitVec 16) (s : State) : Host.Outcome State Fault Refusal :=
  s.alu k 4 rd (fun a => a.gr ra ^^^ zextW imm)
/-- LUI. -/
def execLui (k : CoreNo) (rd : Gr) (imm : BitVec 16) (s : State) : Host.Outcome State Fault Refusal :=
  s.alu k 4 rd (fun _ => sextW imm <<< 16)
/-- CMPI. -/
def execCmpi (k : CoreNo) (ra : Gr) (imm : BitVec 16) (s : State) : Host.Outcome State Fault Refusal :=
  s.aluF k 4 0 (fun a => (0, a.flg.sub (a.gr ra) (sextW imm) false))
/-- SLTI. -/
def execSlti (k : CoreNo) (rd ra : Gr) (imm : BitVec 16) (s : State) : Host.Outcome State Fault Refusal :=
  s.alu k 4 rd (fun a => flagW (a.gr ra |>.slt (sextW imm)))
/-- SLTIU. -/
def execSltiu (k : CoreNo) (rd ra : Gr) (imm : BitVec 16) (s : State) : Host.Outcome State Fault Refusal :=
  s.alu k 4 rd (fun a => flagW (a.gr ra |>.ult (sextW imm)))

/-! ## Immediate shifts (R197) -/

/-- SHI with KIND 0b00. -/
def execShiSll (k : CoreNo) (rd ra : Gr) (sh : BitVec 6) (s : State) : Host.Outcome State Fault Refusal :=
  s.alu k 4 rd (fun a => a.gr ra <<< sh.toNat)
/-- SHI with KIND 0b01. -/
def execShiSrl (k : CoreNo) (rd ra : Gr) (sh : BitVec 6) (s : State) : Host.Outcome State Fault Refusal :=
  s.alu k 4 rd (fun a => a.gr ra >>> sh.toNat)
/-- SHI with KIND 0b10. -/
def execShiSra (k : CoreNo) (rd ra : Gr) (sh : BitVec 6) (s : State) : Host.Outcome State Fault Refusal :=
  s.alu k 4 rd (fun a => (a.gr ra).sshiftRight sh.toNat)
/-- SHI with KIND 0b11. -/
def execShiRor (k : CoreNo) (rd ra : Gr) (sh : BitVec 6) (s : State) : Host.Outcome State Fault Refusal :=
  s.alu k 4 rd (fun a => (a.gr ra).rotateRight sh.toNat)

/-! ## Wide operations (R198) -/

/-- ADDIW. -/
def execAddiw (k : CoreNo) (rd ra : Gr) (imm : BitVec 32) (s : State) : Host.Outcome State Fault Refusal :=
  s.alu k 8 rd (fun a => a.gr ra + sextW imm)
/-- INSHW. -/
def execInshw (k : CoreNo) (rd ra : Gr) (imm : BitVec 32) (s : State) : Host.Outcome State Fault Refusal :=
  s.alu k 8 rd (fun a => imm ++ (a.gr ra).truncate 32)
/-- ANDIW. -/
def execAndiw (k : CoreNo) (rd ra : Gr) (imm : BitVec 32) (s : State) : Host.Outcome State Fault Refusal :=
  s.alu k 8 rd (fun a => a.gr ra &&& sextW imm)
/-- ORIW. -/
def execOriw (k : CoreNo) (rd ra : Gr) (imm : BitVec 32) (s : State) : Host.Outcome State Fault Refusal :=
  s.alu k 8 rd (fun a => a.gr ra ||| zextW imm)
/-- XORIW. -/
def execXoriw (k : CoreNo) (rd ra : Gr) (imm : BitVec 32) (s : State) : Host.Outcome State Fault Refusal :=
  s.alu k 8 rd (fun a => a.gr ra ^^^ zextW imm)
/-- CMPIW. -/
def execCmpiw (k : CoreNo) (ra : Gr) (imm : BitVec 32) (s : State) : Host.Outcome State Fault Refusal :=
  s.aluF k 8 0 (fun a => (0, a.flg.sub (a.gr ra) (sextW imm) false))

end Sys2Proof.Machine
end

