-- ==== Sys2Proof/Machine/Branch.lean ====
section
/-! DEFINITION. Control transfers (R200, R201) and loop set-up (R162, R202). -/

namespace Sys2Proof.Machine

/-- The target of a branch: a + 4 × the sign-extended offset, as a 48-bit address (R200). -/
def Arch.target {w : Nat} (a : Arch) (ofs : BitVec w) : Nat := (a.pc + 4 * ofs.signExtend 48).toNat

/-- The address of the instruction after one of 4 bytes, as the link register receives it. -/
def Arch.link (a : Arch) : Word := BitVec.ofNat 64 (a.pc + 4).toNat

/-- A branch taken where a condition on the context holds. -/
def State.branch (s : State) (k : CoreNo) {w : Nat} (taken : Arch → Bool) (ofs : BitVec w) : Host.Outcome State Fault Refusal :=
  s.instrArch k 4 (fun a => (a, if taken a then .jump (a.target ofs) else .seq))

/-- A jump to a register, which traps MISALIGNED where bits [1:0] of its target are not zero (R201). -/
def State.jumpReg (s : State) (k : CoreNo) (ra : Gr) (link : Bool) : Host.Outcome State Fault Refusal :=
  s.instrArch k 4 (fun a =>
    let t := a.gr ra
    if t.toNat % 4 ≠ 0 then (a, .trap tMisaligned t)
    else (if link then a.setGr 31 a.link else a, .jump (t.toNat % 2 ^ 48)))

/-- The set-up of a loop level with body end `e` and count `n`, from an instruction of 4 bytes (R162). -/
def Arch.loopSet (a : Arch) (e n : Nat) : Arch × Ends :=
  let d := a.depth
  let start := a.pc.toNat + 4
  if 4 ≤ d then (a, .trap tLoopDepth 0)
  else if e ≤ start || (1 ≤ d && a.lpe (d - 1) < e) then (a, .trap tLoopRange (BitVec.ofNat 64 e))
  else if n = 0 then (a, .skip e)
  else
    ((((a.setCsrv (0x010 + d) (BitVec.ofNat 64 start)).setCsrv (0x014 + d) (BitVec.ofNat 64 e)).setLpc d n).setDepth (d + 1),
      .seq)

/-- BR. -/
def execBr (k : CoreNo) (ofs : BitVec 26) (s : State) : Host.Outcome State Fault Refusal := s.branch k (fun _ => true) ofs
/-- BL. -/
def execBl (k : CoreNo) (ofs : BitVec 26) (s : State) : Host.Outcome State Fault Refusal :=
  s.instrArch k 4 (fun a => (a.setGr 31 a.link, .jump (a.target ofs)))
/-- BCC. -/
def execBcc (k : CoreNo) (cond : BitVec 4) (ofs : BitVec 22) (s : State) : Host.Outcome State Fault Refusal :=
  s.branch k (fun a => a.flg.cond cond) ofs
/-- CBZ. -/
def execCbz (k : CoreNo) (ra : Gr) (ofs : BitVec 21) (s : State) : Host.Outcome State Fault Refusal :=
  s.branch k (fun a => a.gr ra == 0) ofs
/-- CBNZ. -/
def execCbnz (k : CoreNo) (ra : Gr) (ofs : BitVec 21) (s : State) : Host.Outcome State Fault Refusal :=
  s.branch k (fun a => a.gr ra != 0) ofs
/-- JR. -/
def execJr (k : CoreNo) (ra : Gr) (s : State) : Host.Outcome State Fault Refusal := s.jumpReg k ra false
/-- JLR. -/
def execJlr (k : CoreNo) (ra : Gr) (s : State) : Host.Outcome State Fault Refusal := s.jumpReg k ra true
/-- LOOP. -/
def execLoop (k : CoreNo) (rc : Gr) (uofs : BitVec 16) (s : State) : Host.Outcome State Fault Refusal :=
  s.instrArch k 4 (fun a => a.loopSet ((a.pc.toNat + 4 * uofs.toNat) % 2 ^ 48) ((a.gr rc).toNat % 2 ^ 32))
/-- LOOPI. -/
def execLoopi (k : CoreNo) (count : BitVec 14) (uofs : BitVec 12) (s : State) : Host.Outcome State Fault Refusal :=
  s.instrArch k 4 (fun a => a.loopSet ((a.pc.toNat + 4 * uofs.toNat) % 2 ^ 48) count.toNat)

end Sys2Proof.Machine
end

