-- ==== Sys2Proof/Machine/Mem.lean ====
section
/-! DEFINITION. Loads, stores, atomics, cache operations and fences (R203 to R213), the drain of the store buffer (R257), device
timeouts (R263, R264). -/

namespace Sys2Proof.Machine

/-! ## Device-region accesses -/

/-- The side and BAR0 offset at which a device-region address of the partition `pn` finds registers; none for the local memory of
another core (R27, R31). -/
def devTarget (pa pn : Nat) : Option (Src × Nat) :=
  match region pa with
  | .dev => some (.pf, pa - 0xF000000000)
  | .window => some (.vf (Fin.ofNat 2048 pn), pa - 0xF800000000)
  | _ => none

/-- The core whose local memory an address of the per-core alias names. -/
def aliasCore (pa : Nat) : Nat := (pa - 0xE100000000) / 0x10000

/-- `n` bytes of local memory, as a number. -/
def CoreSt.localRead (c : CoreSt) (o : Nat) : Nat → Nat
  | 0 => 0
  | n + 1 => (c.localByte o).toNat + 256 * CoreSt.localRead c (o + 1) n

/-- A device-region read of `n` bytes by core `k`: the value and the state after it (R208, R259). -/
def State.devRead (s : State) (k pa n : Nat) : Nat × State :=
  match devTarget pa (s.core k).pn with
  | some (src, off) => s.readReg src off (n == 8)
  | none => ((s.core (s.coreKey (aliasCore pa))).localRead (pa % 0x10000) n, s)

/-- A debugger's write to the main copy of a halted lockstep pair enters the replay queue of 64 entries (R296). -/
def State.debugWrite (s : State) (pp : Nat) : State :=
  if !s.fbit (PAI_DBG_ST pp) 1 || s.isSplit pp then s
  else if s.fget (PAI_DBG_ST pp) 8 7 < 64 then s.fset (PAI_DBG_ST pp) 8 7 (s.fget (PAI_DBG_ST pp) 8 7 + 1)
  else s.fset (PAI_DBG_ST pp) 3 1 1

/-- A device-region write of `n` bytes by a store of the partition `pn`. -/
def State.devWrite (s : State) (pa pn n v : Nat) : State :=
  match devTarget pa pn with
  | some (src, off) => s.writeReg src off (n == 8) v
  | none =>
    let j := s.coreKey (aliasCore pa)
    (s.setCore j ((s.core j).putStore (pa % 0x10000) ((leBytes n v).map some))).debugWrite (j / 2)

/-- The target of a device-region address is gated. -/
def State.devGone (s : State) (pa : Nat) : Bool :=
  match region pa with
  | .dev => s.gated (pa - 0xF000000000)
  | .core j => s.localGone j
  | _ => false

/-! ## The store buffer (R257, R264) -/

/-- The SRC of the block that holds a device-region address. -/
def devSrc (pa : Nat) : Nat :=
  match region pa with
  | .dev => (blockAt (pa - 0xF000000000)).getD srcHost
  | .window => srcPrt
  | _ => srcMem

/-- A device-region store of core `k` reaches its target, or is dropped where that is gated. One that starts a change of a core's L1
configuration is acknowledged when the change ends (R247). -/
def State.deviceStore (s : State) (k : Nat) (st : Store) : State :=
  if s.devGone st.pa then (s.storeDropped k st 2).errLog stDown (devSrc st.pa) none st.pa
  else
    let s := s.devWrite st.pa st.pn st.bytes.length (ofLe (st.bytes.map (·.getD 0)))
    match region st.pa with
    | .dev => if 0xF000088000 ≤ st.pa && st.pa < 0xF00008A880 then s.changeBy k ((st.pa - 0xF000088000) / 0x40) else s
    | _ => s

/-- The oldest entry of the store buffer of core `k` drains. -/
def State.drainOne (s : State) (k : Nat) : State :=
  match (s.core k).sb with
  | [] => s
  | st :: rest =>
    let s := s.setCore k { s.core k with sb := rest }
    if st.ty = .device then s.deviceStore k st else s.applyStore k st

/-- Up to `n` entries drain, in order. -/
def State.drain : Nat → State → Nat → State
  | 0, s, _ => s
  | n + 1, s, k => if s.hold.isSome then s else State.drain n (s.drainOne k) k

/-- Every older instruction commits and every older store takes effect (R209, R212). -/
def State.flushQueues (s : State) (k : Nat) : State :=
  let s := State.drain 16 (s.commitAll k) k
  State.drain 16 (s.commitAll k) k

/-- An access that leaves the pair once every older instruction has committed: a group of its own (R209, R273). A store that
drains before it may have stopped the core, which then does not execute it. -/
def State.external (s : State) (k : Nat) (f : State → State × Ends) : State × Ends :=
  let s := s.flushQueues k
  if s.hold.isSome || !s.issues k then (s, .stall) else f (s.ownGroup k)

/-- The store buffer of a pair domain drains (R266): in IDLE and DOZE it keeps its entries, unless an entry into BIVOUAC waits for
them. -/
def State.drains (s : State) (pp : Nat) : Bool :=
  !(s.dstate pp == 1 || s.dstate pp == 2) || (s.dphase pp == 1 && (s.dom pp).aim == 3)

/-- STORE_DRAIN. -/
def execStoreDrain (k : CoreNo) (s : State) : Host.Outcome State Fault Refusal :=
  s.live (fun s => if s.drains (k.val / 2) then s.drainOne k else s)

/-- The register block that a device-region address reaches, by its first offset; a core's local memory counts as one. -/
def devBlock (pa : Nat) : Nat :=
  match region pa with
  | .dev =>
    match blocks.find? (fun b => b.1 ≤ pa - 0xF000000000 && pa - 0xF000000000 < b.1 + b.2.1) with
    | some b => b.1
    | none => 0
  | .window => 0x2000000
  | _ => 2 ^ 32 + aliasCore pa

/-- A device-region store times out (R263): it is dropped, and with it every younger one to the same block, dropped while V = 1
(R267). -/
def State.storeTimeout (s : State) (k : Nat) : State :=
  match (s.core k).sb with
  | [] => s
  | st :: rest =>
    if st.ty ≠ .device then s
    else
      let dead (x : Store) : Bool := x.ty == .device && devBlock x.pa == devBlock st.pa
      let s := (s.setCore k { s.core k with sb := rest.filter (fun x => !dead x) }).storeDropped k st 1
      let n := (rest.filter dead).length
      if n = 0 then s else (s.count (MEM_C_SECNT k) n).fset (MEM_C_SERR_HI k) 30 1 1

/-- DEVICE_STORE_TIMEOUT. -/
def execDeviceStoreTimeout (k : CoreNo) (s : State) : Host.Outcome State Fault Refusal := s.live (·.storeTimeout k)

/-! ## Loads and stores (R203 to R205) -/

/-- A load's bytes all come from one queued store (R258). -/
def State.forwarded (s : State) (k : Nat) (ty : MemTy) (a n : Nat) : Bool := (s.core k).overlap ty a n == .all

/-- The line of a cacheable access is brought in: to the L1D, whose fill is a data input, or with L1DEN = 0 to the L2 alone (R247,
R251, R271). -/
def State.loadLine (s : State) (k a : Nat) : State :=
  let line := a / 64
  if s.l1den k then
    if (tabFind (s.core k).l1d line).isSome then s
    else
      let s := s.gets k line
      if s.cohPoison (k / 18) line then s
      else
        let s := s.l1dInstall k line false
        s.setCore k ((s.core k).input (.line line (s.lineData (k / 18) line)))
  else s.l2Fetch (k / 18) line

/-- Load data comes from outside the pair (R271): from a device region, uncached memory, or the L2 home where the core has no L1D. -/
def State.outside (s : State) (k : Nat) (ty : MemTy) : Bool :=
  match ty with
  | .loc => false
  | .cacheable => !s.l1den k
  | _ => true

/-- A load of core `k` from memory that is not a device region: a trap on poison, or the value. -/
def State.loadMem (s : State) (k : Nat) (ty : MemTy) (a n : Nat) : Option Nat × State :=
  if s.forwarded k ty a n then (some (s.seen k ty a n), s)
  else
    let s := if ty = .cacheable then s.loadLine k a else s
    if s.poisoned k ty a then (none, s.poisonLog a) else (some (s.seen k ty a n), s)

/-- The context after a load: rd, and the base register where AM says so. -/
def Arch.loaded (a : Arch) (r : Nat) (m : MemOp) (sz : LdSize) (v : Nat) : Arch :=
  (a.memBase m (LdSize.bytes sz)).setGr r (LdSize.extend sz v)

/-- A load. One that an earlier store overlaps only in part waits until that has drained (R258). -/
def State.load (s : State) (k : CoreNo) (i : Instr) (r : Gr) (m : MemOp) (sz : LdSize) : Host.Outcome State Fault Refusal :=
  s.instrState k 4 (fun s =>
    let va := (s.core k).arch.memAddr m (LdSize.bytes sz)
    let put (s : State) (v : Nat) : State × Ends :=
      let c := s.core k
      (s.setCore k { c with arch := c.arch.loaded r m sz v }, .seq)
    if !memLoadOk m r then (s, .trap tIllegal (firstWord i))
    else
      match s.check k .read va.toNat (LdSize.bytes sz) with
      | .trap c s' => (s', .trap c va)
      | .ok .device pa =>
        (s.tlbFill k va.toNat).external k (fun s =>
          let (v, s) := s.devRead k pa (LdSize.bytes sz)
          put (s.sampled k (BitVec.ofNat 64 v)) v)
      | .ok ty pa =>
        let s := s.tlbFill k va.toNat
        if (s.core k).overlap ty pa (LdSize.bytes sz) = .part then (s, .stall)
        else
          match s.loadMem k ty pa (LdSize.bytes sz) with
          | (some v, t) => put (if s.outside k ty && !s.forwarded k ty pa (LdSize.bytes sz) then t.sampled k (BitVec.ofNat 64 v) else t) v
          | (none, t) => (t, .trap tAccess va))

/-- A store of `n` bytes: it enters the pre-commit queue. -/
def State.store (s : State) (k : CoreNo) (i : Instr) (r : Gr) (m : MemOp) (n : Nat) : Host.Outcome State Fault Refusal :=
  s.instrState k 4 (fun s =>
    let a := (s.core k).arch
    let va := a.memAddr m n
    if !memOk m then (s, .trap tIllegal (firstWord i))
    else
      match s.check k .write va.toNat n with
      | .trap c s' => (s', .trap c va)
      | .ok ty pa =>
        let s := s.tlbFill k va.toNat
        match s.enqueue k (s.newStore k .data ty va.toNat pa (leBytes n (a.gr r).toNat)) with
        | none => (s, .stall)
        | some s =>
          let c := s.core k
          (s.setCore k { c with arch := c.arch.memBase m n }, .seq))

/-- LB. -/
def execLb (k : CoreNo) (r : Gr) (m : MemOp) (s : State) : Host.Outcome State Fault Refusal := s.load k (.lb k r m) r m .b
/-- LBU. -/
def execLbu (k : CoreNo) (r : Gr) (m : MemOp) (s : State) : Host.Outcome State Fault Refusal := s.load k (.lbu k r m) r m .bu
/-- LH. -/
def execLh (k : CoreNo) (r : Gr) (m : MemOp) (s : State) : Host.Outcome State Fault Refusal := s.load k (.lh k r m) r m .h
/-- LHU. -/
def execLhu (k : CoreNo) (r : Gr) (m : MemOp) (s : State) : Host.Outcome State Fault Refusal := s.load k (.lhu k r m) r m .hu
/-- LW. -/
def execLw (k : CoreNo) (r : Gr) (m : MemOp) (s : State) : Host.Outcome State Fault Refusal := s.load k (.lw k r m) r m .w
/-- LWU. -/
def execLwu (k : CoreNo) (r : Gr) (m : MemOp) (s : State) : Host.Outcome State Fault Refusal := s.load k (.lwu k r m) r m .wu
/-- LD. -/
def execLd (k : CoreNo) (r : Gr) (m : MemOp) (s : State) : Host.Outcome State Fault Refusal := s.load k (.ld k r m) r m .d
/-- SB. -/
def execSb (k : CoreNo) (r : Gr) (m : MemOp) (s : State) : Host.Outcome State Fault Refusal := s.store k (.sb k r m) r m 1
/-- SH. -/
def execSh (k : CoreNo) (r : Gr) (m : MemOp) (s : State) : Host.Outcome State Fault Refusal := s.store k (.sh k r m) r m 2
/-- SW. -/
def execSw (k : CoreNo) (r : Gr) (m : MemOp) (s : State) : Host.Outcome State Fault Refusal := s.store k (.sw k r m) r m 4
/-- SD. -/
def execSd (k : CoreNo) (r : Gr) (m : MemOp) (s : State) : Host.Outcome State Fault Refusal := s.store k (.sd k r m) r m 8

/-- DEVICE_LOAD_TIMEOUT: the device-region load of the form given traps TARGET_DOWN with rd unchanged (R264). A load of another
region is not such an event. -/
def execDeviceLoadTimeout (k : CoreNo) (m : MemOp) (sz : LdSize) (s : State) : Host.Outcome State Fault Refusal :=
  s.instrState k 4 (fun s =>
    let va := (s.core k).arch.memAddr m (LdSize.bytes sz)
    if !memOk m then (s, .stall)
    else
      match s.check k .read va.toNat (LdSize.bytes sz) with
      | .ok .device _ => (s.tlbFill k va.toNat).external k (fun s => (s, .trap tDown va))
      | _ => (s, .stall))

/-! ## Atomics (R206 to R208) -/

/-- The operations of AMO. -/
inductive AmoOp where
  | swap | add | and | or | cas
deriving DecidableEq, Repr

/-- The value an atomic of `n` bytes writes, with the operand rb cut to its size; none where CAS finds another value than rd. -/
def AmoOp.new (o : AmoOp) (n old rb rd : Nat) : Option Nat :=
  let b := rb % 2 ^ (8 * n)
  match o with
  | .swap => some b
  | .add => some ((old + b) % 2 ^ (8 * n))
  | .and => some (old &&& b)
  | .or => some (old ||| b)
  | .cas => if old = rd % 2 ^ (8 * n) then some b else none

/-- The context after an atomic: rd, and Z of a CAS. -/
def Arch.amoDone (a : Arch) (o : AmoOp) (sz : Bool) (rd : Nat) (old : Nat) (wrote : Bool) : Arch :=
  let a := a.setGr rd (if sz then BitVec.ofNat 64 old else sextW (BitVec.ofNat 32 old))
  if o = .cas then a.setFlg { a.flg with z := wrote } else a

/-- The old value of an atomic's target, and the state with the new one written (R208, R251); none where it reads poison or, in local
memory, waits: for an earlier store that overlaps it in part (R258), for room in the queue. -/
def State.amoAt (s : State) (k : Nat) (ty : MemTy) (pa va n : Nat) (new : Nat → Option Nat) : Option (Nat × State) × State :=
  match ty with
  | .loc =>
    let s := s.ownGroup k
    let old := s.seen k .loc pa n
    if (s.core k).overlap .loc pa n = .part then (none, s)
    else
    match new old with
    | none => (some (old, s), s)
    | some v => ((s.enqueue k (s.newStore k .data .loc va pa (leBytes n v))).map (fun t => (old, t)), s)
  | .device =>
    let (old, s) := s.devRead k pa n
    match new old with
    | none => (some (old, s), s)
    | some v => (some (old, s.devWrite pa (s.core k).pn n v), s)
  | ty =>
    let c := k / 18
    let s := if ty = .cacheable then s.homeTake c (pa / 64) else s
    if s.poisoned k ty pa then (none, s.poisonLog pa)
    else
      let old := ofLe (if ty = .cacheable then s.cohRead c pa n else s.hbmRead pa n)
      match new old with
      | none => (some (old, s), s)
      | some v => (some (old, if ty = .cacheable then s.homeWrite c pa (leBytes n v) else s.hbmWrite pa (leBytes n v)), s)

/-- An atomic. -/
def State.amo (s : State) (k : CoreNo) (o : AmoOp) (sz : Bool) (rd ra rb : Gr) : Host.Outcome State Fault Refusal :=
  s.instrState k 4 (fun s =>
    let a := (s.core k).arch
    let n := if sz then 8 else 4
    let va := a.gr ra
    let go (ty : MemTy) (pa : Nat) (s : State) : State × Ends :=
      let x := (s.core k).arch
      let new (old : Nat) : Option Nat := o.new n old (x.gr rb).toNat (x.gr rd).toNat
      match s.amoAt k ty pa va.toNat n new with
      | (some (old, s), _) =>
        let s := if ty = .loc then s else s.sampled k (BitVec.ofNat 64 old)
        let c := s.core k
        (s.setCore k { c with arch := c.arch.amoDone o sz rd old (new old).isSome }, .seq)
      | (none, s) => if ty = .loc then (s, .stall) else (s, .trap tAccess va)
    match s.check k .both va.toNat n with
    | .trap c s' => (s', .trap c va)
    | .ok .loc pa => go .loc pa s
    | .ok ty pa => (s.tlbFill k va.toNat).external k (go ty pa))

/-- AMOSWAP. -/
def execAmoswap (k : CoreNo) (sz : Bool) (rd ra rb : Gr) (s : State) : Host.Outcome State Fault Refusal :=
  s.amo k .swap sz rd ra rb
/-- AMOADD. -/
def execAmoadd (k : CoreNo) (sz : Bool) (rd ra rb : Gr) (s : State) : Host.Outcome State Fault Refusal :=
  s.amo k .add sz rd ra rb
/-- AMOAND. -/
def execAmoand (k : CoreNo) (sz : Bool) (rd ra rb : Gr) (s : State) : Host.Outcome State Fault Refusal :=
  s.amo k .and sz rd ra rb
/-- AMOOR. -/
def execAmoor (k : CoreNo) (sz : Bool) (rd ra rb : Gr) (s : State) : Host.Outcome State Fault Refusal :=
  s.amo k .or sz rd ra rb
/-- CAS. -/
def execCas (k : CoreNo) (sz : Bool) (rd ra rb : Gr) (s : State) : Host.Outcome State Fault Refusal :=
  s.amo k .cas sz rd ra rb

/-! ## Cache operations (R210, R211) -/

/-- The line that a cache operation names. -/
def Arch.cacheAddr (a : Arch) (ra : Nat) (imm : BitVec 16) : Word := (a.gr ra + sextW imm) &&& ~~~(63 : Word)

/-- The checks of a cache operation: INVAL is not for User, a device region takes none. -/
def State.cacheCheck (s : State) (k : Nat) (inval : Bool) (need : Need) (va : Nat) : Check :=
  let m := (s.core k).arch.mode
  if privFault m (region va) || (inval && m == .user) then .trap tPriv s
  else
    match region va with
    | .dev => .trap tAccess s
    | .window => .trap tAccess s
    | .core _ => .trap tAccess s
    | _ => s.check k need va 64

/-- A cache operation: `f` acts on a line of normal cacheable memory; ZLINE of other memory stores zeros. -/
def State.cache (s : State) (k : CoreNo) (ra : Gr) (imm : BitVec 16) (need : Need) (op : StoreOp)
    (f : State → Nat → Nat → Option State) : Host.Outcome State Fault Refusal :=
  s.instrState k 4 (fun s =>
    let va := (s.core k).arch.cacheAddr ra imm
    let done (s : Option State) (old : State) : State × Ends := match s with | some t => (t, .seq) | none => (old, .stall)
    match s.cacheCheck k (op == .inval) need va.toNat with
    | .trap c s' => (s', .trap c va)
    | .ok .cacheable pa =>
      let s := s.tlbFill k va.toNat
      done (f s va.toNat pa) s
    | .ok ty pa =>
      let s := s.tlbFill k va.toNat
      if op = .zline then done (s.enqueue k (s.newStore k .data ty va.toNat pa (List.replicate 64 0))) s else (s, .seq))

/-- A cache operation that takes effect in the order of the core's stores. -/
def State.cacheQueued (s : State) (k : Nat) (op : StoreOp) (bytes : List Byte) (va pa : Nat) : Option State :=
  s.enqueue k (s.newStore k op .cacheable va pa bytes)

/-- ZLINE. -/
def execZline (k : CoreNo) (ra : Gr) (imm : BitVec 16) (s : State) : Host.Outcome State Fault Refusal :=
  s.cache k ra imm .write .zline (fun s va pa => s.cacheQueued k .zline (List.replicate 64 0) va pa)
/-- CLEAN. -/
def execClean (k : CoreNo) (ra : Gr) (imm : BitVec 16) (s : State) : Host.Outcome State Fault Refusal :=
  s.cache k ra imm .read .clean (fun s va pa => s.cacheQueued k .clean [] va pa)
/-- INVAL. -/
def execInval (k : CoreNo) (ra : Gr) (imm : BitVec 16) (s : State) : Host.Outcome State Fault Refusal :=
  s.cache k ra imm .write .inval (fun s va pa => s.cacheQueued k .inval [] va pa)
/-- FLUSH. -/
def execFlush (k : CoreNo) (ra : Gr) (imm : BitVec 16) (s : State) : Host.Outcome State Fault Refusal :=
  s.cache k ra imm .read .flush (fun s va pa => s.cacheQueued k .flush [] va pa)
/-- IINV. -/
def execIinv (k : CoreNo) (ra : Gr) (imm : BitVec 16) (s : State) : Host.Outcome State Fault Refusal :=
  s.cache k ra imm .exec .data (fun s _ pa => some (s.iinv k (pa / 64)))

/-! ## Fences (R212) -/

/-- A fence: every earlier store and cache operation has taken effect; it ends its group (R273). -/
def State.fence (s : State) (k : CoreNo) : Host.Outcome State Fault Refusal := s.instrState k 4 (fun s => s.external k (fun s => (s, .seq)))

/-- FENCE.C: loads have returned where they stand, so its conditions hold once the queues are empty. -/
def execFenceC (k : CoreNo) (s : State) : Host.Outcome State Fault Refusal := s.fence k
/-- FENCE.L. -/
def execFenceL (k : CoreNo) (s : State) : Host.Outcome State Fault Refusal := s.fence k
/-- FENCE.S: it waits for the acknowledgement of every device-region store too. -/
def execFenceS (k : CoreNo) (s : State) : Host.Outcome State Fault Refusal :=
  s.instrState k 4 (fun s => s.external k (fun s => if s.unacked k then (s, .stall) else (s, .seq)))

end Sys2Proof.Machine
end

