-- ==== Sys2Proof/Machine/MulAcc.lean ====
section
/-! DEFINITION. Multiply (R218), divide (R220), accumulators (R221 to R224), multiply-accumulate (R225) and the wide MAC forms
with their fetches from local memory (R227 to R230). -/

namespace Sys2Proof.Machine

/-! ## Multiply and divide -/

/-- A multiply or divide that writes a part of an exact result to `rd`. -/
def State.mulOp (s : State) (k : CoreNo) (rd : Gr) (f : Arch → Int) : Host.Outcome State Fault Refusal :=
  s.instrArch k 4 (fun a => (a.setGr rd.val (BitVec.ofInt 64 (f a)), .seq))

/-- The exact product of two registers, both signed. -/
def Arch.prod (a : Arch) (ra rb : Gr) : Int := (a.gr ra).toInt * (a.gr rb).toInt

/-- MUL. -/
def execMul (k : CoreNo) (rd ra rb : Gr) (s : State) : Host.Outcome State Fault Refusal := s.mulOp k rd (fun a => a.prod ra rb)
/-- MULS: the product clipped, SAT where it clips. -/
def execMuls (k : CoreNo) (rd ra rb : Gr) (s : State) : Host.Outcome State Fault Refusal :=
  s.instrArch k 4 (fun a =>
    ((a.setGr rd.val (BitVec.ofInt 64 (clip 64 (a.prod ra rb)))).saturate (outside 64 (a.prod ra rb)), .seq))
/-- MULT: INT_OVERFLOW where the product leaves 64 bits and CTL.OVT = 1. -/
def execMult (k : CoreNo) (rd ra rb : Gr) (s : State) : Host.Outcome State Fault Refusal :=
  s.instrArch k 4 (fun a =>
    if a.ctl 1 && outside 64 (a.prod ra rb) then (a, .trap tOverflow 0)
    else (a.setGr rd.val (BitVec.ofInt 64 (a.prod ra rb)), .seq))
/-- MULH. -/
def execMulh (k : CoreNo) (rd ra rb : Gr) (s : State) : Host.Outcome State Fault Refusal :=
  s.mulOp k rd (fun a => a.prod ra rb / 2 ^ 64)
/-- MULHU. -/
def execMulhu (k : CoreNo) (rd ra rb : Gr) (s : State) : Host.Outcome State Fault Refusal :=
  s.mulOp k rd (fun a => ((a.gr ra).toNat : Int) * (a.gr rb).toNat / 2 ^ 64)
/-- MULHSU. -/
def execMulhsu (k : CoreNo) (rd ra rb : Gr) (s : State) : Host.Outcome State Fault Refusal :=
  s.mulOp k rd (fun a => (a.gr ra).toInt * (a.gr rb).toNat / 2 ^ 64)

/-- Quotient and remainder of R220, truncated toward zero. -/
def divide (a b : Int) : Int × Int := if b = 0 then (0, a) else (a.tdiv b, a - a.tdiv b * b)

/-- A divide (R220): DIV_ZERO where CTL.DZT = 1, else DZ; the signed forms write V. -/
def State.divOp (s : State) (k : CoreNo) (rd ra rb : Gr) (signed rem : Bool) : Host.Outcome State Fault Refusal :=
  s.instrArch k 4 (fun a =>
    let x : Int := if signed then (a.gr ra).toInt else (a.gr ra).toNat
    let y : Int := if signed then (a.gr rb).toInt else (a.gr rb).toNat
    if y = 0 && a.ctl 2 then (a, .trap tDivZero 0)
    else
      let (q, r) := divide x y
      let f := a.flg
      let f := if y = 0 then { f with dz := true } else f
      let f := if signed then { f with v := x == -(2 ^ 63 : Nat) && y == -1 } else f
      ((a.setGr rd.val (BitVec.ofInt 64 (if rem then r else q))).setFlg f, .seq))

/-- DIV. -/
def execDiv (k : CoreNo) (rd ra rb : Gr) (s : State) : Host.Outcome State Fault Refusal := s.divOp k rd ra rb true false
/-- DIVU. -/
def execDivu (k : CoreNo) (rd ra rb : Gr) (s : State) : Host.Outcome State Fault Refusal := s.divOp k rd ra rb false false
/-- REM. -/
def execRem (k : CoreNo) (rd ra rb : Gr) (s : State) : Host.Outcome State Fault Refusal := s.divOp k rd ra rb true true
/-- REMU. -/
def execRemu (k : CoreNo) (rd ra rb : Gr) (s : State) : Host.Outcome State Fault Refusal := s.divOp k rd ra rb false true

/-! ## Accumulators (R221, R222) -/

/-- The context after an accumulating result, exact value `t`: clipped in a saturating form, else modulo 2^96 (R221). -/
def Arch.accPut (a : Arch) (ad : Nat) (sat : Bool) (t : Int) : Arch :=
  if sat then (a.setAcc ad (BitVec.ofInt 96 (clip 96 t))).saturate (outside 96 t) else a.setAcc ad (BitVec.ofInt 96 t)

/-- An accumulator operation of `n` bytes. -/
def State.accOp (s : State) (k : CoreNo) (n : Nat) (ad : AccNo) (sat : Bool) (f : Arch → Int) : Host.Outcome State Fault Refusal :=
  s.instrArch k n (fun a => (a.accPut ad.val sat (f a), .seq))

/-- The shift amount of R222: ra[6:0]. -/
def Arch.accSh (a : Arch) (ra : Gr) : Nat := (a.gr ra).toNat % 128

/-- ACLR. -/
def execAclr (k : CoreNo) (ad : AccNo) (s : State) : Host.Outcome State Fault Refusal := s.accOp k 4 ad false (fun _ => 0)
/-- ALD. -/
def execAld (k : CoreNo) (ad : AccNo) (ra : Gr) (s : State) : Host.Outcome State Fault Refusal :=
  s.accOp k 4 ad false (fun a => (a.gr ra).toInt)
/-- AMOV. -/
def execAmov (k : CoreNo) (ad asrc : AccNo) (s : State) : Host.Outcome State Fault Refusal :=
  s.accOp k 4 ad false (fun a => (a.accv asrc).toInt)
/-- AADD. -/
def execAadd (k : CoreNo) (ad : AccNo) (ra : Gr) (s : State) : Host.Outcome State Fault Refusal :=
  s.accOp k 4 ad false (fun a => (a.accv ad).toInt + (a.gr ra).toInt)
/-- AADDS. -/
def execAadds (k : CoreNo) (ad : AccNo) (ra : Gr) (s : State) : Host.Outcome State Fault Refusal :=
  s.accOp k 4 ad true (fun a => (a.accv ad).toInt + (a.gr ra).toInt)
/-- ASUB. -/
def execAsub (k : CoreNo) (ad : AccNo) (ra : Gr) (s : State) : Host.Outcome State Fault Refusal :=
  s.accOp k 4 ad false (fun a => (a.accv ad).toInt - (a.gr ra).toInt)
/-- ASUBS. -/
def execAsubs (k : CoreNo) (ad : AccNo) (ra : Gr) (s : State) : Host.Outcome State Fault Refusal :=
  s.accOp k 4 ad true (fun a => (a.accv ad).toInt - (a.gr ra).toInt)
/-- AADDA. -/
def execAadda (k : CoreNo) (ad asrc : AccNo) (s : State) : Host.Outcome State Fault Refusal :=
  s.accOp k 4 ad false (fun a => (a.accv ad).toInt + (a.accv asrc).toInt)
/-- AADDAS. -/
def execAaddas (k : CoreNo) (ad asrc : AccNo) (s : State) : Host.Outcome State Fault Refusal :=
  s.accOp k 4 ad true (fun a => (a.accv ad).toInt + (a.accv asrc).toInt)
/-- ASRA: the floor of acc / 2^s. -/
def execAsra (k : CoreNo) (ad : AccNo) (ra : Gr) (s : State) : Host.Outcome State Fault Refusal :=
  s.accOp k 4 ad false (fun a => (a.accv ad).toInt / (2 ^ a.accSh ra : Nat))
/-- ASLL. -/
def execAsll (k : CoreNo) (ad : AccNo) (ra : Gr) (s : State) : Host.Outcome State Fault Refusal :=
  s.accOp k 4 ad false (fun a => (a.accv ad).toInt * (2 ^ a.accSh ra : Nat))
/-- ASLLS. -/
def execAslls (k : CoreNo) (ad : AccNo) (ra : Gr) (s : State) : Host.Outcome State Fault Refusal :=
  s.accOp k 4 ad true (fun a => (a.accv ad).toInt * (2 ^ a.accSh ra : Nat))

/-- acc / 2^s rounded as RND says (R223): 0 floor, 1 half toward plus infinity, 2 half to even. -/
def roundAcc (acc : Int) (s rnd : Nat) : Int :=
  let p : Int := (2 ^ s : Nat)
  if s = 0 || rnd = 0 then acc / p
  else
    let h : Int := (2 ^ (s - 1) : Nat)
    let up := (acc + h) / p
    if rnd = 1 then up else if (acc + h) % p = 0 && up % 2 = 1 then up - 1 else up

/-- The width that WD selects (R223). -/
def extWidth (wd : Nat) : Nat := if wd = 0 then 64 else if wd = 1 then 32 else 16

/-- AEXT (R223). -/
def execAext (k : CoreNo) (rd ra : Gr) (ad : AccNo) (ext : BitVec 5) (s : State) : Host.Outcome State Fault Refusal :=
  s.instrArch k 4 (fun a =>
    if !extOk ext then (a, .trap tIllegal (firstWord (.aext k rd ra ad ext)))
    else
      let w := extWidth (bits ext.toNat 3 2)
      let r := roundAcc (a.accv ad).toInt (a.accSh ra) (bits ext.toNat 1 2)
      if bit ext.toNat 0 then ((a.setGr rd.val (BitVec.ofInt 64 (clip w r))).saturate (outside w r), .seq)
      else (a.setGr rd.val (BitVec.ofInt 64 (sext w (wrap w r))), .seq))

/-! ## Multiply-accumulate (R225) -/

/-- A MAC form: `n` lanes of `w` bits, added or subtracted. -/
def State.macOp (s : State) (k : CoreNo) (ad : AccNo) (ra rb : Gr) (w n : Nat) (sub sat : Bool) :
    Host.Outcome State Fault Refusal :=
  s.accOp k 4 ad sat (fun a =>
    let p := laneSum w (a.gr ra).toNat (a.gr rb).toNat n
    if sub then (a.accv ad).toInt - p else (a.accv ad).toInt + p)

/-- MAC.H. -/
def execMacH (k : CoreNo) (ad : AccNo) (ra rb : Gr) (s : State) : Host.Outcome State Fault Refusal := s.macOp k ad ra rb 16 1 false false
/-- MAC.HS. -/
def execMacHs (k : CoreNo) (ad : AccNo) (ra rb : Gr) (s : State) : Host.Outcome State Fault Refusal := s.macOp k ad ra rb 16 1 false true
/-- MSU.H. -/
def execMsuH (k : CoreNo) (ad : AccNo) (ra rb : Gr) (s : State) : Host.Outcome State Fault Refusal := s.macOp k ad ra rb 16 1 true false
/-- MSU.HS. -/
def execMsuHs (k : CoreNo) (ad : AccNo) (ra rb : Gr) (s : State) : Host.Outcome State Fault Refusal := s.macOp k ad ra rb 16 1 true true
/-- MAC.H2. -/
def execMacH2 (k : CoreNo) (ad : AccNo) (ra rb : Gr) (s : State) : Host.Outcome State Fault Refusal := s.macOp k ad ra rb 16 2 false false
/-- MAC.H2S. -/
def execMacH2s (k : CoreNo) (ad : AccNo) (ra rb : Gr) (s : State) : Host.Outcome State Fault Refusal := s.macOp k ad ra rb 16 2 false true
/-- MAC.H4. -/
def execMacH4 (k : CoreNo) (ad : AccNo) (ra rb : Gr) (s : State) : Host.Outcome State Fault Refusal := s.macOp k ad ra rb 16 4 false false
/-- MAC.H4S. -/
def execMacH4s (k : CoreNo) (ad : AccNo) (ra rb : Gr) (s : State) : Host.Outcome State Fault Refusal := s.macOp k ad ra rb 16 4 false true
/-- MAC.W. -/
def execMacW (k : CoreNo) (ad : AccNo) (ra rb : Gr) (s : State) : Host.Outcome State Fault Refusal := s.macOp k ad ra rb 32 1 false false
/-- MAC.WS. -/
def execMacWs (k : CoreNo) (ad : AccNo) (ra rb : Gr) (s : State) : Host.Outcome State Fault Refusal := s.macOp k ad ra rb 32 1 false true
/-- MSU.W. -/
def execMsuW (k : CoreNo) (ad : AccNo) (ra rb : Gr) (s : State) : Host.Outcome State Fault Refusal := s.macOp k ad ra rb 32 1 true false
/-- MSU.WS. -/
def execMsuWs (k : CoreNo) (ad : AccNo) (ra rb : Gr) (s : State) : Host.Outcome State Fault Refusal := s.macOp k ad ra rb 32 1 true true
/-- MAC.D. -/
def execMacD (k : CoreNo) (ad : AccNo) (ra rb : Gr) (s : State) : Host.Outcome State Fault Refusal := s.macOp k ad ra rb 64 1 false false
/-- MAC.DS. -/
def execMacDs (k : CoreNo) (ad : AccNo) (ra rb : Gr) (s : State) : Host.Outcome State Fault Refusal := s.macOp k ad ra rb 64 1 false true

/-! ## Wide MAC forms (R227 to R229) -/

/-- What a MACD fetch meets (R229): MISALIGNED, or LOCAL_RANGE outside the converted bytes of its bank. -/
def State.macdFault (s : State) (k base lane n : Nat) (a : Word) : Option Nat :=
  if a.toNat % lane ≠ 0 then some tMisaligned
  else if base ≤ a.toNat && a.toNat + n ≤ base + s.bankBytes k then none else some tLocal

/-- A MACD (R228): `n` lanes of `w` bits from LMX and LMY. A fetch that an earlier store of the core overlaps in part waits for it
(R230, R258). -/
def State.macd (s : State) (k : CoreNo) (m : MacdOp) (i : Instr) (w n : Nat) (sub sat : Bool) : Host.Outcome State Fault Refusal :=
  s.instrState k 8 (fun s =>
    let c := s.core k
    let a := c.arch
    let x := a.gr m.rd
    let y := a.gr m.ra
    let sz := w * n / 8
    if !macdOk m then (s, .trap tIllegal (firstWord i))
    else
      match s.macdFault k ownBase (w / 8) sz x, s.macdFault k (ownBase + 0x8000) (w / 8) sz y with
      | some t, _ => (s, .trap t x)
      | none, some t => (s, .trap t y)
      | none, none =>
        if c.overlap .loc x.toNat sz = .part || c.overlap .loc y.toNat sz = .part then (s, .stall)
        else
        let p := laneSum w (s.seen k .loc x.toNat sz) (s.seen k .loc y.toNat sz) n
        let acc := (a.accv m.acc).toInt
        let a := a.accPut m.acc.val sat (if sub then acc - p else acc + p)
        let a := (a.setGr m.rd.val (a.updated m.msx.toNat x (sextW m.xinc))).setGr m.ra.val (a.updated m.msy.toNat y (sextW m.yinc))
        (s.setCore k { c with arch := a }, .seq))

/-- MACD.H4. -/
def execMacdH4 (k : CoreNo) (m : MacdOp) (s : State) : Host.Outcome State Fault Refusal := s.macd k m (.macdH4 k m) 16 4 false false
/-- MACD.H4S. -/
def execMacdH4s (k : CoreNo) (m : MacdOp) (s : State) : Host.Outcome State Fault Refusal := s.macd k m (.macdH4s k m) 16 4 false true
/-- MSUD.H4. -/
def execMsudH4 (k : CoreNo) (m : MacdOp) (s : State) : Host.Outcome State Fault Refusal := s.macd k m (.msudH4 k m) 16 4 true false
/-- MSUD.H4S. -/
def execMsudH4s (k : CoreNo) (m : MacdOp) (s : State) : Host.Outcome State Fault Refusal := s.macd k m (.msudH4s k m) 16 4 true true
/-- MACD.H1. -/
def execMacdH1 (k : CoreNo) (m : MacdOp) (s : State) : Host.Outcome State Fault Refusal := s.macd k m (.macdH1 k m) 16 1 false false
/-- MACD.H1S. -/
def execMacdH1s (k : CoreNo) (m : MacdOp) (s : State) : Host.Outcome State Fault Refusal := s.macd k m (.macdH1s k m) 16 1 false true
/-- MACD.W2. -/
def execMacdW2 (k : CoreNo) (m : MacdOp) (s : State) : Host.Outcome State Fault Refusal := s.macd k m (.macdW2 k m) 32 2 false false
/-- MACD.W2S. -/
def execMacdW2s (k : CoreNo) (m : MacdOp) (s : State) : Host.Outcome State Fault Refusal := s.macd k m (.macdW2s k m) 32 2 false true

/-- MACI. -/
def execMaci (k : CoreNo) (ad : AccNo) (ra : Gr) (imm : BitVec 32) (s : State) : Host.Outcome State Fault Refusal :=
  s.accOp k 8 ad false (fun a => (a.accv ad).toInt + (a.gr ra).toInt * imm.toInt)
/-- MACIS. -/
def execMacis (k : CoreNo) (ad : AccNo) (ra : Gr) (imm : BitVec 32) (s : State) : Host.Outcome State Fault Refusal :=
  s.accOp k 8 ad true (fun a => (a.accv ad).toInt + (a.gr ra).toInt * imm.toInt)

end Sys2Proof.Machine
end

