-- ==== Sys2Proof/Machine/Dispatch.lean ====
section
/-! DEFINITION. The meaning of every command, one arm for each row of the opcode table. -/

namespace Sys2Proof.Machine

def exec (i : Instr) (s : State) : Host.Outcome State Fault Refusal :=
  match i with
  | .registerWrite src off wide v => Sys2Proof.Machine.execRegisterWrite src off wide v s
  | .readClear src off wide => Sys2Proof.Machine.execReadClear src off wide s
  | .hostBar2Read addr len => Sys2Proof.Machine.execHostBar2Read addr len s
  | .hostBar2Write addr data => Sys2Proof.Machine.execHostBar2Write addr data s
  | .hostBarErrorAccess src off write len => Sys2Proof.Machine.execHostBarErrorAccess src off write len s
  | .stopLinkFailure pos => Sys2Proof.Machine.execStopLinkFailure pos s
  | .pllLock period => Sys2Proof.Machine.execPllLock period s
  | .mclkLost => Sys2Proof.Machine.execMclkLost s
  | .relock near period => Sys2Proof.Machine.execRelock near period s
  | .holdoverEnd => Sys2Proof.Machine.execHoldoverEnd s
  | .mclkPeriodDepart period => Sys2Proof.Machine.execMclkPeriodDepart period s
  | .tilWord c0 c1 c2 c3 => Sys2Proof.Machine.execTilWord c0 c1 c2 c3 s
  | .tilAlign => Sys2Proof.Machine.execTilAlign s
  | .tilAlignLoss => Sys2Proof.Machine.execTilAlignLoss s
  | .tsload d0 d1 d2 d3 inRow => Sys2Proof.Machine.execTsload d0 d1 d2 d3 inRow s
  | .feCmd arg => Sys2Proof.Machine.execFeCmd arg s
  | .mark arg => Sys2Proof.Machine.execMark arg s
  | .timeset param => Sys2Proof.Machine.execTimeset param s
  | .streamEnable n => Sys2Proof.Machine.execStreamEnable n s
  | .streamStop n => Sys2Proof.Machine.execStreamStop n s
  | .stopEnd n => Sys2Proof.Machine.execStopEnd n s
  | .fstart l base => Sys2Proof.Machine.execFstart l base s
  | .compactHit l w => Sys2Proof.Machine.execCompactHit l w s
  | .sampleBlock l w => Sys2Proof.Machine.execSampleBlock l w s
  | .fend l w => Sys2Proof.Machine.execFend l w s
  | .idleBlock l => Sys2Proof.Machine.execIdleBlock l s
  | .reservedControlBlock l ty => Sys2Proof.Machine.execReservedControlBlock l ty s
  | .invalidSyncHeader l => Sys2Proof.Machine.execInvalidSyncHeader l s
  | .responseFrame l hdr data cend => Sys2Proof.Machine.execResponseFrame l hdr data cend s
  | .responseRelease l => Sys2Proof.Machine.execResponseRelease l s
  | .cmdBlockSend => Sys2Proof.Machine.execCmdBlockSend s
  | .swcmd arg => Sys2Proof.Machine.execSwcmd arg s
  | .swcmdDrop => Sys2Proof.Machine.execSwcmdDrop s
  | .txctlGo l => Sys2Proof.Machine.execTxctlGo l s
  | .controlFrameEnd l => Sys2Proof.Machine.execControlFrameEnd l s
  | .felCtlWrite l v => Sys2Proof.Machine.execFelCtlWrite l v s
  | .laneRestart l => Sys2Proof.Machine.execLaneRestart l s
  | .cdrLock l => Sys2Proof.Machine.execCdrLock l s
  | .cdrTimeout l => Sys2Proof.Machine.execCdrTimeout l s
  | .blockLock l => Sys2Proof.Machine.execBlockLock l s
  | .blockLockTimeout l => Sys2Proof.Machine.execBlockLockTimeout l s
  | .trainingTimeout l => Sys2Proof.Machine.execTrainingTimeout l s
  | .attemptRetry l => Sys2Proof.Machine.execAttemptRetry l s
  | .trainRequest l => Sys2Proof.Machine.execTrainRequest l s
  | .trainEcho l w rtt => Sys2Proof.Machine.execTrainEcho l w rtt s
  | .laneLoss l => Sys2Proof.Machine.execLaneLoss l s
  | .lostRetrain l => Sys2Proof.Machine.execLostRetrain l s
  | .analogChecksDone l result eyeH eyeV => Sys2Proof.Machine.execAnalogChecksDone l result eyeH eyeV s
  | .hitLookup l ecc => Sys2Proof.Machine.execHitLookup l ecc s
  | .descriptorFill b slot unc => Sys2Proof.Machine.execDescriptorFill b slot unc s
  | .fillRefetch b slot => Sys2Proof.Machine.execFillRefetch b slot s
  | .ctbCtlWrite v => Sys2Proof.Machine.execCtbCtlWrite v s
  | .invalidateCn => Sys2Proof.Machine.execInvalidateCn s
  | .invalidateRange => Sys2Proof.Machine.execInvalidateRange s
  | .invalidateAll => Sys2Proof.Machine.execInvalidateAll s
  | .invalidateComplete => Sys2Proof.Machine.execInvalidateComplete s
  | .sliceMark e => Sys2Proof.Machine.execSliceMark e s
  | .sliceSeal n => Sys2Proof.Machine.execSliceSeal n s
  | .sealFlitInject => Sys2Proof.Machine.execSealFlitInject s
  | .regionSumMerge n => Sys2Proof.Machine.execRegionSumMerge n s
  | .noticeDelivery pn => Sys2Proof.Machine.execNoticeDelivery pn s
  | .hitCopy pn e => Sys2Proof.Machine.execHitCopy pn e s
  | .subCtlWrite pn v => Sys2Proof.Machine.execSubCtlWrite pn v s
  | .slotCtlWrite slot v => Sys2Proof.Machine.execSlotCtlWrite slot v s
  | .slotCapture n => Sys2Proof.Machine.execSlotCapture n s
  | .decidePacketInject c => Sys2Proof.Machine.execDecidePacketInject c s
  | .decideArrival => Sys2Proof.Machine.execDecideArrival s
  | .cutoff n => Sys2Proof.Machine.execCutoff n s
  | .decisionWord n => Sys2Proof.Machine.execDecisionWord n s
  | .eventDelivery k => Sys2Proof.Machine.execEventDelivery k s
  | .guylineFault pp => Sys2Proof.Machine.execGuylineFault pp s
  | .stimerMatch k => Sys2Proof.Machine.execStimerMatch k s
  | .deadlineWarning k => Sys2Proof.Machine.execDeadlineWarning k s
  | .windowSwitch lp => Sys2Proof.Machine.execWindowSwitch lp s
  | .majorFrameBoundary lp => Sys2Proof.Machine.execMajorFrameBoundary lp s
  | .illegalInstr k w => Sys2Proof.Machine.execIllegalInstr k w s
  | .add k rd ra rb => Sys2Proof.Machine.execAdd k rd ra rb s
  | .addf k rd ra rb => Sys2Proof.Machine.execAddf k rd ra rb s
  | .sub k rd ra rb => Sys2Proof.Machine.execSub k rd ra rb s
  | .subf k rd ra rb => Sys2Proof.Machine.execSubf k rd ra rb s
  | .adds k rd ra rb => Sys2Proof.Machine.execAdds k rd ra rb s
  | .subs k rd ra rb => Sys2Proof.Machine.execSubs k rd ra rb s
  | .addt k rd ra rb => Sys2Proof.Machine.execAddt k rd ra rb s
  | .subt k rd ra rb => Sys2Proof.Machine.execSubt k rd ra rb s
  | .abs k rd ra => Sys2Proof.Machine.execAbs k rd ra s
  | .abss k rd ra => Sys2Proof.Machine.execAbss k rd ra s
  | .min k rd ra rb => Sys2Proof.Machine.execMin k rd ra rb s
  | .max k rd ra rb => Sys2Proof.Machine.execMax k rd ra rb s
  | .minu k rd ra rb => Sys2Proof.Machine.execMinu k rd ra rb s
  | .maxu k rd ra rb => Sys2Proof.Machine.execMaxu k rd ra rb s
  | .adc k rd ra rb => Sys2Proof.Machine.execAdc k rd ra rb s
  | .sbc k rd ra rb => Sys2Proof.Machine.execSbc k rd ra rb s
  | .and k rd ra rb => Sys2Proof.Machine.execAnd k rd ra rb s
  | .or k rd ra rb => Sys2Proof.Machine.execOr k rd ra rb s
  | .xor k rd ra rb => Sys2Proof.Machine.execXor k rd ra rb s
  | .andn k rd ra rb => Sys2Proof.Machine.execAndn k rd ra rb s
  | .orn k rd ra rb => Sys2Proof.Machine.execOrn k rd ra rb s
  | .xnor k rd ra rb => Sys2Proof.Machine.execXnor k rd ra rb s
  | .clz k rd ra => Sys2Proof.Machine.execClz k rd ra s
  | .ctz k rd ra => Sys2Proof.Machine.execCtz k rd ra s
  | .popc k rd ra => Sys2Proof.Machine.execPopc k rd ra s
  | .sll k rd ra rb => Sys2Proof.Machine.execSll k rd ra rb s
  | .srl k rd ra rb => Sys2Proof.Machine.execSrl k rd ra rb s
  | .sra k rd ra rb => Sys2Proof.Machine.execSra k rd ra rb s
  | .ror k rd ra rb => Sys2Proof.Machine.execRor k rd ra rb s
  | .slt k rd ra rb => Sys2Proof.Machine.execSlt k rd ra rb s
  | .sltu k rd ra rb => Sys2Proof.Machine.execSltu k rd ra rb s
  | .sextb k rd ra => Sys2Proof.Machine.execSextb k rd ra s
  | .sexth k rd ra => Sys2Proof.Machine.execSexth k rd ra s
  | .sextw k rd ra => Sys2Proof.Machine.execSextw k rd ra s
  | .zextb k rd ra => Sys2Proof.Machine.execZextb k rd ra s
  | .zexth k rd ra => Sys2Proof.Machine.execZexth k rd ra s
  | .zextw k rd ra => Sys2Proof.Machine.execZextw k rd ra s
  | .csel k rd ra rb cond => Sys2Proof.Machine.execCsel k rd ra rb cond s
  | .addi k rd ra imm => Sys2Proof.Machine.execAddi k rd ra imm s
  | .addif k rd ra imm => Sys2Proof.Machine.execAddif k rd ra imm s
  | .andi k rd ra imm => Sys2Proof.Machine.execAndi k rd ra imm s
  | .ori k rd ra imm => Sys2Proof.Machine.execOri k rd ra imm s
  | .xori k rd ra imm => Sys2Proof.Machine.execXori k rd ra imm s
  | .lui k rd imm => Sys2Proof.Machine.execLui k rd imm s
  | .cmpi k ra imm => Sys2Proof.Machine.execCmpi k ra imm s
  | .slti k rd ra imm => Sys2Proof.Machine.execSlti k rd ra imm s
  | .sltiu k rd ra imm => Sys2Proof.Machine.execSltiu k rd ra imm s
  | .shiSll k rd ra sh => Sys2Proof.Machine.execShiSll k rd ra sh s
  | .shiSrl k rd ra sh => Sys2Proof.Machine.execShiSrl k rd ra sh s
  | .shiSra k rd ra sh => Sys2Proof.Machine.execShiSra k rd ra sh s
  | .shiRor k rd ra sh => Sys2Proof.Machine.execShiRor k rd ra sh s
  | .addiw k rd ra imm => Sys2Proof.Machine.execAddiw k rd ra imm s
  | .inshw k rd ra imm => Sys2Proof.Machine.execInshw k rd ra imm s
  | .andiw k rd ra imm => Sys2Proof.Machine.execAndiw k rd ra imm s
  | .oriw k rd ra imm => Sys2Proof.Machine.execOriw k rd ra imm s
  | .xoriw k rd ra imm => Sys2Proof.Machine.execXoriw k rd ra imm s
  | .cmpiw k ra imm => Sys2Proof.Machine.execCmpiw k ra imm s
  | .br k ofs => Sys2Proof.Machine.execBr k ofs s
  | .bl k ofs => Sys2Proof.Machine.execBl k ofs s
  | .bcc k cond ofs => Sys2Proof.Machine.execBcc k cond ofs s
  | .cbz k ra ofs => Sys2Proof.Machine.execCbz k ra ofs s
  | .cbnz k ra ofs => Sys2Proof.Machine.execCbnz k ra ofs s
  | .jr k ra => Sys2Proof.Machine.execJr k ra s
  | .jlr k ra => Sys2Proof.Machine.execJlr k ra s
  | .loop k rc uofs => Sys2Proof.Machine.execLoop k rc uofs s
  | .loopi k count uofs => Sys2Proof.Machine.execLoopi k count uofs s
  | .lb k r m => Sys2Proof.Machine.execLb k r m s
  | .lbu k r m => Sys2Proof.Machine.execLbu k r m s
  | .lh k r m => Sys2Proof.Machine.execLh k r m s
  | .lhu k r m => Sys2Proof.Machine.execLhu k r m s
  | .lw k r m => Sys2Proof.Machine.execLw k r m s
  | .lwu k r m => Sys2Proof.Machine.execLwu k r m s
  | .ld k r m => Sys2Proof.Machine.execLd k r m s
  | .sb k r m => Sys2Proof.Machine.execSb k r m s
  | .sh k r m => Sys2Proof.Machine.execSh k r m s
  | .sw k r m => Sys2Proof.Machine.execSw k r m s
  | .sd k r m => Sys2Proof.Machine.execSd k r m s
  | .amoswap k sz rd ra rb => Sys2Proof.Machine.execAmoswap k sz rd ra rb s
  | .amoadd k sz rd ra rb => Sys2Proof.Machine.execAmoadd k sz rd ra rb s
  | .amoand k sz rd ra rb => Sys2Proof.Machine.execAmoand k sz rd ra rb s
  | .amoor k sz rd ra rb => Sys2Proof.Machine.execAmoor k sz rd ra rb s
  | .cas k sz rd ra rb => Sys2Proof.Machine.execCas k sz rd ra rb s
  | .zline k ra imm => Sys2Proof.Machine.execZline k ra imm s
  | .clean k ra imm => Sys2Proof.Machine.execClean k ra imm s
  | .inval k ra imm => Sys2Proof.Machine.execInval k ra imm s
  | .flush k ra imm => Sys2Proof.Machine.execFlush k ra imm s
  | .iinv k ra imm => Sys2Proof.Machine.execIinv k ra imm s
  | .fenceC k => Sys2Proof.Machine.execFenceC k s
  | .fenceL k => Sys2Proof.Machine.execFenceL k s
  | .fenceS k => Sys2Proof.Machine.execFenceS k s
  | .mul k rd ra rb => Sys2Proof.Machine.execMul k rd ra rb s
  | .muls k rd ra rb => Sys2Proof.Machine.execMuls k rd ra rb s
  | .mult k rd ra rb => Sys2Proof.Machine.execMult k rd ra rb s
  | .mulh k rd ra rb => Sys2Proof.Machine.execMulh k rd ra rb s
  | .mulhu k rd ra rb => Sys2Proof.Machine.execMulhu k rd ra rb s
  | .mulhsu k rd ra rb => Sys2Proof.Machine.execMulhsu k rd ra rb s
  | .div k rd ra rb => Sys2Proof.Machine.execDiv k rd ra rb s
  | .divu k rd ra rb => Sys2Proof.Machine.execDivu k rd ra rb s
  | .rem k rd ra rb => Sys2Proof.Machine.execRem k rd ra rb s
  | .remu k rd ra rb => Sys2Proof.Machine.execRemu k rd ra rb s
  | .aclr k ad => Sys2Proof.Machine.execAclr k ad s
  | .ald k ad ra => Sys2Proof.Machine.execAld k ad ra s
  | .amov k ad asrc => Sys2Proof.Machine.execAmov k ad asrc s
  | .aadd k ad ra => Sys2Proof.Machine.execAadd k ad ra s
  | .aadds k ad ra => Sys2Proof.Machine.execAadds k ad ra s
  | .asub k ad ra => Sys2Proof.Machine.execAsub k ad ra s
  | .asubs k ad ra => Sys2Proof.Machine.execAsubs k ad ra s
  | .aadda k ad asrc => Sys2Proof.Machine.execAadda k ad asrc s
  | .aaddas k ad asrc => Sys2Proof.Machine.execAaddas k ad asrc s
  | .asra k ad ra => Sys2Proof.Machine.execAsra k ad ra s
  | .asll k ad ra => Sys2Proof.Machine.execAsll k ad ra s
  | .aslls k ad ra => Sys2Proof.Machine.execAslls k ad ra s
  | .aext k rd ra ad ext => Sys2Proof.Machine.execAext k rd ra ad ext s
  | .macH k ad ra rb => Sys2Proof.Machine.execMacH k ad ra rb s
  | .macHs k ad ra rb => Sys2Proof.Machine.execMacHs k ad ra rb s
  | .msuH k ad ra rb => Sys2Proof.Machine.execMsuH k ad ra rb s
  | .msuHs k ad ra rb => Sys2Proof.Machine.execMsuHs k ad ra rb s
  | .macH2 k ad ra rb => Sys2Proof.Machine.execMacH2 k ad ra rb s
  | .macH2s k ad ra rb => Sys2Proof.Machine.execMacH2s k ad ra rb s
  | .macH4 k ad ra rb => Sys2Proof.Machine.execMacH4 k ad ra rb s
  | .macH4s k ad ra rb => Sys2Proof.Machine.execMacH4s k ad ra rb s
  | .macW k ad ra rb => Sys2Proof.Machine.execMacW k ad ra rb s
  | .macWs k ad ra rb => Sys2Proof.Machine.execMacWs k ad ra rb s
  | .msuW k ad ra rb => Sys2Proof.Machine.execMsuW k ad ra rb s
  | .msuWs k ad ra rb => Sys2Proof.Machine.execMsuWs k ad ra rb s
  | .macD k ad ra rb => Sys2Proof.Machine.execMacD k ad ra rb s
  | .macDs k ad ra rb => Sys2Proof.Machine.execMacDs k ad ra rb s
  | .macdH4 k m => Sys2Proof.Machine.execMacdH4 k m s
  | .macdH4s k m => Sys2Proof.Machine.execMacdH4s k m s
  | .msudH4 k m => Sys2Proof.Machine.execMsudH4 k m s
  | .msudH4s k m => Sys2Proof.Machine.execMsudH4s k m s
  | .macdH1 k m => Sys2Proof.Machine.execMacdH1 k m s
  | .macdH1s k m => Sys2Proof.Machine.execMacdH1s k m s
  | .macdW2 k m => Sys2Proof.Machine.execMacdW2 k m s
  | .macdW2s k m => Sys2Proof.Machine.execMacdW2s k m s
  | .maci k ad ra imm => Sys2Proof.Machine.execMaci k ad ra imm s
  | .macis k ad ra imm => Sys2Proof.Machine.execMacis k ad ra imm s
  | .slget k rd wait => Sys2Proof.Machine.execSlget k rd wait s
  | .slgetWake k => Sys2Proof.Machine.execSlgetWake k s
  | .decide k rd ra rb => Sys2Proof.Machine.execDecide k rd ra rb s
  | .tsnow k rd => Sys2Proof.Machine.execTsnow k rd s
  | .dlrem k rd => Sys2Proof.Machine.execDlrem k rd s
  | .csrr k rd csr => Sys2Proof.Machine.execCsrr k rd csr s
  | .csrw k csr ra => Sys2Proof.Machine.execCsrw k csr ra s
  | .csrrw k rd csr ra => Sys2Proof.Machine.execCsrrw k rd csr ra s
  | .ecall k => Sys2Proof.Machine.execEcall k s
  | .brk k => Sys2Proof.Machine.execBrk k s
  | .tret k => Sys2Proof.Machine.execTret k s
  | .wfi k => Sys2Proof.Machine.execWfi k s
  | .wfiWake k => Sys2Proof.Machine.execWfiWake k s
  | .dataInput k inp => Sys2Proof.Machine.execDataInput k inp s
  | .storeDrain k => Sys2Proof.Machine.execStoreDrain k s
  | .deviceStoreTimeout k => Sys2Proof.Machine.execDeviceStoreTimeout k s
  | .deviceLoadTimeout k m sz => Sys2Proof.Machine.execDeviceLoadTimeout k m sz s
  | .gets k line => Sys2Proof.Machine.execGets k line s
  | .getm k line => Sys2Proof.Machine.execGetm k line s
  | .putm k line => Sys2Proof.Machine.execPutm k line s
  | .nonCachingWrite agent addr data => Sys2Proof.Machine.execNonCachingWrite agent addr data s
  | .coherenceProtocolError c => Sys2Proof.Machine.execCoherenceProtocolError c s
  | .l1cfgWrite k v => Sys2Proof.Machine.execL1cfgWrite k v s
  | .ilbaseWrite k hi v => Sys2Proof.Machine.execIlbaseWrite k hi v s
  | .l1cfgChangeDone k => Sys2Proof.Machine.execL1cfgChangeDone k s
  | .holdAddLoad c => Sys2Proof.Machine.execHoldAddLoad c s
  | .holdAdd c => Sys2Proof.Machine.execHoldAdd c s
  | .holdRemove c => Sys2Proof.Machine.execHoldRemove c s
  | .holdCommandDone c => Sys2Proof.Machine.execHoldCommandDone c s
  | .mismatch pp kind reg => Sys2Proof.Machine.execMismatch pp kind reg s
  | .retryAttempt pp again kind reg => Sys2Proof.Machine.execRetryAttempt pp again kind reg s
  | .groupCommit k => Sys2Proof.Machine.execGroupCommit k s
  | .oneCopyError pp both => Sys2Proof.Machine.execOneCopyError pp both s
  | .logIntervalApply lp => Sys2Proof.Machine.execLogIntervalApply lp s
  | .mirrorFlush lp => Sys2Proof.Machine.execMirrorFlush lp s
  | .contextWriteback c => Sys2Proof.Machine.execContextWriteback c s
  | .takeover lp => Sys2Proof.Machine.execTakeover lp s
  | .takeoverResume lp => Sys2Proof.Machine.execTakeoverResume lp s
  | .split lp => Sys2Proof.Machine.execSplit lp s
  | .join lp => Sys2Proof.Machine.execJoin lp s
  | .deadAgent lc => Sys2Proof.Machine.execDeadAgent lc s
  | .failover lc => Sys2Proof.Machine.execFailover lc s
  | .failoverResume lc => Sys2Proof.Machine.execFailoverResume lc s
  | .rotationStep lc => Sys2Proof.Machine.execRotationStep lc s
  | .rotationStepNow => Sys2Proof.Machine.execRotationStepNow s
  | .rotationTestDone pp misr steps => Sys2Proof.Machine.execRotationTestDone pp misr steps s
  | .rotationBlocked lc => Sys2Proof.Machine.execRotationBlocked lc s
  | .halt pp => Sys2Proof.Machine.execHalt pp s
  | .resume pp => Sys2Proof.Machine.execResume pp s
  | .step pp => Sys2Proof.Machine.execStep pp s
  | .injOne pp => Sys2Proof.Machine.execInjOne pp s
  | .injHard pp => Sys2Proof.Machine.execInjHard pp s
  | .traceCtlWrite pp v => Sys2Proof.Machine.execTraceCtlWrite pp v s
  | .cluCtlWrite lc v => Sys2Proof.Machine.execCluCtlWrite lc v s
  | .scAssign pn scn => Sys2Proof.Machine.execScAssign pn scn s
  | .scRelease scn => Sys2Proof.Machine.execScRelease scn s
  | .pgLoad who hi lo => Sys2Proof.Machine.execPgLoad who hi lo s
  | .scLoad who sc => Sys2Proof.Machine.execScLoad who sc s
  | .scEnable who sc => Sys2Proof.Machine.execScEnable who sc s
  | .scDisable who sc => Sys2Proof.Machine.execScDisable who sc s
  | .scReset who sc => Sys2Proof.Machine.execScReset who sc s
  | .recAck => Sys2Proof.Machine.execRecAck s
  | .chsCommandDone who => Sys2Proof.Machine.execChsCommandDone who s
  | .transactionCreate => Sys2Proof.Machine.execTransactionCreate s
  | .gatherStart tag => Sys2Proof.Machine.execGatherStart tag s
  | .gatherComplete c unc => Sys2Proof.Machine.execGatherComplete c unc s
  | .sealComplete c => Sys2Proof.Machine.execSealComplete c s
  | .engineFailure e cause => Sys2Proof.Machine.execEngineFailure e cause s
  | .recordDeliver scn bufs => Sys2Proof.Machine.execRecordDeliver scn bufs s
  | .bufferDoorbell src w => Sys2Proof.Machine.execBufferDoorbell src w s
  | .consumerDoorbell src w => Sys2Proof.Machine.execConsumerDoorbell src w s
  | .pcieLinkDown => Sys2Proof.Machine.execPcieLinkDown s
  | .busMasterDisable pn => Sys2Proof.Machine.execBusMasterDisable pn s
  | .wrrAck port ack => Sys2Proof.Machine.execWrrAck port ack s
  | .rtoExpiry scn psn => Sys2Proof.Machine.execRtoExpiry scn psn s
  | .probe scn => Sys2Proof.Machine.execProbe scn s
  | .pcsAlignmentLoss port => Sys2Proof.Machine.execPcsAlignmentLoss port s
  | .pcsAlignmentReturn port => Sys2Proof.Machine.execPcsAlignmentReturn port s
  | .linkHoldExpiry scn => Sys2Proof.Machine.execLinkHoldExpiry scn s
  | .pop src pn => Sys2Proof.Machine.execPop src pn s
  | .clrsum src pn => Sys2Proof.Machine.execClrsum src pn s
  | .chsCtlWrite v => Sys2Proof.Machine.execChsCtlWrite v s
  | .wrrCtlWrite p v => Sys2Proof.Machine.execWrrCtlWrite p v s
  | .cmpCtlWrite e v => Sys2Proof.Machine.execCmpCtlWrite e v s
  | .engineTestDone e misr steps => Sys2Proof.Machine.execEngineTestDone e misr steps s
  | .engineRotation => Sys2Proof.Machine.execEngineRotation s
  | .powerFail => Sys2Proof.Machine.execPowerFail s
  | .keyGen who keyid => Sys2Proof.Machine.execKeyGen who keyid s
  | .kxBegin who keyid => Sys2Proof.Machine.execKxBegin who keyid s
  | .keyImport who keyid => Sys2Proof.Machine.execKeyImport who keyid s
  | .keyDestroy who pn keyid => Sys2Proof.Machine.execKeyDestroy who pn keyid s
  | .attest who pn scope => Sys2Proof.Machine.execAttest who pn scope s
  | .tokenInstall pn => Sys2Proof.Machine.execTokenInstall pn s
  | .tokenRevoke who pn => Sys2Proof.Machine.execTokenRevoke who pn s
  | .idRead who => Sys2Proof.Machine.execIdRead who s
  | .certInstall => Sys2Proof.Machine.execCertInstall s
  | .lcChallenge => Sys2Proof.Machine.execLcChallenge s
  | .lcAdvance tgt confirm => Sys2Proof.Machine.execLcAdvance tgt confirm s
  | .svnCommit => Sys2Proof.Machine.execSvnCommit s
  | .secCommandDone => Sys2Proof.Machine.execSecCommandDone s
  | .tokenLapse pn => Sys2Proof.Machine.execTokenLapse pn s
  | .rngHealthFailure => Sys2Proof.Machine.execRngHealthFailure s
  | .create pn => Sys2Proof.Machine.execCreate pn s
  | .run pn => Sys2Proof.Machine.execRun pn s
  | .quiesce pn => Sys2Proof.Machine.execQuiesce pn s
  | .reset pn => Sys2Proof.Machine.execReset pn s
  | .remove pn => Sys2Proof.Machine.execRemove pn s
  | .pgAssign pn => Sys2Proof.Machine.execPgAssign pn s
  | .pgRelease pn => Sys2Proof.Machine.execPgRelease pn s
  | .tlbinv pn => Sys2Proof.Machine.execTlbinv pn s
  | .partitionCommandDone pn => Sys2Proof.Machine.execPartitionCommandDone pn s
  | .shareWrite pn reg v => Sys2Proof.Machine.execShareWrite pn reg v s
  | .arbitrationEpoch => Sys2Proof.Machine.execArbitrationEpoch s
  | .stageDataAccess pn wr => Sys2Proof.Machine.execStageDataAccess pn wr s
  | .vfFlr pn => Sys2Proof.Machine.execVfFlr pn s
  | .pfFlr => Sys2Proof.Machine.execPfFlr s
  | .voteWrite target v => Sys2Proof.Machine.execVoteWrite target v s
  | .entryRequest d => Sys2Proof.Machine.execEntryRequest d s
  | .pointOfNoReturn d => Sys2Proof.Machine.execPointOfNoReturn d s
  | .entryComplete d => Sys2Proof.Machine.execEntryComplete d s
  | .exitComplete d => Sys2Proof.Machine.execExitComplete d s
  | .wakeEvent d source => Sys2Proof.Machine.execWakeEvent d source s
  | .earlyExit pp => Sys2Proof.Machine.execEarlyExit pp s
  | .unitTest tgt => Sys2Proof.Machine.execUnitTest tgt s
  | .rotEng => Sys2Proof.Machine.execRotEng s
  | .analog tgt => Sys2Proof.Machine.execAnalog tgt s
  | .abort => Sys2Proof.Machine.execAbort s
  | .testComplete misr steps => Sys2Proof.Machine.execTestComplete misr steps s
  | .testOverrun => Sys2Proof.Machine.execTestOverrun s
  | .analogMonitorTrip tgt check pass => Sys2Proof.Machine.execAnalogMonitorTrip tgt check pass s
  | .nonRedundantFault code => Sys2Proof.Machine.execNonRedundantFault code s
  | .powerOnReset p => Sys2Proof.Machine.execPowerOnReset p s
  | .warmnAssert p => Sys2Proof.Machine.execWarmnAssert p s
  | .pcieFundamentalReset => Sys2Proof.Machine.execPcieFundamentalReset s
  | .warmReset param p => Sys2Proof.Machine.execWarmReset param p s
  | .cluReset param => Sys2Proof.Machine.execCluReset param s
  | .pairReset param => Sys2Proof.Machine.execPairReset param s
  | .flashErase param => Sys2Proof.Machine.execFlashErase param s
  | .flashWrite param => Sys2Proof.Machine.execFlashWrite param s
  | .bootSelect param => Sys2Proof.Machine.execBootSelect param s
  | .logClear param => Sys2Proof.Machine.execLogClear param s
  | .retiredClear param => Sys2Proof.Machine.execRetiredClear param s
  | .mailboxCommandDone => Sys2Proof.Machine.execMailboxCommandDone s
  | .store => Sys2Proof.Machine.execStore s
  | .reload => Sys2Proof.Machine.execReload s
  | .nvsCommandDone failed => Sys2Proof.Machine.execNvsCommandDone failed s
  | .shadowWrite hi wr => Sys2Proof.Machine.execShadowWrite hi wr s
  | .therm tmax => Sys2Proof.Machine.execTherm tmax s
  | .status => Sys2Proof.Machine.execStatus s
  | .fault => Sys2Proof.Machine.execFault s
  | .temp => Sys2Proof.Machine.execTemp s
  | .tsensLo => Sys2Proof.Machine.execTsensLo s
  | .tsensHi => Sys2Proof.Machine.execTsensHi s
  | .power => Sys2Proof.Machine.execPower s
  | .ident => Sys2Proof.Machine.execIdent s
  | .log => Sys2Proof.Machine.execLog s
  | .smbusWarmReset data p => Sys2Proof.Machine.execSmbusWarmReset data p s
  | .smbusUnknownCommand code => Sys2Proof.Machine.execSmbusUnknownCommand code s
  | .smbusClockTimeout => Sys2Proof.Machine.execSmbusClockTimeout s
  | .railDip rail => Sys2Proof.Machine.execRailDip rail s
  | .vidStep up => Sys2Proof.Machine.execVidStep up s
  | .sscWrite v => Sys2Proof.Machine.execSscWrite v s
  | .spreadChangeDone => Sys2Proof.Machine.execSpreadChangeDone s
  | .thermalTrip sensor => Sys2Proof.Machine.execThermalTrip sensor s
  | .sbgOwnWrite g v => Sys2Proof.Machine.execSbgOwnWrite g v s
  | .bypass => Sys2Proof.Machine.execBypass s
  | .idcode => Sys2Proof.Machine.execIdcode s
  | .samplePreload cells => Sys2Proof.Machine.execSamplePreload cells s
  | .extest cells => Sys2Proof.Machine.execExtest cells s
  | .extestPulse cells => Sys2Proof.Machine.execExtestPulse cells s
  | .extestTrain cells => Sys2Proof.Machine.execExtestTrain cells s
  | .clamp => Sys2Proof.Machine.execClamp s
  | .highz => Sys2Proof.Machine.execHighz s
  | .pauseFrameReceived port quanta => Sys2Proof.Machine.execPauseFrameReceived port quanta s
  | .ridgepoleMessageArrival dest => Sys2Proof.Machine.execRidgepoleMessageArrival dest s

end Sys2Proof.Machine
end

