-- ==== Sys2Proof/Safety.lean ====
section
/-! DEFINITION. What a safe run is: every step answers a next state, and the memories and the register store keep their
canonical form, so that equal contents are equal data. -/

namespace Sys2Proof.Machine

/-- The canonical form of HBM: addresses rise strictly, and no entry holds what an unlisted address reads as. -/
def Memory.wf (m : List Host.Cell) : Bool := tabWf (fun _ => 0) m

/-- The canonical form of the register store: offsets rise strictly, and no entry holds its register's reset value. -/
def regsWf (m : Tab Word32) : Bool := tabWf regReset m

/-- HBM and the register store are in canonical form. -/
def State.canonical (s : State) : Bool := Memory.wf s.hbm && regsWf s.regs

/-- A step answers a next state. -/
def State.goesOn (s : State) : Prop := ∃ t, step s = .next t

/-- The device is not held in reset and PORn is released: commands from outside act (R25, R360, R431, R470). -/
def State.up (s : State) : Prop := s.hold = none ∧ s.por = false

end Sys2Proof.Machine
end

