-- ==== Sys2Proof/Certificates/Slice0/Obligations.lean ====
section
/-! DEFINITION. The statements for the provers. A command completes in a state that is `up`: not held in reset, PORn released
(R25, R431). An equation `exec c s = .next t` says the command's whole effect, its frame with it. -/

open Sys2Proof Sys2Proof.Machine

/-- A step takes the command at the front of the queue and runs its meaning on the state with the queue's rest. The queue is the
model's own (assumption 3). -/
def Obligations.StepRunsFrontCommand : Prop :=
  ∀ (c : Instr) (rest : List Instr) (s : State), step (s.withPending (c :: rest)) = exec c (s.withPending rest)

/-- The timebase changes state as R39, R40, R41 and R472 say: a lock in NOLOCK enters FREE; MCLK lost in FREE enters NOLOCK, in
SYNCED enters HOLDOVER; a relock in HOLDOVER enters SYNCED, or FREE with every stream disabled; the 256th holdover edge enters
NOLOCK. -/
def Sys2Proof.Claim.TimebaseTransitions : Prop :=
  ∀ s : State, s.up →
    (∀ p : BitVec 32, s.tstate = 0 → periodOk p.toNat = true →
      exec (.pllLock p) s = .next ((s.setPeriod p.toNat).setTstate 1)) ∧
    (∀ p : BitVec 32, periodOk p.toNat = false → exec (.pllLock p) s = .next s) ∧
    (s.tstate = 1 → exec .mclkLost s = .next s.enterNolock) ∧
    (s.tstate = 2 → exec .mclkLost s = .next ((s.withTime { s.time with holdEdges := 0 }).setTstate 3)) ∧
    (∀ (near : Bool) (p : BitVec 32), s.tstate = 0 → exec (.relock near p) s = exec (.pllLock p) s) ∧
    (∀ p : BitVec 32, s.tstate = 3 → periodOk p.toNat = true →
      exec (.relock true p) s = .next
        ((((s.setPeriod p.toNat).withTime { (s.setPeriod p.toNat).time with holdEdges := 0 }).setTstate 2).checkFloors) ∧
      exec (.relock false p) s = .next
        ((((s.setPeriod p.toNat).withTime { (s.setPeriod p.toNat).time with holdEdges := 0 }).setTstate 1).disableAll
          stConflict)) ∧
    (s.tstate = 3 → s.time.holdEdges = 255 →
      exec .holdoverEnd s = .next ((s.advance.enterNolock).disableAll stTimeout)) ∧
    (∀ p : BitVec 32, s.tstate = 1 ∨ s.tstate = 2 →
      (periodOk p.toNat = false → exec (.mclkPeriodDepart p) s = exec .mclkLost s) ∧
      (periodOk p.toNat = true →
        200 * s.time.lockPeriod < ((p.toNat - s.time.lockPeriod) + (s.time.lockPeriod - p.toNat)) * 1000000 →
        exec (.mclkPeriodDepart p) s = .next ((s.setPeriod p.toNat).checkFloors)))

/-- A TIL word that is a word error counts in TIM_TIL_ERR while the receiver is ALIGNED, and does nothing else to a register;
16 good words align the receiver and 4 word errors end the alignment (R43, R44). -/
def Sys2Proof.Claim.TilAlignment : Prop :=
  ∀ s : State, s.up →
    (∀ c0 c1 c2 c3 : TilChar, tilField c0 c1 c2 c3 = none → s.aligned = true → s.time.tilBad < 4 →
      exec (.tilWord c0 c1 c2 c3) s = .next
        ((s.withTime { s.time with tilGood := (if tilK c0 then min (s.time.tilGood + 1) 16 else 0),
                                         tilBad := s.time.tilBad + 1 }).count TIM_TIL_ERR 1)) ∧
    (∀ c0 c1 c2 c3 : TilChar, s.aligned = false →
      ∃ t, exec (.tilWord c0 c1 c2 c3) s = .next t ∧ t.regs = s.regs ∧ t.hbm = s.hbm ∧ t.outs = s.outs) ∧
    (16 ≤ s.time.tilGood → s.aligned = false →
      exec .tilAlign s = .next ((s.withTime { s.time with tilBad := 0 }).fset TIM_STATE 8 1 1)) ∧
    (4 ≤ s.time.tilBad → s.aligned = true →
      exec .tilAlignLoss s = .next ((s.withTime { s.time with tilGood := 0, tilBad := 0 }).fset TIM_STATE 8 1 0))

/-- A valid load waits TIM_TIL_CFG.LAT ticks; when it falls due it sets the count and enters SYNCED in FREE, and in SYNCED or
HOLDOVER it counts a match or a mismatch and changes the count only while no stream is enabled (R45, R46, R47). An invalid one
counts in TIM_TIL_ERR. -/
def Sys2Proof.Claim.TimestampLoads : Prop :=
  ∀ s : State, s.up →
    (∀ (d0 d1 d2 d3 : BitVec 24) (inRow : Bool) (v : Nat), s.aligned = true → s.tstate ≠ 0 →
      tsValue d0 d1 d2 d3 inRow = some v →
      exec (.tsload d0 d1 d2 d3 inRow) s = .next
        (s.withTime { s.time with loads := s.time.loads ++ [(s.fget TIM_TIL_CFG 0 4, v, false)] })) ∧
    (∀ (d0 d1 d2 d3 : BitVec 24) (inRow : Bool), s.aligned = true → tsValue d0 d1 d2 d3 inRow = none →
      exec (.tsload d0 d1 d2 d3 inRow) s = .next (s.count TIM_TIL_ERR 1)) ∧
    (∀ (d0 d1 d2 d3 : BitVec 24) (inRow : Bool), s.aligned = false → exec (.tsload d0 d1 d2 d3 inRow) s = .next s) ∧
    (∀ n v : Nat,
      (s.tstate = 1 → s.loadDue n v false = (s.setTstate 2, v)) ∧
      (2 ≤ s.tstate → s.loadDue n n false = (s.count TIM_TS_MATCH 1, n)) ∧
      (2 ≤ s.tstate → v ≠ n → (s.loadDue n v false).1 = (s.count TIM_TS_MISMATCH 1).errLog stConflict srcTim none 0) ∧
      (s.canonical = true → 2 ≤ s.tstate → v ≠ n →
        (s.loadDue n v false).2 = (if s.enabledStreams = [] then v else n)))

/-- A MARK command appends the tick and its argument to the mark log of 64 entries; on a full log it counts the entry lost
(R48). -/
def Sys2Proof.Claim.MarkLog : Prop :=
  ∀ (s : State) (arg : BitVec 16), s.up → s.aligned = true →
    ∃ t, exec (.mark arg) s = .next t ∧
      t = (((if s.fget TIM_MARK_CNT 0 7 = 64 then
              ((s.wr64 (TIM_MARK_LO (s.fget TIM_MARK_CNT 16 6)) s.time.tick).wr
                (TIM_MARK_ARG (s.fget TIM_MARK_CNT 16 6)) arg.toNat).count TIM_MARK_OVF 1
            else (s.wr64 (TIM_MARK_LO (s.fget TIM_MARK_CNT 16 6)) s.time.tick).wr
                (TIM_MARK_ARG (s.fget TIM_MARK_CNT 16 6)) arg.toNat)).wr TIM_MARK_CNT
            ((s.fget TIM_MARK_CNT 16 6 + 1) % 64 * 2 ^ 16 + min (s.fget TIM_MARK_CNT 0 7 + 1) 64))

/-- The Timing Input Link (R43 to R48): TilAlignment, TimestampLoads, MarkLog. -/
def Sys2Proof.Claim.TimingInputLink : Prop := Claim.TilAlignment ∧ Claim.TimestampLoads ∧ Claim.MarkLog

/-- With no command waiting a step is one tick edge; the queue stays empty. In NOLOCK the counter is frozen; in FREE and SYNCED
with no load due it advances by one modulo 2^60; HOLDOVER takes no edge after its 255th here, the 256th being HOLDOVER_END
(R40, R41). That the step on an empty queue is a tick edge is the model's choice (assumption 3). -/
def Obligations.TickEdges : Prop :=
  ∀ s : State,
    (s.pending = [] → step s = .next s.edge) ∧
    (s.tstate = 0 → s.tickEdge = s) ∧
    (s.tstate = 1 ∨ s.tstate = 2 → s.time.loads = [] → s.tickEdge.time.tick = (s.time.tick + 1) % 2 ^ 60) ∧
    (s.tstate = 3 → s.time.holdEdges < 255 → s.time.loads = [] → s.enabledStreams = [] →
      s.tickEdge.time.tick = (s.time.tick + 1) % 2 ^ 60 ∧ s.tickEdge.time.holdEdges = s.time.holdEdges + 1) ∧
    (s.tstate = 3 → 255 ≤ s.time.holdEdges → s.tickEdge = s)

/-- A write of EN = 1 to a disabled stream that passes every check of R149 enables it: its first slice is the first whose start
tick is later than the tick of the write (R51), STOP and the report of a current SN clear, TIM_STRn_ST reads ST_OK. A write that
fails a check leaves the stream disabled and puts that check's status into TIM_STRn_ST. EN = 1 while the stream stops cancels
the stop before E_last and answers ST_BUSY from E_last on. -/
def Sys2Proof.Claim.StreamEnable : Prop :=
  ∀ (s : State) (n : Stream), s.up →
    (s.strEn n = false → s.enableCheck n ≠ 0 → exec (.streamEnable n) s = .next (s.wr (TIM_STR_ST n) (s.enableCheck n))) ∧
    (s.tstate ≠ 2 → s.enableCheck n = stState) ∧
    (s.strEn n = true → (s.stream n).stopEnd = none → exec (.streamEnable n) s = .next (s.wr (TIM_STR_ST n) stOk)) ∧
    (∀ e, s.strEn n = true → (s.stream n).stopEnd = some e → e ≤ s.time.tick →
      exec (.streamEnable n) s = .next (s.wr (TIM_STR_ST n) stBusy)) ∧
    (∀ e, s.strEn n = true → (s.stream n).stopEnd = some e → s.time.tick < e →
      exec (.streamEnable n) s = .next
        (((s.setStream n { s.stream n with stopEnd := none }).fset (TIM_STR_CTL n) 1 1 0).wr (TIM_STR_ST n) stOk)) ∧
    (∀ k, s.strEn n = false → s.enableCheck n = 0 →
      k = (if s.time.tick < s.strO n then 0 else (s.time.tick - s.strO n) / max (s.strW n) 1 + 1) →
      ∃ t, exec (.streamEnable n) s = .next (t.wr (TIM_STR_ST n) stOk) ∧
        t = (List.range 4).foldl (fun u e => (List.range 64).foldl (fun v i => v.openMarks e n (k + i)) u)
          ((((s.setStream n { first := k, next := k, cap := k, cut := k, out := k }).fset (TIM_STR_CTL n) 0 1 1).fset
            (TIM_STR_SN_HI n) 31 1 0).recomputeSubs))

/-- A write of EN = 0 to an enabled stream that does not stop yet sets STOP and takes as E_last the end of the slice in progress;
at tick E_last + D, its last decision word sent, the stream is off (R149). -/
def Sys2Proof.Claim.StreamStop : Prop :=
  ∀ (s : State) (n : Stream), s.up →
    (s.canonical = true → s.strEn n = true → (s.stream n).stopEnd = none →
      exec (.streamStop n) s = .next
        (((s.wr (TIM_STR_ST n) stOk).setStream n { s.stream n with
            stopEnd := some (s.sliceEnd n
              (if s.time.tick < s.strO n then 0 else (s.time.tick - s.strO n) / max (s.strW n) 1)) }).fset
          (TIM_STR_CTL n) 1 1 1)) ∧
    (∀ e, (s.stream n).stopEnd = some e → s.time.tick < e + s.strD n → exec (.stopEnd n) s = .next s) ∧
    (∀ e, (s.stream n).stopEnd = some e → e + s.strD n ≤ s.time.tick → e < s.sliceEnd n (s.stream n).out →
      exec (.stopEnd n) s = .next (s.streamOff n))

/-- Before the close instant of its next slice a stream seals nothing; at or after it the slice is sealed and a seal flit with
the slice's marks and absent lanes joins SYS's queue (R54, R128, R136). A mark on its way reaches its engine (R124), and the
flit of the lowest stream leaves SYS around the ring in both directions, to the queue of every subscription that the seal found
enabled and that still is, enabled before the seal (R24, R134). -/
def Obligations.SliceSeal : Prop :=
  ∀ (s : State) (n : Stream), s.up →
    (s.time.tick * 16 < s.closeT n (s.stream n).next → exec (.sliceSeal n) s = .next s) ∧
    (s.strEn n = true → (s.stream n).stopEnd = none → s.closeT n (s.stream n).next ≤ s.time.tick * 16 →
      ∃ (u : State) (f : SealFlit),
        exec (.sliceSeal n) s = .next (u.withFabric { u.fabric with seals := u.fabric.seals ++ [f] }) ∧
        f.stream = n ∧ f.k = (s.stream n).next ∧ f.fin = s.sliceEnd n (s.stream n).next ∧
        f.hold = (s.slice n (s.stream n).next).hold ∧
        f.corr = (s.slice n (s.stream n).next).corr ∧ f.lbloss = (s.slice n (s.stream n).next).lbloss ∧
        f.absent = Nat.lor (s.slice n (s.stream n).next).absent (s.absentMask n (s.stream n).next)) ∧
    (∀ (e : Fin 4) (m : Mark) (rest : List Mark), (s.eng e).inMarks = m :: rest →
      exec (.sliceMark e) s = .next ((s.setEng e { s.eng e with inMarks := rest }).applyMark e m)) ∧
    (∀ (f : SealFlit) (rest : List SealFlit), s.fabric.seals = f :: rest → f.stream = 0 →
      exec .sealFlitInject s = .next ((f.subs.foldl (fun (u : State) q =>
          if u.subEn q.pn = true ∧ (u.sub q.pn).since ≤ f.serial then
            u.setSub q.pn { u.sub q.pn with flits := (u.sub q.pn).flits ++ [(f, q)] }
          else u) (s.withFabric { s.fabric with seals := rest })).emit (.flit 0 0 true true)))

/-- The oldest sealed slice not yet merged has its region sums written to its entry of the region-sum ring, unless a pinned slice
holds that entry (R132). -/
def Sys2Proof.Claim.RegionSums : Prop :=
  ∀ (s : State) (n : Stream) (k : Nat) (r : SliceRec), s.up →
    (s.stream n).recs.find? (fun e => e.2.sealed && !e.2.merged) = some (k, r) →
    (s.dirPinned n k = true → exec (.regionSumMerge n) s = .next (s.setSlice n k { r with merged := true })) ∧
    (s.dirPinned n k = false →
      exec (.regionSumMerge n) s = .next
        ((s.setSlice n k { r with merged := true }).agentWords (s.rsumAddr n k)
          (r.sumWords 0 s.nreg ++ List.replicate (s.rblk / 8 - s.nreg) 0)))

/-- A notice whose queue was full at the seal, or whose partition is not RUNNING, is refused and counted; one with a free entry
joins the delivery queue and wakes the pairs that run the partition (R136, R139, R391). An engine's oldest copy for a
subscription is made once (R138). -/
def Sys2Proof.Claim.NoticeDelivery : Prop :=
  ∀ (s : State) (pn : Pn) (f : SealFlit) (q : SealSub) (rest : List (SealFlit × SealSub)), s.up →
    (s.sub pn).flits = (f, q) :: rest → (s.slice f.stream f.k).merged = true →
    (emptyWay ((s.sub pn).entries.map (·.slot)) (s.subQd pn) = none ∨ q.full = true ∨ s.pstate pn ≠ 2 →
      exec (.noticeDelivery pn) s = .next ((s.setSub pn { s.sub pn with flits := rest }).refuseNotice pn f)) ∧
    (∀ slot, emptyWay ((s.sub pn).entries.map (·.slot)) (s.subQd pn) = some slot → q.full = false → s.pstate pn = 2 →
      ∃ (u : State) (e : QEntry), exec (.noticeDelivery pn) s = .next (((u.setSub pn { u.sub pn with
            entries := (u.sub pn).entries ++ [e],
            copies := (u.sub pn).copies ++ (if s.subHq pn = 0 then []
              else ((List.range 4).filter (fun i => !bit q.refused i)).map (fun i => (f.k, slot, i))),
            nref := 0 }).subOcc pn).wakePairs (u.subCl pn) pn 1) ∧
        e.slot = slot ∧ e.sn = snOf f.k ∧ e.takenBy = none ∧ e.words = noticeWords f (u.sub pn).nref slot)

/-- A copy of hits into a delivery slot (R135, R138): an engine whose turn it is makes its oldest copy for the subscription; what
fits of its hits is written to its hit part, its header word shows DONE, TRUNC and the bytes, and a part that leaves hits out counts
in HTRUNC. Out of turn (R138, R402) nothing is copied. A subscription with a decision slot is charged no share. -/
def Sys2Proof.Claim.HitCopy : Prop :=
  ∀ (s u v : State) (pn : Pn) (e : Fin 4) (i k slot : Nat) (j : Nat) (hits l : List (List Nat)) (trunc : Bool), s.up →
    firstIdx (fun c => c.2.2 == e.val) 0 (s.sub pn).copies = some (i, k, slot, j) →
    (s.copyTurn pn e k = false → exec (.hitCopy pn e) s = .next s) ∧
    (s.copyTurn pn e k = true →
      hits = ((tabGet {} (s.slice (s.subStr pn) k).chains e).recs.map (·.map (·.toNat))).filterMap (hitFor pn) →
      takeHits (64 * s.subHq pn) hits = (l, trunc) →
      u = (if (s.slotOf pn).isSome = true then s
        else s.charge (.copy e) (s.copyDemand e) pn (max 1 (ceilDiv (8 * l.flatten.length) 64))).setSub pn
          { s.sub pn with copies := (s.sub pn).copies.eraseIdx i } →
      v = (if l.flatten = [] then u else u.stopWrite (s.pclOf (s.subCl pn))
        (s.slotAddr pn slot + 64 + 64 * ceilDiv (u.subRcnt pn) 8 + e * 64 * s.subHq pn) (l.flatten.flatMap (leBytes 8))) →
      ∃ w, w = v.stopWrite (s.pclOf (s.subCl pn)) (s.slotAddr pn slot + 8 * e)
          (leBytes 8 (2 ^ 63 + b2n trunc * 2 ^ 62 + 8 * l.flatten.length)) ∧
        exec (.hitCopy pn e) s = .next (if trunc = true then w.count (SLC_SUB_HTRUNC pn) 1 else w))

/-- SLC_SUB_CTL: a write of EN = 1 to an enabled subscription answers ST_STATE and changes nothing else; EN = 0 disables it; a
disabled one takes the other fields; an enable that fails a check answers that check's status; one that passes starts with an empty
queue and, where it delivers, holds its ring in the L2, or answers ST_NOSPACE (R133, R134, R250). -/
def Sys2Proof.Claim.SubscriptionControl : Prop :=
  ∀ (s : State) (pn : Pn) (v : BitVec 32), s.up →
    (s.subEn pn = true → bit v.toNat 31 = true → exec (.subCtlWrite pn v) s = .next (s.wr (SLC_SUB_ST pn) stState)) ∧
    (s.subEn pn = true → bit v.toNat 31 = false → exec (.subCtlWrite pn v) s = .next ((s.subOff pn).wr (SLC_SUB_ST pn) stOk)) ∧
    (s.subEn pn = false → bit v.toNat 31 = false →
      exec (.subCtlWrite pn v) s = .next ((s.wr (SLC_SUB_CTL pn) (subCtlBits v.toNat)).wr (SLC_SUB_ST pn) stOk)) ∧
    (s.subEn pn = false → bit v.toNat 31 = true → s.subCheck pn v.toNat ≠ 0 →
      exec (.subCtlWrite pn v) s = .next (s.wr (SLC_SUB_ST pn) (s.subCheck pn v.toNat))) ∧
    (s.subEn pn = false → bit v.toNat 31 = true → s.subCheck pn v.toNat = 0 →
      ∃ u, u = ((s.wr (SLC_SUB_CTL pn) (subCtlBits v.toNat)).setSub pn { since := s.fabric.sealed }).wr (SLC_SUB_OCC pn) 0 ∧
        (bit v.toNat 30 = false → exec (.subCtlWrite pn v) s = .next (u.recomputeSubs.wr (SLC_SUB_ST pn) stOk)) ∧
        (bit v.toNat 30 = true → ∃ r, r = u.holdRing (s.pclOf (bits v.toNat 24 3))
            { line := s.subRing pn / 64, lines := (bits v.toNat 0 6 + 1) * s.slotSz pn / 64, loaded := false, ring := some pn } ∧
          (r = none → exec (.subCtlWrite pn v) s = .next (s.wr (SLC_SUB_ST pn) stNospace)) ∧
          (∀ x, r = some x → exec (.subCtlWrite pn v) s = .next (x.recomputeSubs.wr (SLC_SUB_ST pn) stOk)))) ∧
    (s.pstate pn ≠ 1 → s.pstate pn ≠ 2 → s.subCheck pn v.toNat = stState)

/-- DCF_SLOT_CTL: an enabled slot keeps its partition, stream and VETO; an enable needs a delivering subscription of the
partition to the slot's stream and no other slot of it, and a partition that is QUIESCED or RUNNING; it clears the prescale
count (R140, R143). -/
def Sys2Proof.Claim.SlotControl : Prop :=
  ∀ (s : State) (t : SlotNo) (v : BitVec 32) (new : Nat), s.up →
    new = bits v.toNat 28 4 * 2 ^ 28 + bits v.toNat 8 19 * 2 ^ 8 →
    (bit (s.rd (DCF_SLOT_CTL t)) 31 = true → bits (s.rd (DCF_SLOT_CTL t)) 16 15 ≠ bits new 16 15 →
      exec (.slotCtlWrite t v) s = .next (s.wr (DCF_SLOT_ST t) stState)) ∧
    (bit (s.rd (DCF_SLOT_CTL t)) 31 = false → bit v.toNat 31 = true → (s.slotOf (bits v.toNat 16 11)).isSome = true →
      exec (.slotCtlWrite t v) s = .next (s.wr (DCF_SLOT_ST t) stConflict)) ∧
    (bit (s.rd (DCF_SLOT_CTL t)) 31 = false → bit v.toNat 31 = true → s.slotOf (bits v.toNat 16 11) = none →
      bit (s.rd (SLC_SUB_CTL (bits v.toNat 16 11))) 31 = true → bit (s.rd (SLC_SUB_CTL (bits v.toNat 16 11))) 30 = true →
      bits (s.rd (SLC_SUB_CTL (bits v.toNat 16 11))) 27 2 = bits v.toNat 28 2 → s.permits (bits v.toNat 16 11) = true →
      exec (.slotCtlWrite t v) s = .next
        ((((s.wr (DCF_SLOT_CTL t) new).wr (DCF_SLOT_PSCNT t) 0).countSlots.recomputeSubs).wr (DCF_SLOT_ST t) stOk)) ∧
    (bit (s.rd (DCF_SLOT_CTL t)) 31 = false → bit v.toNat 31 = false →
      exec (.slotCtlWrite t v) s = .next ((((s.wr (DCF_SLOT_CTL t) new).countSlots.recomputeSubs)).wr (DCF_SLOT_ST t) stOk))

/-- At E + F − c every slot bound to the stream is captured for the next sealed slice (R141). A cluster stop sends up to four
DECIDE messages, oldest first, in one packet towards SYS at position 0 (R22, R24). -/
def Sys2Proof.Claim.CaptureAndPackets : Prop :=
  ∀ s : State, s.up →
    (∀ n : Stream, s.strEn n = true → (s.stream n).cap < (s.stream n).next →
      s.sliceEnd n (s.stream n).cap + s.floor n ≤ s.time.tick + cutC s.period →
      ∃ u, exec (.slotCapture n) s = .next (u.setStream n { u.stream n with cap := (s.stream n).cap + 1 }) ∧
        u = s.setSlice n (s.stream n).cap { s.slice n (s.stream n).cap with caps := some ((s.slotsOf n).map s.capture) }) ∧
    (∀ n : Stream, s.time.tick + cutC s.period < s.sliceEnd n (s.stream n).cap + s.floor n → exec (.slotCapture n) s = .next s) ∧
    (∀ c : Clus,
      ((s.cluster c).decq = [] → exec (.decidePacketInject c) s = .next s) ∧
      ((s.cluster c).decq ≠ [] →
        ∃ u, u = s.setCluster c { s.cluster c with decq := (s.cluster c).decq.drop 4 } ∧
          exec (.decidePacketInject c) s = .next
            ((u.withFabric { u.fabric with ring := s.fabric.ring ++ (s.cluster c).decq.take 4 }).sendFlit 1 (stopPos c) 0)))

/-- What becomes of a DECIDE message at the fabric (R142, R397): without a slot it counts in DCF_NOSLOT; of another epoch it is
stale; of a slice past its cut-off it is late; for a slice that is not captured, or that captured another slot, it counts as a bad
slice number; a second result for a slot is a duplicate; else it is the slot's result. -/
def Sys2Proof.Claim.DecideArrival : Prop :=
  ∀ (s s0 : State) (m : DecMsg) (rest : List DecMsg), s.up → s.fabric.ring = m :: rest →
    s0 = (s.withFabric { s.fabric with ring := rest }) →
    (s.slotOf m.pn = none → exec .decideArrival s = .next (s0.count DCF_NOSLOT 1)) ∧
    (∀ t, s.slotOf m.pn = some t →
      (m.epoch ≠ s.epoch m.pn →
        exec .decideArrival s = .next ((s0.count (DCF_SLOT_STALE t) 1).stale m.pn 1 m.epoch)) ∧
      (∀ n st, n = s.fget (DCF_SLOT_CTL t) 28 2 → st = s.stream n → m.epoch = s.epoch m.pn →
        (s.strEn n = true → snRel m.sn (snOf st.cut) = .earlier →
          exec .decideArrival s = .next (s0.count (DCF_SLOT_LATE t) 1)) ∧
        (s.strEn n = false ∨ snRel m.sn (snOf st.cut) ≠ .earlier → ∀ r,
          ((List.range (st.cap - st.cut)).map (st.cut + ·)).find? (fun k => snOf k == m.sn) = r →
          (r = none → exec .decideArrival s = .next (s0.count (DCF_SLOT_BADSN t) 1)) ∧
          (∀ k, r = some k →
            (firstIdx (fun q => q.slot == t && q.pn == m.pn) 0 ((s.slice n k).caps.getD []) = none →
              exec .decideArrival s = .next (s0.count (DCF_SLOT_BADSN t) 1)) ∧
            (∀ i q, firstIdx (fun q => q.slot == t && q.pn == m.pn) 0 ((s.slice n k).caps.getD []) = some (i, q) →
              (q.done ≠ none → exec .decideArrival s = .next (s0.count (DCF_SLOT_DUP t) 1)) ∧
              (q.done = none → exec .decideArrival s = .next (s0.setSlice n k
                { s.slice n k with caps := some (setIdx ((s.slice n k).caps.getD []) i { q with done := some m.ty }) })))))))

/-- Before the cut-off E + D − c the fabric decides nothing; at it the decision of the oldest captured slice is formed from the
captured slots, those without a result taking their default, and an accepted slice enters the creation queue; after a power failure
it is a rejection (R337). The decision word leaves in its slot on the outputs TIM_DOL_CTL enables and counts there and, where the
slice is accepted, in DCF_ACC (R55, R56, R143 to R147). -/
def Obligations.Decision : Prop :=
  ∀ (s : State) (n : Stream), s.up →
    (s.time.tick < s.cutTick n (s.stream n).cut → exec (.cutoff n) s = .next s) ∧
    (∀ (k : Nat) (s1 : State) (a v tt : Nat) (d : Bool), k = (s.stream n).cut → s.strEn n = true → k < (s.stream n).cap →
      s.cutTick n k ≤ s.time.tick →
      s.combine (snOf k) (s.cutTick n k) (s.slice n k) ((s.slice n k).caps.getD []) 0 0 false = (s1, a, v, d) →
      (s.readout.powerFail = none → tt = maskTypes a v (s1.fget DCF_CTL 0 8)) →
      (∀ t, s.readout.powerFail = some t →
        (t < s.cutTick n k → tt = 0) ∧ (s.cutTick n k ≤ t → tt = maskTypes a v (s1.fget DCF_CTL 0 8))) →
      ∃ (c : List (Nat × Nat × Nat)) (u w : State),
        u = s1.setSlice n k { s1.slice n k with decided := some (tt != 0, tt, d), counted := c } ∧
        w = (((u.setStream n { u.stream n with cut := k + 1 }).dirFlag n k 8 (tt != 0)).dirFlag n k 7 d).dirTt n k tt ∧
        (∀ e ∈ c, e.2.1 = s.rd e.1 ∧ e.2.2 = s1.rd e.1 ∧ s.rd e.1 ≠ s1.rd e.1) ∧
        exec (.cutoff n) s = .next (if tt = 0 then w else w.queueCreate n k (w.readersOf n k))) ∧
    (s.time.tick + 1 < s.sliceEnd n (s.stream n).out + s.strD n → exec (.decisionWord n) s = .next s) ∧
    (s.canonical = true → ∀ (k tt : Nat) (acc d : Bool), k = (s.stream n).out → s.strEn n = true → k < (s.stream n).cut →
      s.sliceEnd n k + s.strD n ≤ s.time.tick + 1 → (s.slice n k).decided = some (acc, tt, d) →
      ∃ u w, u = (if acc = true then s.count64 DCF_ACC_LO 1 else s) ∧
        w = (if s.fbit TIM_DOL_CTL 0 = true ∨ s.fbit TIM_DOL_CTL 1 = true then
            (u.countWrap TIM_DOL_WORDS 1).emit (.dol (s.fbit TIM_DOL_CTL 0) (s.fbit TIM_DOL_CTL 1) 0x3C
              (BitVec.ofNat 24 (decisionData n acc d (snOf k) tt)))
          else u).withTime { s.time with dolTick := some s.time.tick } ∧
        exec (.decisionWord n) s = .next (w.setStream n
          { w.stream n with out := k + 1, recs := (w.stream n).recs.filter (fun e => k < e.1 || w.sliceNeeded n e.1) }))

/-- The DECISION word carries the stream, ACC, DEF, the low four bits of SN and the trigger types
(R146). -/
def Sys2Proof.Claim.DecisionWordFields : Prop :=
  ∀ (n sn tt : Nat) (acc d : Bool), n < 4 → tt < 256 →
    bits (decisionData n acc d sn tt) 22 2 = n ∧ bit (decisionData n acc d sn tt) 21 = acc ∧
    bit (decisionData n acc d sn tt) 20 = d ∧ bits (decisionData n acc d sn tt) 16 4 = sn % 16 ∧
    bits (decisionData n acc d sn tt) 8 8 = tt

/-- A slot's captured result counts in the OR of its types, masked and prescaled; a veto slot's types are taken out; the types
sent are those of some slot that neither a veto nor DCF_CTL.INHIBIT takes out (R143). -/
def Sys2Proof.Claim.VetoWins : Prop :=
  ∀ (a v inh i : Nat), i < 8 →
    (bit (maskTypes a v inh) i = true ↔ bit a i = true ∧ bit v i = false ∧ bit inh i = false)

/-- Enabling and stopping a stream (R51, R149): StreamEnable, StreamStop. -/
def Sys2Proof.Claim.StreamControl : Prop := Claim.StreamEnable ∧ Claim.StreamStop

/-- From a sealed slice to the partition (R132, R135 to R139): RegionSums, NoticeDelivery, HitCopy. -/
def Obligations.SliceDelivery : Prop := Claim.RegionSums ∧ Claim.NoticeDelivery ∧ Claim.HitCopy

/-- The control registers of subscriptions and slots (R133, R134, R140): SubscriptionControl, SlotControl. -/
def Sys2Proof.Claim.SubscriptionsAndSlots : Prop := Claim.SubscriptionControl ∧ Claim.SlotControl

/-- The way of a DECIDE message into a captured slot (R24, R141, R142): CaptureAndPackets, DecideArrival. -/
def Obligations.DecideMessages : Prop := Claim.CaptureAndPackets ∧ Claim.DecideArrival

/-- In UP an FSTART ends an open frame in error and opens a new one, unless its base lies further ahead than FEL_AHEAD, which
counts in FEL_ERR_TIME and discards blocks until the next FSTART; outside UP a block does nothing. Outside SYNCED and HOLDOVER the
frame's hits carry no time, and the frame counts in FEL_NOTIME (R68, R76). -/
def Sys2Proof.Claim.FrameStart : Prop :=
  ∀ (s u : State) (l : Lane) (base : BitVec 56) (d : Int), s.up →
    (s.lstate l ≠ 4 → exec (.fstart l base) s = .next s) ∧
    (s.lstate l = 4 →
      u = (if ((s.header l false).lane l).frame.isSome = true then (s.header l false).frameError l else s.header l false) →
      d = baseDelta base.toNat (u.time.tick * 16) →
      (u.tstate = 2 ∨ u.tstate = 3 → (u.fget FEL_AHEAD 0 16 * 16 : Int) < d →
        exec (.fstart l base) s = .next ((u.count (FEL_ERR_TIME l) 1).setLane l { u.lane l with frame := none, discard := true })) ∧
      (u.tstate = 2 ∨ u.tstate = 3 → d ≤ (u.fget FEL_AHEAD 0 16 * 16 : Int) →
        exec (.fstart l base) s = .next (u.setLane l { u.lane l with
          discard := false
          frame := some { base := wrap 64 ((u.time.tick * 16 : Nat) + d : Int), hits := 0,
                          crc := crcRun crcInit (leBytes 8 (base.toNat * 256 + 0x78)), timed := true, span := none, cur := none } })) ∧
      (u.tstate ≠ 2 → u.tstate ≠ 3 →
        exec (.fstart l base) s = .next ((u.count (FEL_NOTIME l) 1).setLane l { u.lane l with
          discard := false
          frame := some { base := wrap 64 ((u.time.tick * 16 : Nat) + d : Int), hits := 0,
                          crc := crcRun crcInit (leBytes 8 (base.toNat * 256 + 0x78)), timed := false, span := none, cur := none } })))

/-- A data block of an open frame is a sample block where one is due, else a hit block. A hit block with reserved bits counts in
FEL_ERR_RSVD, one with more than 64 samples in FEL_TRUNC and keeps 64; without samples it is passed on at once; the 255th hit is a
frame error; a data block outside a frame counts one. The last sample kept passes the hit on: with the frame timed, its hit enters the
lane entry queue. Both data-block commands act so (R69, R70, R71, R75, R76). -/
def Sys2Proof.Claim.DataBlocks : Prop :=
  (∀ (s u : State) (l : Lane) (w : BitVec 64) (c : Instr), s.up → s.lstate l = 4 → u = s.header l false →
    c = .compactHit l w ∨ c = .sampleBlock l w →
    ((u.lane l).discard = true → exec c s = .next u) ∧
    ((u.lane l).discard = false →
      ((u.lane l).frame = none → exec c s = .next (u.count (FEL_ERR_FRAME l) 1)) ∧
      (∀ f : Frame, (u.lane l).frame = some f →
        (f.cur = none → 254 ≤ f.hits → exec c s = .next (u.frameError l)) ∧
        (∀ (n x : Nat) (v : State), f.cur = none → f.hits < 254 → n = bits w.toNat 0 8 →
          x = putBits (putBits w.toNat 12 2 (if 64 < n then 2 else 0)) 0 8 (min n 64) →
          v = (if 64 < n then (if bits w.toNat 12 2 ≠ 0 then u.count (FEL_ERR_RSVD l) 1 else u).count (FEL_TRUNC l) 1
            else if bits w.toNat 12 2 ≠ 0 then u.count (FEL_ERR_RSVD l) 1 else u) →
          (n = 0 → exec c s = .next (v.passHit l { f with crc := crcRun f.crc (leBytes 8 w.toNat), hits := f.hits + 1 }
            (BitVec.ofNat 64 x) [])) ∧
          (n ≠ 0 → exec c s = .next (v.setLane l { v.lane l with
            frame := some { f with crc := crcRun f.crc (leBytes 8 w.toNat), hits := f.hits + 1,
                                   cur := some (BitVec.ofNat 64 x, ceilDiv n 4, []) } }))) ∧
        (∀ (h : Word) (due : Nat) (kept k' : List (BitVec 16)) (g : Frame), f.cur = some (h, due, kept) →
          k' = (kept ++ blockSamples w).take (bits h.toNat 0 8) →
          g = { f with crc := crcRun f.crc (leBytes 8 w.toNat), cur := if due ≤ 1 then none else some (h, due - 1, k') } →
          (kept.length < bits h.toNat 0 8 → k'.length = bits h.toNat 0 8 → exec c s = .next (u.passHit l g h k')) ∧
          (bits h.toNat 0 8 ≤ kept.length ∨ k'.length ≠ bits h.toNat 0 8 →
            exec c s = .next (u.setLane l { u.lane l with frame := some g })))))) ∧
  (∀ (s : State) (l : Lane) (f : Frame) (w : Word) (sm : List (BitVec 16)),
    (f.timed = false → s.passHit l f w sm = s.setLane l { s.lane l with frame := some f }) ∧
    (f.timed = true → s.passHit l f w sm = s.setLane l { s.lane l with
      frame := some { f with queued := f.queued + 1 }
      entryq := (s.lane l).entryq ++
        [{ lane := l, word := w, ts := (f.base + bits w.toNat 30 16) % 2 ^ 64, samples := sm }] }))

/-- A frame ends well when its CRC, its hit count and its last hit are right: it counts in FEL_FRAMES, its sequence number stands
in FEL_FSEQ and a gap to the one before counts in FEL_SEQ_GAP; a wrong CRC counts and ends the frame in error, a wrong hit count ends it
in error; an FEND outside a frame counts one (R72, R73, R76). An FEND with samples due is a frame error (log entry 47). -/
def Sys2Proof.Claim.FrameEnd : Prop :=
  ∀ (s u : State) (l : Lane) (w : BitVec 64), s.up → s.lstate l = 4 → u = s.header l false → (u.lane l).discard = false →
    ((u.lane l).frame = none → exec (.fend l w) s = .next (u.count (FEL_ERR_FRAME l) 1)) ∧
    (∀ f : Frame, (u.lane l).frame = some f →
      (f.cur ≠ none → exec (.fend l w) s = .next (u.frameError l)) ∧
      (f.cur = none → crcFinal (crcRun f.crc (leBytes 3 (w.toNat / 2 ^ 40))) ≠ bits w.toNat 8 32 →
        exec (.fend l w) s = .next ((u.count (FEL_ERR_CRC l) 1).frameError l)) ∧
      (f.cur = none → crcFinal (crcRun f.crc (leBytes 3 (w.toNat / 2 ^ 40))) = bits w.toNat 8 32 →
        (bits w.toNat 56 8 ≠ f.hits ∨ bits w.toNat 56 8 = 255 → exec (.fend l w) s = .next (u.frameError l)) ∧
        (bits w.toNat 56 8 = f.hits → f.hits ≠ 255 →
          ∃ v, v = (if (u.lane l).refSeq = true then
              u.count (FEL_SEQ_GAP l) ((bits w.toNat 40 16 + 2 * 2 ^ 16 - u.fget (FEL_FSEQ l) 0 16 - 1) % 2 ^ 16) else u) ∧
            exec (.fend l w) s = .next (((v.countWrap (FEL_FRAMES l) 1).wr (FEL_FSEQ l) (bits w.toNat 40 16)).setLane l
              { u.lane l with frame := none, refSeq := true }))))

/-- Other blocks: an idle block adds only its sync header; a control block of another type is a frame error in a frame
and counts one outside; the headers of a response frame's blocks all count, a response without error is taken into the receive buffer
and raises the lane's event, one that finds it held counts in FEL_RX_OVF, one with a wrong CRC in FEL_ERR_CRC, one whose blocks are not
LEN counts a frame error (log entry 47); releasing the buffer clears VALID (R67, R76, R83). An invalid sync header in TRAIN only counts;
in UP it counts, ends an open frame in error and enters the windows of R87, and the 16th in 64 headers, or one more than BER_LIM within
125 µs, loses the lane; which of the older ones lie within 125 µs is `bad` (R77, R87). -/
def Sys2Proof.Claim.OtherBlocks : Prop :=
  ∀ (s u : State) (l : Lane), s.up → u = s.header l false →
    (s.lstate l = 4 → exec (.idleBlock l) s = .next u) ∧ (s.lstate l ≠ 4 → exec (.idleBlock l) s = .next s) ∧
    (∀ ty : BitVec 8, s.lstate l = 4 → (u.lane l).discard = false → rxTypes.contains ty.toNat = false →
      ((u.lane l).frame = none → exec (.reservedControlBlock l ty) s = .next (u.count (FEL_ERR_FRAME l) 1)) ∧
      ((u.lane l).frame ≠ none → exec (.reservedControlBlock l ty) s = .next (u.frameError l))) ∧
    (∀ (hdr cend : Word) (data : List Word) (x : State), s.lstate l = 4 → (u.lane l).discard = false → (u.lane l).frame = none →
      x = (s.headers l (List.replicate (data.length + 1) false)).header l false →
      (data.length ≠ bits hdr.toNat 40 8 ∨ 32 < data.length →
        exec (.responseFrame l hdr data cend) s = .next (x.count (FEL_ERR_FRAME l) 1)) ∧
      (data.length = bits hdr.toNat 40 8 → data.length ≤ 32 →
        (ctlCrc hdr.toNat (data.map (·.toNat)) ≠ bits cend.toNat 8 32 →
          exec (.responseFrame l hdr data cend) s = .next (x.count (FEL_ERR_CRC l) 1)) ∧
        (ctlCrc hdr.toNat (data.map (·.toNat)) = bits cend.toNat 8 32 → x.fbit (FEL_RXSTAT l) 0 = true →
          exec (.responseFrame l hdr data cend) s = .next (x.count (FEL_RX_OVF l) 1)) ∧
        (ctlCrc hdr.toNat (data.map (·.toNat)) = bits cend.toNat 8 32 → x.fbit (FEL_RXSTAT l) 0 = false →
          ∃ v, v = (x.wr (FEL_RXSTAT l) (bits hdr.toNat 48 16 * 2 ^ 16 + data.length * 2 ^ 8 + 1)).wr (FEL_RXINFO l)
              (bits hdr.toNat 24 16) ∧
            exec (.responseFrame l hdr data cend) s = .next (((List.range data.length).foldl
              (fun v i => v.wr64 (FEL_RXBUF l (2 * i)) (data.getD i 0).toNat) v).felEvent l)))) ∧
    exec (.responseRelease l) s = .next (s.fset (FEL_RXSTAT l) 0 1 0) ∧
    (s.lstate l = 3 → exec (.invalidSyncHeader l) s = .next (s.count (FEL_ERR_SYNC l) 1)) ∧
    (s.lstate l ≠ 3 → s.lstate l ≠ 4 → exec (.invalidSyncHeader l) s = .next s) ∧
    (s.lstate l = 4 → ∃ (x y v : State) (bad : List (Option Nat)),
      x = (s.count (FEL_ERR_SYNC l) 1).header l true ∧
      y = (if (x.lane l).frame.isSome = true then x.frameError l else x) ∧
      y.recentBad (y.lane l).badTicks = (bad, v) ∧ v.regs = y.regs ∧ v.lanes = y.lanes ∧
      ∃ z b, b = ((if v.period = 0 then none else some v.time.tick) :: bad).take (y.fget (FEL_CFG l) 16 16 + 1) ∧
        z = v.setLane l { y.lane l with badTicks := b } ∧
        (16 ≤ ((y.lane l).hdrs.filter (fun b => b)).length ∨ y.fget (FEL_CFG l) 16 16 < b.length →
          exec (.invalidSyncHeader l) s = .next (z.laneLoss l)) ∧
        (((y.lane l).hdrs.filter (fun b => b)).length < 16 → b.length ≤ y.fget (FEL_CFG l) 16 16 →
          exec (.invalidSyncHeader l) s = .next z))

/-- A write of FEL_SWCMD while a software command waits is refused with ST_BUSY; else the command waits for the next tick, or for the one
after it where an FE_CMD has that tick (R81); at its tick it takes its place among the commands of the lanes of its mask in UP, and
FEL_SWCMD_ST reads ST_OK, or ST_DOWN where no lane takes it; one not sent within 16 ticks of its write is dropped with ST_BUSY. Every lane
then sends what is due (R80). -/
def Sys2Proof.Claim.SoftwareCommands : Prop :=
  ∀ s : State, s.up →
    (∀ (arg : BitVec 16) (c : SwCmd), s.swcmd = some c → exec (.swcmd arg) s = .next (s.wr FEL_SWCMD_ST stBusy)) ∧
    (∀ arg : BitVec 16, s.swcmd = none →
      exec (.swcmd arg) s = .next (s.withSwcmd (some
        { arg := arg.toNat, mask := s.rd64 FEL_SWCMD_MASK_LO, written := s.time.tick,
          tick := if s.time.cmdTick = some (s.time.tick + 1) then s.time.tick + 2 else s.time.tick + 1 }))) ∧
    (∀ c : SwCmd, s.swcmd = some c →
      (c.written + 16 ≤ s.time.tick → exec .swcmdDrop s = .next ((s.withSwcmd none).wr FEL_SWCMD_ST stBusy)) ∧
      (s.time.tick < c.written + 16 → exec .swcmdDrop s = .next s)) ∧
    (s.swcmd = none → exec .swcmdDrop s = .next s) ∧
    (∀ (c : SwCmd) (ls : List Nat), s.swcmd = some c → c.tick ≤ s.time.tick →
      ls = (List.range 64).filter (fun l => bit c.mask l && s.lstate l == 4) →
      ∃ u, u = ls.foldl (fun (u : State) l =>
          u.setLane l { u.lane l with cmdq := queueCmd { tick := c.tick, arg := c.arg } (u.lane l).cmdq }) s ∧
        exec .cmdBlockSend s = .next ((List.range 64).foldl State.cmdSendLane
          ((u.withSwcmd none).wr FEL_SWCMD_ST (if ls = [] then stDown else stOk)))) ∧
    (s.swcmd = none ∨ (∃ c, s.swcmd = some c ∧ s.time.tick < c.tick) →
      exec .cmdBlockSend s = .next ((List.range 64).foldl State.cmdSendLane s))

/-- One lane sends at most one due command in a tick: in UP the oldest, when its instant has come; a lane not in UP drops its
due commands (R80). Where a control frame is in transmission, a free number `n` of its data blocks leaves before the CMD block
(R79). -/
def Sys2Proof.Claim.CommandQueue : Prop :=
  ∀ (s : State) (l : Nat),
    (s.lstate l ≠ 4 → s.cmdSendLane l = s.setLane l { s.lane l with cmdq := (s.lane l).cmdq.filter (fun c => !s.cmdDue l c) }) ∧
    (∀ (c : FeCmd) (rest : List FeCmd), s.lstate l = 4 → (s.lane l).cmdq = c :: rest → s.cmdDue l c = true →
      (s.lane l).cmdSent ≠ some s.time.tick →
      ∃ u : State, u = s.txBefore l ∧
        ((s.txLeft l = [] ∧ u = s) ∨ (∃ n, n ≤ (s.txLeft l).length ∧ u = s.draw.2.txBlocks l n)) ∧
        s.cmdSendLane l = (u.setLane l { u.lane l with cmdq := rest, cmdSent := some s.time.tick }).emit
          (.fe l true (cmdBlock c))) ∧
    (∀ (c : FeCmd) (rest : List FeCmd), s.lstate l = 4 → (s.lane l).cmdq = c :: rest →
      (s.cmdDue l c = false ∨ (s.lane l).cmdSent = some s.time.tick) → s.cmdSendLane l = s) ∧
    (s.lstate l = 4 → (s.lane l).cmdq = [] → s.cmdSendLane l = s)

/-- An FE_CMD from the TIL is queued on every enabled lane for the next tick, while the receiver is ALIGNED; it puts a waiting
software command of that tick off by one (R48, R80, R81). -/
def Sys2Proof.Claim.FeCommand : Prop :=
  ∀ (s : State) (arg : BitVec 16), s.up →
    (s.aligned = false → exec (.feCmd arg) s = .next s) ∧
    (s.aligned = true →
      ∃ u, u = (List.range 64).foldl (fun (u : State) l =>
          if u.fbit (FEL_CTL l) 0 then
            u.setLane l { u.lane l with cmdq := (u.lane l).cmdq ++ [{ tick := s.time.tick + 1, arg := arg.toNat }] }
          else u) s ∧
        exec (.feCmd arg) s = .next
          ((u.withTime { u.time with cmdTick := some (s.time.tick + 1) }).withSwcmd (u.swcmd.map (fun c =>
            if c.tick = s.time.tick + 1 then { c with tick := c.tick + 1 } else c))))

/-- GO in UP without a frame in progress takes the next CSEQ, sets BUSY and sends the frame's header; its end sends the data blocks that
have not left yet and the CEND with its CRC, and reports ST_OK. GO outside UP answers ST_STATE and GO while BUSY answers ST_BUSY
(R79, R82). -/
def Sys2Proof.Claim.ControlFrames : Prop :=
  ∀ (s : State) (l : Lane), s.up →
    (s.lstate l ≠ 4 → exec (.txctlGo l) s = .next (s.fset (FEL_TXSTAT l) 0 8 stState)) ∧
    (s.lstate l = 4 → s.fbit (FEL_TXSTAT l) 8 = true → exec (.txctlGo l) s = .next (s.fset (FEL_TXSTAT l) 0 8 stBusy)) ∧
    (s.lstate l = 4 → s.fbit (FEL_TXSTAT l) 8 = false →
      ∃ q u, q = (s.fget (FEL_TXSTAT l) 16 16 + 1) % 2 ^ 16 ∧ u = s.wr (FEL_TXSTAT l) (q * 2 ^ 16 + 0x100) ∧
        exec (.txctlGo l) s = .next ((u.setLane l { u.lane l with txSent := 0 }).emit
          (.fe l true (BitVec.ofNat 64 (u.chdr l q))))) ∧
    (s.fbit (FEL_TXSTAT l) 8 = false → exec (.controlFrameEnd l) s = .next s) ∧
    (s.fbit (FEL_TXSTAT l) 8 = true →
      ∃ u, u = (((s.txData l).drop (s.lane l).txSent).take 32).foldl (fun (v : State) w => v.emit (.fe l false (BitVec.ofNat 64 w))) s ∧
        exec (.controlFrameEnd l) s = .next ((((u.setLane l { s.lane l with
            txSent := (s.lane l).txSent + min 32 ((s.txData l).length - (s.lane l).txSent) }).emit (.fe l true (BitVec.ofNat 64
          (ctlCrc (s.chdr l (s.fget (FEL_TXSTAT l) 16 16)) (s.txData l) * 256 + 0xAA)))).fset (FEL_TXSTAT l) 8 1 0).fset
            (FEL_TXSTAT l) 0 8 stOk))

/-- The lane states of R84 to R90: CDR lock enters BLOCK and block lock enters TRAIN; a timeout ends the attempt in progress, and in
another state, or while a retry is due, nothing happens; a retry begins another attempt; the eighth failure enters FAILED and starts
the analog checks; a lane in UP that is lost enters LOST, counts it and is absent from then on; LOST trains again with AUTO = 1; RESTART
acts in LOST and FAILED and answers ST_STATE elsewhere. -/
def Sys2Proof.Claim.LaneStates : Prop :=
  ∀ (s : State) (l : Lane), s.up →
    (s.lstate l = 1 → (s.lane l).retry = false → exec (.cdrLock l) s = .next (s.setLstate l 2) ∧
      exec (.cdrTimeout l) s = .next (s.attemptFails l)) ∧
    (s.lstate l = 2 → (s.lane l).retry = false → exec (.blockLock l) s = .next (s.setLstate l 3) ∧
      exec (.blockLockTimeout l) s = .next (s.attemptFails l)) ∧
    (s.lstate l = 3 → (s.lane l).retry = false → exec (.trainingTimeout l) s = .next (s.attemptFails l) ∧
      exec (.trainRequest l) s = .next (s.emit (.fe l true (s.trainBlock l 1)))) ∧
    ((s.lane l).retry = true → ∀ c ∈ [Instr.cdrLock l, .cdrTimeout l, .blockLock l, .blockLockTimeout l, .trainingTimeout l,
      .trainRequest l], exec c s = .next s) ∧
    ((s.lane l).retry = true → exec (.attemptRetry l) s = .next
      ((s.setLane l { s.lane l with retry := false, rtts := [], checking := false }).setLstate l 1)) ∧
    ((s.lane l).retry = false → exec (.attemptRetry l) s = .next s) ∧
    (s.lstate l = 5 → s.fbit (FEL_CTL l) 3 = true → exec (.lostRetrain l) s = .next
      ((s.setLane l { s.lane l with retry := false, rtts := [], checking := false }).setLstate l 1)) ∧
    (s.lstate l = 5 → s.fbit (FEL_CTL l) 3 = false → exec (.lostRetrain l) s = .next s) ∧
    (s.lstate l = 5 ∨ s.lstate l = 6 → exec (.laneRestart l) s = .next
      (((s.fset (FEL_STAT l) 4 4 0).attempt l).felLast l stOk)) ∧
    (s.lstate l ≠ 5 → s.lstate l ≠ 6 → exec (.laneRestart l) s = .next (s.fset (FEL_STAT l) 8 8 stState)) ∧
    (s.lstate l ≠ 4 → exec (.laneLoss l) s = .next s) ∧
    (s.lstate l = 4 → ∃ u v : State, u = (s.setLane l (s.lane l).flush).leaveUp l ∧
      v = ((u.setLane l { u.lane l with hdrs := [], badTicks := [], retry := false }).count (FEL_LOSS l) 1).setLstate l 5 ∧
      exec (.laneLoss l) s = .next (v.loseLane l ((v.time.tick * 16 : Nat) -
        ((if v.period = 0 then 0 else ceilDiv (16 * v.lossLead l) v.period : Nat) : Int)))) ∧
    (∀ n, n = min (s.fget (FEL_STAT l) 4 4 + 1) 8 →
      ∃ u, u = s.fset (FEL_STAT l) 4 4 n ∧
        (n < 8 → s.attemptFails l = u.setLane l { u.lane l with retry := true }) ∧
        (n = 8 → ∃ v, v = (u.setLstate l 6).fset (FEL_DIAG l) 0 4 0 ∧
          s.attemptFails l = (v.setLane l { v.lane l with retry := false, checking := true }).felEvent l))

/-- An echo of a training in progress with another lane number ends the attempt; one with PHASE other than 2 is ignored; else it joins
the last 16, and when these are consistent the lane sends the ready block, reports the round-trip time of this echo, 0 in NOLOCK, and
enters UP (R86). The analog checks of a FAILED lane end with their result in FEL_DIAG; any but result 1 retires the lane with its power
group, and result 4 also runs the checks of the PLL and the bandgap (R89, R430, R434). -/
def Sys2Proof.Claim.TrainingAndChecks : Prop :=
  ∀ (s : State) (l : Lane), s.up →
    (∀ (w : BitVec 64) (rtt : BitVec 20), s.lstate l = 3 → (s.lane l).retry = false →
      (bits w.toNat 48 4 ≠ 2 → exec (.trainEcho l w rtt) s = .next s) ∧
      (bits w.toNat 48 4 = 2 → bits w.toNat 52 6 ≠ l → exec (.trainEcho l w rtt) s = .next
        (((s.fset (FEL_STAT l) 18 6 (bits w.toNat 52 6)).fset (FEL_STAT l) 17 1 1).attemptFails l)) ∧
      (bits w.toNat 48 4 = 2 → bits w.toNat 52 6 = l → ∀ (rs : List (Option Nat)) (u : State),
        rs = ((if s.tstate = 0 then none else some rtt.toNat) :: (s.lane l).rtts).take 16 →
        u = s.setLane l { s.lane l with rtts := rs } →
        (trained (s.tstate != 0) rs = false → exec (.trainEcho l w rtt) s = .next u) ∧
        (trained (s.tstate != 0) rs = true → exec (.trainEcho l w rtt) s = .next
          (((u.emit (.fe l true (u.trainBlock l 3))).wr (FEL_RTT l) (if s.tstate = 0 then 0 else 2 ^ 31 + rtt.toNat)).enterUp l)))) ∧
    (∀ (locked : Bool) (rs : List (Option Nat)), trained locked rs = true ↔
      rs.length = 16 ∧ (locked = true → ∀ a ∈ rs, ∀ b ∈ rs, ∃ x y, a = some x ∧ b = some y ∧ x ≤ y + 2)) ∧
    (∀ (r : BitVec 4) (eyeH eyeV : BitVec 8), s.lstate l = 6 → (s.lane l).checking = true → 1 ≤ r.toNat → r.toNat ≤ 4 →
      ∃ u v, u = s.wr (FEL_DIAG l) (eyeV.toNat % 256 * 2 ^ 16 + eyeH.toNat % 256 * 2 ^ 8 + r.toNat) ∧
        v = u.setLane l { u.lane l with checking := false } ∧
        (r = 1 → exec (.analogChecksDone l r eyeH eyeV) s = .next v) ∧
        (r.toNat = 2 ∨ r.toNat = 3 → exec (.analogChecksDone l r eyeH eyeV) s = .next
          ((v.retireLane l).retireUnit (106 + l / 4) srcFel stDown)) ∧
        (r = 4 → exec (.analogChecksDone l r eyeH eyeV) s = .next
          (((v.retireLane l).retireUnit (106 + l / 4) srcFel stDown).pllChecks (106 + l / 4))))

/-- FEL_CTL: a reserved RATE is refused with ST_ARG, a lane under test with ST_TESTING, a change of a frozen field of an enabled
lane with ST_STATE, an enable that would raise a floor above a running deadline with ST_CONFLICT; a write that is accepted
stands, without RESTART, and reports ST_OK; it takes the lane to OFF where it clears EN, has the votes of its power group formed anew,
begins training where the lane is enabled in a running group, and restarts it where RESTART is set (R9, R58, R84, R85, R90, R92, R438). -/
def Sys2Proof.Claim.LaneControl : Prop :=
  ∀ (s : State) (l : Lane) (v : BitVec 32), s.up →
    (2 ≤ bits v.toNat 1 2 → exec (.felCtlWrite l v) s = .next ((s.felLast l stArg).errLog stArg srcFel none (FEL_CTL l))) ∧
    (bits v.toNat 1 2 < 2 → s.underTest (106 + l / 4) = true →
      exec (.felCtlWrite l v) s = .next (s.felLast l stTesting)) ∧
    (bits v.toNat 1 2 < 2 → s.underTest (106 + l / 4) = false →
      (bit (s.rd (FEL_CTL l)) 0 = true →
        bits v.toNat 1 2 ≠ bits (s.rd (FEL_CTL l)) 1 2 ∨ bits v.toNat 5 2 ≠ bits (s.rd (FEL_CTL l)) 5 2 →
        exec (.felCtlWrite l v) s = .next (s.felLast l stState)) ∧
      (bit (s.rd (FEL_CTL l)) 0 = false ∨
          (bits v.toNat 1 2 = bits (s.rd (FEL_CTL l)) 1 2 ∧ bits v.toNat 5 2 = bits (s.rd (FEL_CTL l)) 5 2) →
        (s.enBreaksFloor l v.toNat = true →
          exec (.felCtlWrite l v) s = .next ((s.felLast l stConflict).errLog stConflict srcFel none (FEL_CTL l))) ∧
        (s.enBreaksFloor l v.toNat = false →
          ∃ u w, u = (s.wr (FEL_CTL l) (putBits (bits v.toNat 0 7) 4 1 0)).felLast l stOk ∧
            w = ((if bit v.toNat 0 = false ∧ bit (s.rd (FEL_CTL l)) 0 = true then u.laneOff l else u).reeval
              (106 + l / 4)).laneStart l ∧
            exec (.felCtlWrite l v) s = .next (if bit v.toNat 4 = true then w.laneRestart l else w))))

/-- What arrives on a lane (R67 to R77, R83): FrameStart, DataBlocks, FrameEnd, OtherBlocks. -/
def Obligations.LaneReceive : Prop := Claim.FrameStart ∧ Claim.DataBlocks ∧ Claim.FrameEnd ∧ Claim.OtherBlocks

/-- What a lane sends (R48, R79 to R82): SoftwareCommands, CommandQueue, FeCommand, ControlFrames. -/
def Obligations.LaneTransmit : Prop :=
  Claim.SoftwareCommands ∧ Claim.CommandQueue ∧ Claim.FeCommand ∧ Claim.ControlFrames

/-- The states of a lane (R84 to R90, R92): LaneStates, TrainingAndChecks, LaneControl. -/
def Obligations.LaneStateMachine : Prop := Claim.LaneStates ∧ Claim.TrainingAndChecks ∧ Claim.LaneControl

/-- A hit that leaves the lane entry queue counts in FEL_HITS (`u`); with the channel processor off it is dropped and counts in CTB_OFF; one
with a channel number beyond CTB_NCHAN is suppressed and counts in CTB_ERR_CN; one that finds its descriptor is processed with it; one
that does not, or whose entry is uncorrectable, misses (R94, R100, R108, R110, R113, R121). -/
def Sys2Proof.Claim.HitLookup : Prop :=
  ∀ (s u : State) (l : Lane) (ecc : Ecc), s.up →
    ((s.lane l).entryq = [] → exec (.hitLookup l ecc) s = .next s) ∧
    (∀ (h : Hit) (rest : List Hit), (s.lane l).entryq = h :: rest → u = s.passOn l h rest →
      (u.fbit CTB_CTL 0 = false → exec (.hitLookup l ecc) s = .next (u.count CTB_OFF 1)) ∧
      (u.fbit CTB_CTL 0 = true → u.fget CTB_NCHAN 0 19 ≤ h.cn →
        exec (.hitLookup l ecc) s = .next ((u.count CTB_ERR_CN 1).suppress)) ∧
      (u.fbit CTB_CTL 0 = true → h.cn < u.fget CTB_NCHAN 0 19 →
        (∀ i e, (u.bank (l / 2)).find h.cn = some (i, e) →
          exec (.hitLookup l .ok) s = .next (u.serveHit h e) ∧
          exec (.hitLookup l .corrected) s = .next ((u.count CTB_ECC_CORR 1).serveHit h e) ∧
          exec (.hitLookup l .uncorrectable) s = .next
            ((u.setBank (l / 2) { u.bank (l / 2) with entries := tabDel (u.bank (l / 2)).entries i }).miss (l / 2) h)) ∧
        ((u.bank (l / 2)).find h.cn = none → exec (.hitLookup l ecc) s = .next (u.miss (l / 2) h))))

/-- What processing does with a hit (R100 to R106, R112): a poisoned entry suppresses it as malformed; against a well-formed descriptor,
in this order, an unused channel, another lane, MMODE 1, a drop flag, and an amplitude below threshold suppress it; else it is accepted
or flagged, counts so, and is binned with its corrected amplitude, region, routes and kept samples. -/
def Sys2Proof.Claim.HitProcessing : Prop :=
  (∀ (s : State) (h : Hit) (e : DescEntry),
    (e.poisoned = true → s.serveHit h e = (s.count CTB_ERR_DESC 1).suppress) ∧
    (e.poisoned = false → s.serveHit h e = s.processHit h e.image.toNat)) ∧
  (∀ (s : State) (h : Hit) (img amp : Nat) (ca : Int) (sat : Bool), amp = bits h.word.toNat 14 16 →
    corrected amp (dfield img 1 48 16) (dfield img 1 6 10) = (ca, sat) →
    (dfield img 0 63 1 = 0 → s.processHit h img = (s.count CTB_UNUSED 1).suppress) ∧
    (dfield img 0 63 1 = 1 →
      (h.lane ≠ dfield img 0 54 6 → s.processHit h img = (s.count CTB_ERR_LANE 1).suppress) ∧
      (h.lane = dfield img 0 54 6 →
        (dfield img 0 52 2 = 1 ∨ Nat.land (bits h.word.toNat 8 4) (dfield img 0 32 4) ≠ 0 ∨
          zsPass (dfield img 1 4 2) ca (sext 16 (dfield img 1 32 16)) = false → s.processHit h img = s.suppress) ∧
        (dfield img 0 52 2 ≠ 1 → Nat.land (bits h.word.toNat 8 4) (dfield img 0 32 4) = 0 →
          zsPass (dfield img 1 4 2) ca (sext 16 (dfield img 1 32 16)) = true →
          ∃ (fr : Nat) (u : State),
            (bit fr 3 = sat ∧ (bit fr 1 = true ↔ Nat.land (bits h.word.toNat 8 4) (dfield img 0 28 4) ≠ 0) ∧
              (bit fr 0 = true ↔ dfield img 0 52 2 = 2) ∧ (bit fr 4 = true ↔ s.nreg ≤ dfield img 0 40 12) ∧
              (bit fr 2 = true ↔ dfield img 1 16 16 ≠ 0 ∧ dfield img 1 16 16 ≤ amp)) ∧
            u = (if s.nreg ≤ dfield img 0 40 12 then s.count CTB_ERR_REGION 1 else s).count64
              (if fr = 0 then CTB_ACC_LO else CTB_FLG_LO) 1 ∧
            s.processHit h img = u.bin
              { lane := h.lane, ts := h.ts, ca := ca, region := dfield img 0 40 12, regen := dfield img 0 39 1 == 1, fr := fr,
                word := putBits (putBits h.word.toNat 12 1 (if fr = 0 then 0 else 1)) 0 8 (keptSamples img ca h.samples).length,
                routes := bits img 192 64, samples := keptSamples img ca h.samples })))) ∧
  (∀ amp ped gain : Nat, ∃ q : Int, 2 * 256 * q ≤ ((amp : Int) - ped) * gain + 256 ∧
    ((amp : Int) - ped) * gain + 256 < 2 * 256 * (q + 1) ∧
    (q ≤ 32767 → -32768 ≤ q → corrected amp ped gain = (q, false)) ∧
    (32767 < q → corrected amp ped gain = (32767, true)) ∧ (q < -32768 → corrected amp ped gain = (-32768, true)))

/-- A miss counts in CTB_MISS; it joins the fill of its channel; with none in flight it takes the free slot of lowest number; with none
free it waits in the miss store, and where that holds 256 hits it is unresolved: counted, and marked in its slice (R110). -/
def Sys2Proof.Claim.CacheMiss : Prop :=
  ∀ (s u v : State) (b : Nat) (h : Hit), u = s.count64 CTB_MISS_LO 1 →
    v = (u.count CTB_UNRES 1).sendMark (Mark.mk h.lane .unresolved (h.ts / 16) (h.ts / 16)) →
    (∀ i f, (s.bank b).fillOf h.cn = some (i, f) →
      ((s.bank b).missStore < 256 → s.miss b h = u.putBank b { s.bank b with
        fills := tabIns (s.bank b).fills i { f with joined := f.joined ++ [h] } }) ∧
      (256 ≤ (s.bank b).missStore → s.miss b h = v)) ∧
    ((s.bank b).fillOf h.cn = none →
      (∀ i, (s.bank b).freeSlot = some i → s.miss b h = u.putBank b ((s.bank b).take i h)) ∧
      ((s.bank b).freeSlot = none → (s.bank b).missStore < 256 →
        s.miss b h = u.putBank b { s.bank b with waiting := (s.bank b).waiting ++ [h] }) ∧
      ((s.bank b).freeSlot = none → 256 ≤ (s.bank b).missStore → s.miss b h = v))

/-- A fetch of a fill that returns ends the fill with the descriptor read, poisoned where it is malformed or unreadable; a read with
an uncorrectable error or a wrong CRC is fetched again up to twice. A fill that an older one of its channel holds back waits for it
(R99, R111, R112, R114). -/
def Sys2Proof.Claim.DescriptorFill : Prop :=
  (∀ (s : State) (b : Fin 32) (i : Fin 16) (f : Fill) (unc : Bool), s.up → tabFind (s.bank b).fills i = some f →
    (f.waiting = true ∨ f.ready ≠ none → exec (.descriptorFill b i unc) s = .next s) ∧
    (∀ u img cause, f.waiting = false → f.ready = none → u = (if unc = true then s.count MEM_HBM_ECC_UNC 1 else s) →
      img = ofLe (u.hbmRead (u.descAddr f.cn) 64) → cause = descCause f.cn img (unc || u.isPoison (u.descAddr f.cn / 64)) →
      ((cause = 1 ∨ cause = 6) → f.fetches < 2 →
        exec (.descriptorFill b i unc) s = .next (u.setBank b { u.bank b with
          fills := tabIns (u.bank b).fills i { f with fetches := f.fetches + 1, waiting := true } })) ∧
      ((cause ≠ 1 ∧ cause ≠ 6) ∨ 2 ≤ f.fetches → exec (.descriptorFill b i unc) s = .next
        (u.fillReady b i f { cn := f.cn, image := BitVec.ofNat 512 img, poisoned := cause != 0 } cause))) ∧
    exec (.fillRefetch b i) s = .next
      (s.setBank b { s.bank b with fills := tabIns (s.bank b).fills i { f with waiting := false } })) ∧
  (∀ (s : State) (b i : Nat) (f : Fill) (e : DescEntry) (cause : Nat),
    ((∃ g ∈ (s.bank b).fills, g.2.cn = f.cn ∧ g.2.born < f.born) →
      s.fillReady b i f e cause = s.setBank b { s.bank b with
        fills := tabIns (s.bank b).fills i { f with ready := some (e, cause) } }) ∧
    ((∀ g ∈ (s.bank b).fills, g.2.cn = f.cn → f.born ≤ g.2.born) →
      s.fillReady b i f e cause = (s.fillEnds b i f e cause).releaseFills 16 b f.cn))

/-- CTB_CTL: EN = 1 needs a table within HBM and in no partition's pages and empties the cache; EN = 0 with a stream enabled
answers ST_STATE and is recorded; else it abandons what waits, which counts in CTB_OFF (R94, R95). -/
def Sys2Proof.Claim.ChannelControl : Prop :=
  ∀ (s : State) (v : BitVec 32) (base n : Nat), s.up → base = s.rd64 CTB_BASE_LO → n = 64 * s.fget CTB_NCHAN 0 19 →
    (bit v.toNat 0 = true → s.fbit CTB_CTL 0 = true → exec (.ctbCtlWrite v) s = .next (s.wr CTB_ST stOk)) ∧
    (bit v.toNat 0 = true → s.fbit CTB_CTL 0 = false →
      (hbmSize < base + n → exec (.ctbCtlWrite v) s = .next (s.wr CTB_ST stRange)) ∧
      (base + n ≤ hbmSize → s.unassigned base n = false → exec (.ctbCtlWrite v) s = .next (s.wr CTB_ST stPerm)) ∧
      (base + n ≤ hbmSize → s.unassigned base n = true →
        exec (.ctbCtlWrite v) s = .next ((s.emptyCache.wr CTB_CTL 1).wr CTB_ST stOk))) ∧
    (bit v.toNat 0 = false →
      (s.fbit CTB_CTL 0 = true → s.enabledStreams ≠ [] →
        exec (.ctbCtlWrite v) s = .next ((s.wr CTB_ST stState).errLog stState srcCtb none CTB_CTL)) ∧
      (s.fbit CTB_CTL 0 = true → s.enabledStreams = [] →
        exec (.ctbCtlWrite v) s = .next ((((s.count CTB_OFF s.waitingHits).emptyCache).wr CTB_CTL 0).wr CTB_ST stOk)) ∧
      (s.fbit CTB_CTL 0 = false → exec (.ctbCtlWrite v) s = .next ((s.wr CTB_CTL 0).wr CTB_ST stOk)))

/-- An invalidate is refused with ST_BUSY while one runs, with ST_ARG for a reversed range, with ST_RANGE for a channel beyond
CTB_NCHAN; at its completion the named entries are gone, fills in flight for them are stale, and the tick is reported
(R116 to R118). -/
def Sys2Proof.Claim.Invalidation : Prop :=
  ∀ (s : State) (lo hi n : Nat), s.up → lo = s.fget CTB_INV_LO 0 18 → hi = s.fget CTB_INV_HI 0 18 → n = s.fget CTB_NCHAN 0 19 →
    (s.chan.inv ≠ none → exec .invalidateCn s = .next (s.fset CTB_INV_ST 0 8 stBusy) ∧
      exec .invalidateRange s = .next (s.fset CTB_INV_ST 0 8 stBusy) ∧
      exec .invalidateAll s = .next (s.fset CTB_INV_ST 0 8 stBusy)) ∧
    (s.chan.inv = none →
      (lo < n → exec .invalidateCn s = .next ((s.withChan { s.chan with inv := some { lo := lo, hi := lo } }).fset CTB_INV_ST 8 1 1)) ∧
      (n ≤ lo → exec .invalidateCn s = .next (s.fset CTB_INV_ST 0 8 stRange)) ∧
      (hi < lo → exec .invalidateRange s = .next (s.fset CTB_INV_ST 0 8 stArg)) ∧
      (lo ≤ hi → n ≤ hi → exec .invalidateRange s = .next (s.fset CTB_INV_ST 0 8 stRange)) ∧
      (lo ≤ hi → hi < n → exec .invalidateRange s = .next
        ((s.withChan { s.chan with inv := some { lo := lo, hi := hi } }).fset CTB_INV_ST 8 1 1)) ∧
      exec .invalidateAll s = .next ((s.withChan { s.chan with inv := some { lo := 0, hi := 2 ^ 18 - 1 } }).fset CTB_INV_ST 8 1 1) ∧
      exec .invalidateComplete s = .next s) ∧
    (∀ c, s.chan.inv = some c → ∃ u : State, u = s.withChan { s.chan with
        inv := none
        banks := (s.chan.banks.map (fun b => (b.1, b.2.inval c))).filter (fun b => b.2 != ({} : Bank)) } ∧
      exec .invalidateComplete s = .next (((u.wr CTB_INV_ST stOk).wr CTB_INV_TICK_LO (s.time.tick % 2 ^ 32)).wr
        CTB_INV_TICK_HI (2 ^ 31 + s.time.tick / 2 ^ 32))) ∧
    (∀ (b : Bank) (c : InvCmd),
      (∀ e : Nat × DescEntry, e ∈ (b.inval c).entries ↔ e ∈ b.entries ∧ (e.2.cn < c.lo ∨ c.hi < e.2.cn)) ∧
      (∀ f ∈ (b.inval c).fills, c.lo ≤ f.2.cn → f.2.cn ≤ c.hi → f.2.stale = true))

/-- The channel processor's hits and its descriptor cache (R94 to R114): HitLookup, HitProcessing, CacheMiss, DescriptorFill. -/
def Obligations.ChannelProcessor : Prop :=
  Claim.HitLookup ∧ Claim.HitProcessing ∧ Claim.CacheMiss ∧ Claim.DescriptorFill

/-- Control and invalidation of the descriptor cache (R94, R95, R116 to R118): ChannelControl, Invalidation. -/
def Obligations.ChannelTableControl : Prop := Claim.ChannelControl ∧ Claim.Invalidation


/-! ## Core instructions -/

/-- Core `k` executes an instruction of `n` bytes: the device is up, the core issues one and its fetch meets nothing. -/
def Sys2Proof.Claim.Runs (s : State) (k : CoreNo) (n : Nat) : Prop := s.up ∧ s.issues k = true ∧ s.fetchTrap k n = none

/-- The state in which core `k` has executed an instruction of `n` bytes that leaves context `a` and ends as `e`: the instruction has
begun (the translations of its fetch kept, a retirement group open for it), context `a` stands in the core's record, and it has ended: the
next pc or the trap entry, INSTRET, its place in the group, its trace and an injected error (R160, R163, R172, R177, R273, R297, R299).
Nothing else. -/
def Sys2Proof.Claim.done (s : State) (k : CoreNo) (n : Nat) (a : Arch) (e : Ends) : State :=
  let o := s.beginInstr k n
  (o.setCore k { o.core k with arch := a }).endInstr k n (s.core k).arch e

/-- The state in which core `k` has begun an instruction of `n` bytes. -/
def Sys2Proof.Claim.opened (s : State) (k : CoreNo) (n : Nat) : State := s.beginInstr k n

/-- State `t` after core `k`, which began an instruction of `n` bytes in state `s`, has ended it as `e`; after a stall the instruction has
not completed and is sent again. -/
def Sys2Proof.Claim.ended (s : State) (k : CoreNo) (n : Nat) (t : State) (e : Ends) : State := t.endInstr k n (s.core k).arch e

/-- State `t` with another context of core `k`. -/
def Sys2Proof.Claim.withArch (t : State) (k : CoreNo) (a : Arch) : State := t.setCore k { t.core k with arch := a }

/-- Command `c` writes `v` to register `rd` of core `k`, whose instruction of `n` bytes ends at the next address, and does
nothing else (R155: a write to G0 is discarded). -/
def Sys2Proof.Claim.Sets (s : State) (k : CoreNo) (n : Nat) (c : Instr) (rd : Gr) (v : Word) : Prop :=
  exec c s = .next (Claim.done s k n (if rd = 0 then (s.core k).arch else
    { (s.core k).arch with g := tabPut 0 (s.core k).arch.g rd.val v }) .seq)

/-- The integer operations of two registers write their result to `rd` and nothing else (R192, R197). -/
def Sys2Proof.Claim.IntegerRegisterForms : Prop :=
  ∀ (s : State) (k : CoreNo) (rd ra rb : Gr), Claim.Runs s k 4 →
    let x := (s.core k).arch.gr ra
    let y := (s.core k).arch.gr rb
    let sh := y.toNat % 64
    Claim.Sets s k 4 (.add k rd ra rb) rd (BitVec.ofNat 64 (x.toNat + y.toNat)) ∧
    Claim.Sets s k 4 (.sub k rd ra rb) rd (BitVec.ofInt 64 (x.toInt - y.toInt)) ∧
    Claim.Sets s k 4 (.min k rd ra rb) rd (BitVec.ofInt 64 (min x.toInt y.toInt)) ∧
    Claim.Sets s k 4 (.max k rd ra rb) rd (BitVec.ofInt 64 (max x.toInt y.toInt)) ∧
    Claim.Sets s k 4 (.minu k rd ra rb) rd (BitVec.ofNat 64 (min x.toNat y.toNat)) ∧
    Claim.Sets s k 4 (.maxu k rd ra rb) rd (BitVec.ofNat 64 (max x.toNat y.toNat)) ∧
    Claim.Sets s k 4 (.and k rd ra rb) rd (x &&& y) ∧
    Claim.Sets s k 4 (.or k rd ra rb) rd (x ||| y) ∧
    Claim.Sets s k 4 (.xor k rd ra rb) rd (x ^^^ y) ∧
    Claim.Sets s k 4 (.andn k rd ra rb) rd (x &&& ~~~y) ∧
    Claim.Sets s k 4 (.orn k rd ra rb) rd (x ||| ~~~y) ∧
    Claim.Sets s k 4 (.xnor k rd ra rb) rd (~~~(x ^^^ y)) ∧
    Claim.Sets s k 4 (.sll k rd ra rb) rd (BitVec.ofNat 64 (x.toNat * 2 ^ sh)) ∧
    Claim.Sets s k 4 (.srl k rd ra rb) rd (BitVec.ofNat 64 (x.toNat / 2 ^ sh)) ∧
    Claim.Sets s k 4 (.sra k rd ra rb) rd (BitVec.ofInt 64 (x.toInt / (2 ^ sh : Nat))) ∧
    Claim.Sets s k 4 (.ror k rd ra rb) rd (x.rotateRight sh) ∧
    Claim.Sets s k 4 (.slt k rd ra rb) rd (if x.toInt < y.toInt then 1 else 0) ∧
    Claim.Sets s k 4 (.sltu k rd ra rb) rd (if x.toNat < y.toNat then 1 else 0) ∧
    (∀ cond : BitVec 4,
      Claim.Sets s k 4 (.csel k rd ra rb cond) rd (if (s.core k).arch.flg.cond cond then x else y))

/-- The unary operations write their result to `rd` and nothing else (R192): the absolute value, the counts of leading zeros,
trailing zeros and set bits, the extensions of the low 8, 16 and 32 bits. -/
def Sys2Proof.Claim.IntegerUnaryForms : Prop :=
  ∀ (s : State) (k : CoreNo) (rd ra : Gr), Claim.Runs s k 4 →
    let x := (s.core k).arch.gr ra
    Claim.Sets s k 4 (.abs k rd ra) rd (BitVec.ofNat 64 x.toInt.natAbs) ∧
    (∃ v : Nat, Claim.Sets s k 4 (.clz k rd ra) rd (BitVec.ofNat 64 v) ∧ v ≤ 64 ∧
      (∀ i, 64 - v ≤ i → x.getLsbD i = false) ∧ (v < 64 → x.getLsbD (63 - v) = true)) ∧
    (∃ v : Nat, Claim.Sets s k 4 (.ctz k rd ra) rd (BitVec.ofNat 64 v) ∧ v ≤ 64 ∧
      (∀ i, i < v → x.getLsbD i = false) ∧ (v < 64 → x.getLsbD v = true)) ∧
    Claim.Sets s k 4 (.popc k rd ra) rd (BitVec.ofNat 64 ((List.range 64).countP (fun i => x.getLsbD i))) ∧
    Claim.Sets s k 4 (.sextb k rd ra) rd (BitVec.ofInt 64 (x.truncate 8).toInt) ∧
    Claim.Sets s k 4 (.sexth k rd ra) rd (BitVec.ofInt 64 (x.truncate 16).toInt) ∧
    Claim.Sets s k 4 (.sextw k rd ra) rd (BitVec.ofInt 64 (x.truncate 32).toInt) ∧
    Claim.Sets s k 4 (.zextb k rd ra) rd (BitVec.ofNat 64 (x.toNat % 2 ^ 8)) ∧
    Claim.Sets s k 4 (.zexth k rd ra) rd (BitVec.ofNat 64 (x.toNat % 2 ^ 16)) ∧
    Claim.Sets s k 4 (.zextw k rd ra) rd (BitVec.ofNat 64 (x.toNat % 2 ^ 32))

/-- The immediate and wide forms write their result to `rd` and nothing else (R196, R197, R198). -/
def Sys2Proof.Claim.ImmediateForms : Prop :=
  (∀ (s : State) (k : CoreNo) (rd ra : Gr) (imm : BitVec 16) (sh : BitVec 6), Claim.Runs s k 4 →
    let x := (s.core k).arch.gr ra
    Claim.Sets s k 4 (.addi k rd ra imm) rd (BitVec.ofInt 64 (x.toInt + imm.toInt)) ∧
    Claim.Sets s k 4 (.andi k rd ra imm) rd (BitVec.ofNat 64 (Nat.land x.toNat imm.toNat)) ∧
    Claim.Sets s k 4 (.ori k rd ra imm) rd (BitVec.ofNat 64 (Nat.lor x.toNat imm.toNat)) ∧
    Claim.Sets s k 4 (.xori k rd ra imm) rd (BitVec.ofNat 64 (Nat.xor x.toNat imm.toNat)) ∧
    Claim.Sets s k 4 (.lui k rd imm) rd (BitVec.ofInt 64 (imm.toInt * 2 ^ 16)) ∧
    Claim.Sets s k 4 (.slti k rd ra imm) rd (if x.toInt < imm.toInt then 1 else 0) ∧
    Claim.Sets s k 4 (.sltiu k rd ra imm) rd (if x.toNat < (BitVec.ofInt 64 imm.toInt).toNat then 1 else 0) ∧
    Claim.Sets s k 4 (.shiSll k rd ra sh) rd (BitVec.ofNat 64 (x.toNat * 2 ^ sh.toNat)) ∧
    Claim.Sets s k 4 (.shiSrl k rd ra sh) rd (BitVec.ofNat 64 (x.toNat / 2 ^ sh.toNat)) ∧
    Claim.Sets s k 4 (.shiSra k rd ra sh) rd (BitVec.ofInt 64 (x.toInt / (2 ^ sh.toNat : Nat))) ∧
    Claim.Sets s k 4 (.shiRor k rd ra sh) rd (x.rotateRight sh.toNat)) ∧
  (∀ (s : State) (k : CoreNo) (rd ra : Gr) (imm : BitVec 32), Claim.Runs s k 8 →
    let x := (s.core k).arch.gr ra
    Claim.Sets s k 8 (.addiw k rd ra imm) rd (BitVec.ofInt 64 (x.toInt + imm.toInt)) ∧
    Claim.Sets s k 8 (.inshw k rd ra imm) rd (BitVec.ofNat 64 (imm.toNat * 2 ^ 32 + x.toNat % 2 ^ 32)) ∧
    Claim.Sets s k 8 (.andiw k rd ra imm) rd (x &&& BitVec.ofInt 64 imm.toInt) ∧
    Claim.Sets s k 8 (.oriw k rd ra imm) rd (x ||| BitVec.ofNat 64 imm.toNat) ∧
    Claim.Sets s k 8 (.xoriw k rd ra imm) rd (x ^^^ BitVec.ofInt 64 imm.toInt))

/-- Command `c` writes the result `r` to `rd` and Z, N, C and V, and does nothing else: `carry` is C, and V says that the exact
signed result `exact` lies outside −2⁶³ to 2⁶³ − 1 (R193). -/
def Sys2Proof.Claim.SetsFlags (s : State) (k : CoreNo) (n : Nat) (c : Instr) (rd : Nat) (exact_ : Int) (carry : Prop)
    [Decidable carry] : Prop :=
  let a := (s.core k).arch
  let r := BitVec.ofInt 64 exact_
  let b := a.setGr rd r
  exec c s = .next (Claim.done s k n (b.setFlg { a.flg with
    z := decide (r = 0), n := r.getLsbD 63, c := decide carry,
    v := decide (exact_ < -2 ^ 63 ∨ 2 ^ 63 ≤ exact_) }) .seq)

/-- The flag-setting operations write Z, N, C and V as R193 says; CMPI and CMPIW discard the result. -/
def Sys2Proof.Claim.FlagSettingForms : Prop :=
  (∀ (s : State) (k : CoreNo) (rd ra rb : Gr) (imm : BitVec 16), Claim.Runs s k 4 →
    let a := (s.core k).arch
    let x := a.gr ra
    let y := a.gr rb
    let cin := b2n a.flg.c
    let im := BitVec.ofInt 64 imm.toInt
    Claim.SetsFlags s k 4 (.addf k rd ra rb) rd (x.toInt + y.toInt) (2 ^ 64 ≤ x.toNat + y.toNat) ∧
    Claim.SetsFlags s k 4 (.addif k rd ra imm) rd (x.toInt + imm.toInt) (2 ^ 64 ≤ x.toNat + im.toNat) ∧
    Claim.SetsFlags s k 4 (.adc k rd ra rb) rd (x.toInt + y.toInt + cin) (2 ^ 64 ≤ x.toNat + y.toNat + cin) ∧
    Claim.SetsFlags s k 4 (.subf k rd ra rb) rd (x.toInt - y.toInt) (y.toNat ≤ x.toNat) ∧
    Claim.SetsFlags s k 4 (.cmpi k ra imm) 0 (x.toInt - imm.toInt) (im.toNat ≤ x.toNat) ∧
    Claim.SetsFlags s k 4 (.sbc k rd ra rb) rd (x.toInt - y.toInt - (1 - cin : Int)) (y.toNat + (1 - cin) ≤ x.toNat)) ∧
  (∀ (s : State) (k : CoreNo) (ra : Gr) (imm : BitVec 32), Claim.Runs s k 8 →
    let x := (s.core k).arch.gr ra
    Claim.SetsFlags s k 8 (.cmpiw k ra imm) 0 (x.toInt - imm.toInt) ((BitVec.ofInt 64 imm.toInt).toNat ≤ x.toNat))

/-- Command `c` clips the exact result and sets SAT where it clips, and does nothing else (R194). -/
def Sys2Proof.Claim.Saturates (s : State) (k : CoreNo) (n : Nat) (c : Instr) (rd : Gr) (exact_ : Int) : Prop :=
  let a := (s.core k).arch
  exec c s = .next (Claim.done s k n
    (if 2 ^ 63 ≤ exact_ then (a.setGr rd 0x7FFFFFFFFFFFFFFF).setFlg { a.flg with sat := true }
     else if exact_ < -2 ^ 63 then (a.setGr rd 0x8000000000000000).setFlg { a.flg with sat := true }
     else a.setGr rd (BitVec.ofInt 64 exact_)) .seq)

/-- Command `c` traps INT_OVERFLOW where the exact result leaves the signed range and CTL.OVT = 1, with `rd` not written; else it
writes the result modulo 2⁶⁴ (R194, R218). -/
def Sys2Proof.Claim.TrapsOverflow (s : State) (k : CoreNo) (n : Nat) (c : Instr) (rd : Gr) (exact_ : Int) : Prop :=
  let a := (s.core k).arch
  exec c s = .next
    (if a.csrf 0x400 1 1 = 1 ∧ (2 ^ 63 ≤ exact_ ∨ exact_ < -2 ^ 63) then Claim.done s k n a (.trap 0x06 0)
     else Claim.done s k n (a.setGr rd (BitVec.ofInt 64 exact_)) .seq)

/-- The saturating and the trapping forms (R192, R194, R218). -/
def Sys2Proof.Claim.SaturatingAndTrappingForms : Prop :=
  ∀ (s : State) (k : CoreNo) (rd ra rb : Gr), Claim.Runs s k 4 →
    let x := (s.core k).arch.gr ra
    let y := (s.core k).arch.gr rb
    Claim.Saturates s k 4 (.adds k rd ra rb) rd (x.toInt + y.toInt) ∧
    Claim.Saturates s k 4 (.subs k rd ra rb) rd (x.toInt - y.toInt) ∧
    Claim.Saturates s k 4 (.abss k rd ra) rd x.toInt.natAbs ∧
    Claim.Saturates s k 4 (.muls k rd ra rb) rd (x.toInt * y.toInt) ∧
    Claim.TrapsOverflow s k 4 (.addt k rd ra rb) rd (x.toInt + y.toInt) ∧
    Claim.TrapsOverflow s k 4 (.subt k rd ra rb) rd (x.toInt - y.toInt) ∧
    Claim.TrapsOverflow s k 4 (.mult k rd ra rb) rd (x.toInt * y.toInt)

/-- Command `c` transfers control to `t`, leaving context `a`: the levels whose body does not hold `t` are left (R164). -/
def Sys2Proof.Claim.Jumps (s : State) (k : CoreNo) (c : Instr) (a : Arch) (t : Nat) : Prop :=
  exec c s = .next (Claim.done s k 4 a (.jump t))

/-- The control transfers (R155, R200, R201). -/
def Obligations.ControlTransfers : Prop :=
  ∀ (s : State) (k : CoreNo) (ra : Gr), Claim.Runs s k 4 →
    let a := (s.core k).arch
    let pc := a.pc.toNat
    let at_ (ofs : Int) : Nat := ((pc + 4 * ofs) % 2 ^ 48).toNat
    let stays (c : Instr) : Prop := exec c s = .next (Claim.done s k 4 a .seq)
    let lnk := BitVec.ofNat 64 ((pc + 4) % 2 ^ 48)
    (∀ ofs : BitVec 26, Claim.Jumps s k (.br k ofs) a (at_ ofs.toInt) ∧
      Claim.Jumps s k (.bl k ofs) (a.setGr 31 lnk) (at_ ofs.toInt)) ∧
    (∀ (cond : BitVec 4) (ofs : BitVec 22),
      (a.flg.cond cond = true → Claim.Jumps s k (.bcc k cond ofs) a (at_ ofs.toInt)) ∧
      (a.flg.cond cond = false → stays (.bcc k cond ofs))) ∧
    (∀ ofs : BitVec 21,
      (a.gr ra = 0 → Claim.Jumps s k (.cbz k ra ofs) a (at_ ofs.toInt) ∧ stays (.cbnz k ra ofs)) ∧
      (a.gr ra ≠ 0 → Claim.Jumps s k (.cbnz k ra ofs) a (at_ ofs.toInt) ∧ stays (.cbz k ra ofs))) ∧
    ((a.gr ra).toNat % 4 = 0 →
      Claim.Jumps s k (.jr k ra) a ((a.gr ra).toNat % 2 ^ 48) ∧
      Claim.Jumps s k (.jlr k ra) (a.setGr 31 lnk) ((a.gr ra).toNat % 2 ^ 48)) ∧
    ((a.gr ra).toNat % 4 ≠ 0 →
      exec (.jr k ra) s = .next (Claim.done s k 4 a (.trap 0x03 (a.gr ra))) ∧
      exec (.jlr k ra) s = .next (Claim.done s k 4 a (.trap 0x03 (a.gr ra))))

/-- The order of R162 for a loop of `n` passes whose body ends at `e`, set up by command `c`. -/
def Sys2Proof.Claim.LoopSet (s : State) (k : CoreNo) (c : Instr) (e n : Nat) : Prop :=
  let a := (s.core k).arch
  let d := a.depth
  let pc := a.pc.toNat
  (4 ≤ d → exec c s = .next (Claim.done s k 4 a (.trap 0x08 0))) ∧
  (d < 4 → e ≤ pc + 4 ∨ (1 ≤ d ∧ a.lpe (d - 1) < e) →
    exec c s = .next (Claim.done s k 4 a (.trap 0x09 (BitVec.ofNat 64 e)))) ∧
  (d < 4 → pc + 4 < e → (1 ≤ d → e ≤ a.lpe (d - 1)) →
    (n = 0 → exec c s = .next (Claim.done s k 4 a (.skip e))) ∧
    (n ≠ 0 → exec c s = .next (Claim.done s k 4
      ((((a.setCsrv (0x010 + d) (BitVec.ofNat 64 (pc + 4))).setCsrv (0x014 + d) (BitVec.ofNat 64 e)).setCsrv
        (0x018 + d) (BitVec.ofNat 64 n)).setCsrv 0x01C (BitVec.ofNat 64 (d + 1))) .seq)))

/-- The end test of R163 and the leaving of levels of R164: which of them applies to an instruction of `n` bytes, by how it ends; and
what each does, level by level. A context in which LPSTAT is not listed (it reads 0) is not changed. -/
def Sys2Proof.Claim.LoopEnds : Prop :=
  (∀ (a : Arch) (n e t : Nat),
    (let r := Arch.endTest a.pc.toNat (a.pc.toNat + n) a.depth a
     a.finish n .seq = { r.1 with pc := BitVec.ofNat 48 r.2 }) ∧
    (let r := Arch.endTest (e - 1) e a.depth a
     a.finish n (.skip e) = { r.1 with pc := BitVec.ofNat 48 r.2 }) ∧
    a.finish n (.jump t) = { Arch.leave t a.depth a with pc := BitVec.ofNat 48 t }) ∧
  (∀ (c : CoreSt) (n : Nat) (e : Ends), e = .seq ∨ (∃ x, e = .skip x) ∨ (∃ x, e = .jump x) →
    (c.retire n e).arch = (c.arch.finish n e).setCsrv 0xC01 ((c.arch.finish n e).csrv 0xC01 + 1)) ∧
  ∀ (a : Arch) (lo hi t d : Nat),
    (a.lpe d ≤ lo ∨ hi < a.lpe d → Arch.endTest lo hi (d + 1) a = (a.setDepth (d + 1), hi)) ∧
    (lo < a.lpe d → a.lpe d ≤ hi → 1 < a.lpc d →
      Arch.endTest lo hi (d + 1) a = ((a.setLpc d (a.lpc d - 1)).setDepth (d + 1), a.lps d)) ∧
    (lo < a.lpe d → a.lpe d ≤ hi → a.lpc d ≤ 1 → Arch.endTest lo hi (d + 1) a = Arch.endTest lo hi d (a.setLpc d 0)) ∧
    (a.lps d ≤ t → t < a.lpe d → Arch.leave t (d + 1) a = a.setDepth (d + 1)) ∧
    (t < a.lps d ∨ a.lpe d ≤ t → Arch.leave t (d + 1) a = Arch.leave t d (a.setLpc d 0)) ∧
    (tabFind a.csr 0x01C = none → Arch.endTest lo hi 0 a = (a, hi) ∧ Arch.leave t 0 a = a)

/-- Hardware loops: LOOP and LOOPI set up a level (R162, R202); the end test and taken transfers (R163, R164). -/
def Obligations.HardwareLoops : Prop :=
  (∀ (s : State) (k : CoreNo), Claim.Runs s k 4 →
    (∀ (rc : Gr) (uofs : BitVec 16), Claim.LoopSet s k (.loop k rc uofs)
      (((s.core k).arch.pc.toNat + 4 * uofs.toNat) % 2 ^ 48) (((s.core k).arch.gr rc).toNat % 2 ^ 32)) ∧
    (∀ (count : BitVec 14) (uofs : BitVec 12), Claim.LoopSet s k (.loopi k count uofs)
      (((s.core k).arch.pc.toNat + 4 * uofs.toNat) % 2 ^ 48) count.toNat)) ∧
  Claim.LoopEnds

/-- Multiply and divide (R218, R220): the parts of the exact product, the quotient truncated toward zero, the remainder with the
sign of the dividend, DIV_ZERO or DZ for a zero divisor, V in the signed forms. -/
def Obligations.MultiplyAndDivide : Prop :=
  ∀ (s : State) (k : CoreNo) (rd ra rb : Gr), Claim.Runs s k 4 →
    let a := (s.core k).arch
    let x := (a.gr ra).toInt
    let y := (a.gr rb).toInt
    let u : Int := (a.gr ra).toNat
    let v : Int := (a.gr rb).toNat
    let f := a.flg
    let ends (c : Instr) (r : Int) (g : Flg) : Prop :=
      exec c s = .next (Claim.done s k 4 ((a.setGr rd (BitVec.ofInt 64 r)).setFlg g) .seq)
    Claim.Sets s k 4 (.mul k rd ra rb) rd (BitVec.ofInt 64 (x * y)) ∧
    Claim.Sets s k 4 (.mulh k rd ra rb) rd (BitVec.ofInt 64 (x * y / 2 ^ 64)) ∧
    Claim.Sets s k 4 (.mulhu k rd ra rb) rd (BitVec.ofInt 64 (u * v / 2 ^ 64)) ∧
    Claim.Sets s k 4 (.mulhsu k rd ra rb) rd (BitVec.ofInt 64 (x * v / 2 ^ 64)) ∧
    (a.gr rb = 0 → a.csrf 0x400 2 1 = 1 → ∀ c ∈ [Instr.div k rd ra rb, .divu k rd ra rb, .rem k rd ra rb, .remu k rd ra rb],
      exec c s = .next (Claim.done s k 4 a (.trap 0x07 0))) ∧
    (a.gr rb = 0 → a.csrf 0x400 2 1 = 0 →
      ends (.div k rd ra rb) 0 { f with dz := true, v := false } ∧ ends (.divu k rd ra rb) 0 { f with dz := true } ∧
      ends (.rem k rd ra rb) x { f with dz := true, v := false } ∧ ends (.remu k rd ra rb) u { f with dz := true }) ∧
    (x = -2 ^ 63 → y = -1 →
      ends (.div k rd ra rb) (-2 ^ 63) { f with v := true } ∧ ends (.rem k rd ra rb) 0 { f with v := true }) ∧
    (y ≠ 0 → ¬(x = -2 ^ 63 ∧ y = -1) → ∃ q r : Int, x = y * q + r ∧ r.natAbs < y.natAbs ∧ 0 ≤ r * x ∧
      ends (.div k rd ra rb) q { f with v := false } ∧ ends (.rem k rd ra rb) r { f with v := false }) ∧
    (v ≠ 0 → ends (.divu k rd ra rb) (u / v) f ∧ ends (.remu k rd ra rb) (u % v) f)

/-- The context in which accumulator `ad` holds the exact result `t`: clipped with SAT set where it clips in a saturating form,
else modulo 2⁹⁶ (R221). -/
def Sys2Proof.Claim.accumulated (a : Arch) (ad : AccNo) (sat : Bool) (t : Int) : Arch :=
  if sat = true ∧ 2 ^ 95 ≤ t then (a.setAcc ad (BitVec.ofInt 96 (2 ^ 95 - 1))).setFlg { a.flg with sat := true }
  else if sat = true ∧ t < -2 ^ 95 then (a.setAcc ad (BitVec.ofInt 96 (-2 ^ 95))).setFlg { a.flg with sat := true }
  else a.setAcc ad (BitVec.ofInt 96 t)

/-- `r` is acc / 2^sh rounded as RND says (R223): 0 floor, 1 half toward plus infinity, 2 half to even. -/
def Sys2Proof.Claim.Rounded (acc : Int) (sh rnd : Nat) (r : Int) : Prop :=
  let p : Int := 2 ^ sh
  (rnd = 0 → r * p ≤ acc ∧ acc < (r + 1) * p) ∧
  (rnd = 1 → (2 * r - 1) * p ≤ 2 * acc ∧ 2 * acc < (2 * r + 1) * p) ∧
  (rnd = 2 → (2 * r - 1) * p ≤ 2 * acc ∧ 2 * acc ≤ (2 * r + 1) * p ∧
    (2 * acc = (2 * r - 1) * p ∨ 2 * acc = (2 * r + 1) * p → r % 2 = 0))

/-- Command `c` accumulates `t`, and does nothing else. -/
def Sys2Proof.Claim.Accumulates (s : State) (k : CoreNo) (n : Nat) (c : Instr) (ad : AccNo) (sat : Bool) (t : Int) : Prop :=
  exec c s = .next (Claim.done s k n (Claim.accumulated (s.core k).arch ad sat t) .seq)

/-- The accumulator operations (R221, R222). -/
def Sys2Proof.Claim.AccumulatorOperations : Prop :=
  ∀ (s : State) (k : CoreNo) (ad as_ : AccNo) (ra : Gr), Claim.Runs s k 4 →
    let a := (s.core k).arch
    let acc := (a.accv ad).toInt
    let x := (a.gr ra).toInt
    let sh := (a.gr ra).toNat % 128
    Claim.Accumulates s k 4 (.aclr k ad) ad false 0 ∧
    Claim.Accumulates s k 4 (.ald k ad ra) ad false x ∧
    Claim.Accumulates s k 4 (.amov k ad as_) ad false (a.accv as_).toInt ∧
    Claim.Accumulates s k 4 (.aadd k ad ra) ad false (acc + x) ∧
    Claim.Accumulates s k 4 (.aadds k ad ra) ad true (acc + x) ∧
    Claim.Accumulates s k 4 (.asub k ad ra) ad false (acc - x) ∧
    Claim.Accumulates s k 4 (.asubs k ad ra) ad true (acc - x) ∧
    Claim.Accumulates s k 4 (.aadda k ad as_) ad false (acc + (a.accv as_).toInt) ∧
    Claim.Accumulates s k 4 (.aaddas k ad as_) ad true (acc + (a.accv as_).toInt) ∧
    (∃ t : Int, Claim.Rounded acc sh 0 t ∧ Claim.Accumulates s k 4 (.asra k ad ra) ad false t) ∧
    Claim.Accumulates s k 4 (.asll k ad ra) ad false (acc * 2 ^ sh) ∧
    Claim.Accumulates s k 4 (.aslls k ad ra) ad true (acc * 2 ^ sh)

/-- AEXT rounds acc / 2^s, then clips it to the width that WD selects or wraps it, and writes it sign-extended; acc is unchanged.
An EXT field with a reserved encoding traps ILLEGAL_INSTR (R223). -/
def Sys2Proof.Claim.AccumulatorExtract : Prop :=
  ∀ (s : State) (k : CoreNo) (rd ra : Gr) (ad : AccNo) (ext : BitVec 5), Claim.Runs s k 4 →
    let a := (s.core k).arch
    let wd := ext.toNat / 8
    let rnd := ext.toNat / 2 % 4
    let w := if wd = 0 then 64 else if wd = 1 then 32 else 16
    let puts (v : Int) (clipped : Bool) : Prop :=
      let b := a.setGr rd (BitVec.ofInt 64 v)
      exec (.aext k rd ra ad ext) s = .next (Claim.done s k 4
        (if clipped then b.setFlg { a.flg with sat := true } else b) .seq)
    (wd = 3 ∨ rnd = 3 →
      exec (.aext k rd ra ad ext) s = .next (Claim.done s k 4 a (.trap 0x01 (firstWord (.aext k rd ra ad ext))))) ∧
    (wd ≠ 3 → rnd ≠ 3 → ∃ r : Int, Claim.Rounded (a.accv ad).toInt ((a.gr ra).toNat % 128) rnd r ∧
      (ext.toNat % 2 = 1 → 2 ^ (w - 1) ≤ r → puts (2 ^ (w - 1) - 1) true) ∧
      (ext.toNat % 2 = 1 → r < -2 ^ (w - 1) → puts (-2 ^ (w - 1)) true) ∧
      (ext.toNat % 2 = 1 → -2 ^ (w - 1) ≤ r → r < 2 ^ (w - 1) → puts r false) ∧
      (ext.toNat % 2 = 0 → ∃ q : Int, -2 ^ (w - 1) ≤ q ∧ q < 2 ^ (w - 1) ∧ q % 2 ^ w = r % 2 ^ w ∧ puts q false))

/-- The sum of a list of integers. -/
def Sys2Proof.Claim.sumI (l : List Int) : Int := l.foldr (· + ·) 0

/-- The signed lane `i` of `w` bits of a word. -/
def Sys2Proof.Claim.lane (w i : Nat) (x : Word) : Int := ((x >>> (w * i)).truncate w).toInt

/-- The multiply-accumulate forms (R221, R225) and MACI, MACIS (R227). -/
def Sys2Proof.Claim.MultiplyAccumulate : Prop :=
  (∀ (s : State) (k : CoreNo) (ad : AccNo) (ra rb : Gr), Claim.Runs s k 4 →
    let a := (s.core k).arch
    let acc := (a.accv ad).toInt
    let p (w i : Nat) : Int := Claim.lane w i (a.gr ra) * Claim.lane w i (a.gr rb)
    Claim.Accumulates s k 4 (.macH k ad ra rb) ad false (acc + p 16 0) ∧
    Claim.Accumulates s k 4 (.macHs k ad ra rb) ad true (acc + p 16 0) ∧
    Claim.Accumulates s k 4 (.msuH k ad ra rb) ad false (acc - p 16 0) ∧
    Claim.Accumulates s k 4 (.msuHs k ad ra rb) ad true (acc - p 16 0) ∧
    Claim.Accumulates s k 4 (.macH2 k ad ra rb) ad false (acc + (p 16 0 + p 16 1)) ∧
    Claim.Accumulates s k 4 (.macH2s k ad ra rb) ad true (acc + (p 16 0 + p 16 1)) ∧
    Claim.Accumulates s k 4 (.macH4 k ad ra rb) ad false (acc + (p 16 0 + p 16 1 + p 16 2 + p 16 3)) ∧
    Claim.Accumulates s k 4 (.macH4s k ad ra rb) ad true (acc + (p 16 0 + p 16 1 + p 16 2 + p 16 3)) ∧
    Claim.Accumulates s k 4 (.macW k ad ra rb) ad false (acc + p 32 0) ∧
    Claim.Accumulates s k 4 (.macWs k ad ra rb) ad true (acc + p 32 0) ∧
    Claim.Accumulates s k 4 (.msuW k ad ra rb) ad false (acc - p 32 0) ∧
    Claim.Accumulates s k 4 (.msuWs k ad ra rb) ad true (acc - p 32 0) ∧
    Claim.Accumulates s k 4 (.macD k ad ra rb) ad false (acc + p 64 0) ∧
    Claim.Accumulates s k 4 (.macDs k ad ra rb) ad true (acc + p 64 0)) ∧
  (∀ (s : State) (k : CoreNo) (ad : AccNo) (ra : Gr) (imm : BitVec 32), Claim.Runs s k 8 →
    let a := (s.core k).arch
    let t := (a.accv ad).toInt + (a.gr ra).toInt * imm.toInt
    Claim.Accumulates s k 8 (.maci k ad ra imm) ad false t ∧ Claim.Accumulates s k 8 (.macis k ad ra imm) ad true t)

/-- A pointer update of R166: within the buffer of a modulo update the address wraps into it; else it is the sum modulo 2⁶⁴. -/
def Sys2Proof.Claim.PointerUpdate : Prop :=
  ∀ (x : Arch) (n : Nat) (a i : Word),
    let b := (x.csrv (0x020 + 2 * n)).toNat
    let l := (x.csrv (0x021 + 2 * n)).toNat
    (x.updated 0 a i = a + i) ∧
    (b ≤ a.toNat → a.toNat < b + l → b + l ≤ 2 ^ 64 →
      b ≤ (x.updated (n + 1) a i).toNat ∧ (x.updated (n + 1) a i).toNat < b + l ∧
        ((x.updated (n + 1) a i).toNat : Int) % l = (a.toNat + i.toInt) % l) ∧
    (l = 0 ∨ a.toNat < b ∨ b + l ≤ a.toNat → x.updated (n + 1) a i = a + i)

/-- A MACD form with `lanes` lanes of `w` bits (R228, R229, R230): its checks in order, X first; a fetch that an earlier store overlaps
in part waits (R258); its sum of products; its pointer updates, the Y pointer's last. -/
def Sys2Proof.Claim.DualFetch (s : State) (k : CoreNo) (m : MacdOp) (c : Instr) (w lanes : Nat) (sub sat : Bool) : Prop :=
  let o := Claim.opened s k 8
  let a := (s.core k).arch
  let x := a.gr m.rd
  let y := a.gr m.ra
  let sz := w * lanes / 8
  let bank := 8192 * o.fget (MEM_C_L1CFG (o.coreKey k)) 4 2
  let traps (t : Nat) (v : Word) : Prop := exec c s = .next (Claim.ended s k 8 o (.trap t v))
  let bad := m.msx = 3 ∨ m.msy = 3 ∨ m.rd = m.ra
  let inBank (p : Word) (base : Nat) : Prop := base ≤ p.toNat ∧ p.toNat + sz ≤ base + bank
  let xOk := x.toNat % (w / 8) = 0 ∧ inBank x 0x00E000000000
  let waits := (o.core k).overlap .loc x.toNat sz = .part ∨ (o.core k).overlap .loc y.toNat sz = .part
  let acc := (a.accv m.acc).toInt
  let sum := Claim.sumI ((List.range lanes).map (fun i =>
    Claim.lane w i (BitVec.ofNat 64 (o.seen k .loc x.toNat sz)) * Claim.lane w i (BitVec.ofNat 64 (o.seen k .loc y.toNat sz))))
  let b := Claim.accumulated a m.acc sat (if sub then acc - sum else acc + sum)
  (bad → traps 0x01 (firstWord c)) ∧
  (¬bad →
    (x.toNat % (w / 8) ≠ 0 → traps 0x03 x) ∧
    (x.toNat % (w / 8) = 0 → ¬inBank x 0x00E000000000 → traps 0x0F x) ∧
    (xOk → y.toNat % (w / 8) ≠ 0 → traps 0x03 y) ∧
    (xOk → y.toNat % (w / 8) = 0 → ¬inBank y 0x00E000008000 → traps 0x0F y) ∧
    (xOk → y.toNat % (w / 8) = 0 → inBank y 0x00E000008000 →
      (waits → exec c s = .next (Claim.ended s k 8 o .stall)) ∧
      (¬waits → exec c s = .next (Claim.done s k 8
        ((b.setGr m.rd (a.updated m.msx.toNat x (m.xinc.signExtend 64))).setGr m.ra
          (a.updated m.msy.toNat y (m.yinc.signExtend 64))) .seq))))

/-- The dual-fetch forms (R166, R227, R228, R229, R230). -/
def Sys2Proof.Claim.DualFetchMac : Prop :=
  Claim.PointerUpdate ∧
  ∀ (s : State) (k : CoreNo) (m : MacdOp), Claim.Runs s k 8 →
    Claim.DualFetch s k m (.macdH4 k m) 16 4 false false ∧ Claim.DualFetch s k m (.macdH4s k m) 16 4 false true ∧
    Claim.DualFetch s k m (.msudH4 k m) 16 4 true false ∧ Claim.DualFetch s k m (.msudH4s k m) 16 4 true true ∧
    Claim.DualFetch s k m (.macdH1 k m) 16 1 false false ∧ Claim.DualFetch s k m (.macdH1s k m) 16 1 false true ∧
    Claim.DualFetch s k m (.macdW2 k m) 32 2 false false ∧ Claim.DualFetch s k m (.macdW2s k m) 32 2 false true

/-- A load (R203, R204, R205, R209, R255, R258, R271): reserved fields and failed checks trap; a load that an earlier store overlaps in part
waits; bytes come from the queued stores or memory, and what comes from outside the pair is a data input; a poisoned line traps
ACCESS_FAULT; a device-region load goes out once every older store has taken effect. -/
def Sys2Proof.Claim.Loads (s : State) (k : CoreNo) (c : Instr) (r : Gr) (m : MemOp) (sz : LdSize) : Prop :=
  let o := Claim.opened s k 4
  let n := LdSize.bytes sz
  let va := (s.core k).arch.memAddr m n
  let p := o.tlbFill k va.toNat
  let gets (t : State) (v : Nat) : Prop :=
    exec c s = .next (Claim.ended s k 4 (Claim.withArch t k ((t.core k).arch.loaded r m sz v)) .seq)
  (memLoadOk m r = false → exec c s = .next (Claim.ended s k 4 o (.trap 0x01 (firstWord c)))) ∧
  (memLoadOk m r = true →
    (∀ cause t, o.check k .read va.toNat n = .trap cause t → exec c s = .next (Claim.ended s k 4 t (.trap cause va))) ∧
    (∀ ty pa, o.check k .read va.toNat n = .ok ty pa → ty ≠ .device →
      ((p.core k).overlap ty pa n = .part → exec c s = .next (Claim.ended s k 4 p .stall)) ∧
      ((p.core k).overlap ty pa n = .all → gets p (p.seen k ty pa n)) ∧
      ((p.core k).overlap ty pa n = .none →
        let l := if ty = .cacheable then p.loadLine k pa else p
        let v := l.seen k ty pa n
        (l.poisoned k ty pa = false → gets (if p.outside k ty then l.sampled k (BitVec.ofNat 64 v) else l) v) ∧
        (l.poisoned k ty pa = true → exec c s = .next (Claim.ended s k 4 (l.poisonLog pa) (.trap 0x04 va))))) ∧
    (∀ pa, o.check k .read va.toNat n = .ok .device pa →
      let t := p.flushQueues k
      let d := (t.ownGroup k).devRead k pa n
      (t.hold = none → t.issues k = true → gets (d.2.sampled k (BitVec.ofNat 64 d.1)) d.1) ∧
      (t.hold.isSome = true ∨ t.issues k = false → exec c s = .next (Claim.ended s k 4 t .stall))))

/-- The state after a store has joined the pre-commit queue of core `k`, in its group (R257, R274). -/
def Sys2Proof.Claim.joined (t : State) (k : CoreNo) (st : Store) : State :=
  t.setCore k (CoreSt.onLast { t.core k with preq := (t.core k).preq ++ [st] } (fun g => { g with stores := g.stores + 1 }))

/-- The queues of core `k` have no room for a store: 16 entries wait to commit, or 16 to drain (R204, R257). -/
def Sys2Proof.Claim.Full (t : State) (k : CoreNo) : Prop := 16 ≤ (t.core k).preq.length ∨ 16 ≤ (t.core k).sb.length

/-- A store of `n` bytes (R203, R205, R257): it enters the pre-commit queue, and waits while the queues are full. -/
def Sys2Proof.Claim.Stores (s : State) (k : CoreNo) (c : Instr) (r : Gr) (m : MemOp) (n : Nat) : Prop :=
  let o := Claim.opened s k 4
  let a := (s.core k).arch
  let va := a.memAddr m n
  let p := o.tlbFill k va.toNat
  (memOk m = false → exec c s = .next (Claim.ended s k 4 o (.trap 0x01 (firstWord c)))) ∧
  (memOk m = true →
    (∀ cause t, o.check k .write va.toNat n = .trap cause t → exec c s = .next (Claim.ended s k 4 t (.trap cause va))) ∧
    (∀ ty pa, o.check k .write va.toNat n = .ok ty pa →
      let t := Claim.joined p k (p.newStore k .data ty va.toNat pa (leBytes n (a.gr r).toNat))
      (Claim.Full p k → exec c s = .next (Claim.ended s k 4 p .stall)) ∧
      (¬Claim.Full p k → exec c s = .next (Claim.ended s k 4 (Claim.withArch t k ((t.core k).arch.memBase m n)) .seq))))

/-- The addressing forms (R203): the access address and the base register after it. -/
def Sys2Proof.Claim.AddressForms : Prop :=
  ∀ (a : Arch) (m : MemOp) (n : Nat),
    let b := a.gr m.ra
    let ofs := BitVec.ofInt 64 (m.ofs.toInt * n)
    let rb := a.gr (m.ofs.toNat / 2 ^ 7)
    (m.am = 0 → a.memAddr m n = b + ofs ∧ a.memBase m n = a) ∧
    (m.am = 1 → a.memAddr m n = b ∧ a.memBase m n = a.setGr m.ra (a.updated m.ms.toNat b ofs)) ∧
    (m.am = 2 → a.memAddr m n = b + rb * BitVec.ofNat 64 n ∧ a.memBase m n = a) ∧
    (m.am = 3 → a.memAddr m n = b ∧ a.memBase m n = a.setGr m.ra (a.updated m.ms.toNat b rb))

/-- The register value of `n` loaded bytes (R204): LB, LH and LW extend the sign, the others fill with zeros. -/
def Sys2Proof.Claim.LoadExtends : Prop :=
  ∀ v : Nat,
    (LdSize.extend .b v = BitVec.ofInt 64 (BitVec.ofNat 8 v).toInt) ∧
    (LdSize.extend .h v = BitVec.ofInt 64 (BitVec.ofNat 16 v).toInt) ∧
    (LdSize.extend .w v = BitVec.ofInt 64 (BitVec.ofNat 32 v).toInt) ∧
    (∀ sz ∈ [LdSize.bu, .hu, .wu, .d], v < 2 ^ (8 * LdSize.bytes sz) → (LdSize.extend sz v).toNat = v)

/-- The checks of a data access in order (R30, R31, R170, R205): privilege before alignment, alignment before range. -/
def Sys2Proof.Claim.AccessChecks : Prop :=
  ∀ (s : State) (k : Nat) (need : Need) (va n : Nat),
    let m := (s.core k).arch.mode
    let bank := 8192 * s.fget (MEM_C_L1CFG (s.coreKey k)) 4 2
    (0xF000000000 ≤ va → va < 0xF004000000 → m ≠ .monitor → s.check k need va n = .trap 0x02 s) ∧
    (0xE100000000 ≤ va → va < 0xE100A20000 → m ≠ .monitor → s.check k need va n = .trap 0x02 s) ∧
    (0xF800000000 ≤ va → va < 0xF800001000 → m = .user → s.check k need va n = .trap 0x02 s) ∧
    (0xE000000000 ≤ va → va < 0xE000010000 →
      (va % n ≠ 0 → s.check k need va n = .trap 0x03 s) ∧
      (va % n = 0 →
        (va - 0xE000000000 + n ≤ bank ∨ (0xE000008000 ≤ va ∧ va - 0xE000008000 + n ≤ bank) →
          s.check k need va n = .ok .loc va) ∧
        (bank < va - 0xE000000000 + n → va < 0xE000008000 ∨ bank < va - 0xE000008000 + n →
          s.check k need va n = .trap 0x0F s))) ∧
    (va < 0x800000000 → va % n ≠ 0 → s.check k need va n = .trap 0x03 s) ∧
    (va < 0x800000000 → va % n = 0 → m ≠ .monitor → s.xlate k va = .fault → s.check k need va n = .trap 0x0E s) ∧
    (va < 0x800000000 → va % n = 0 → m ≠ .monitor → ∀ e, s.xlate k va = .ok e → pagePermits e m need = false →
      s.check k need va n = .trap 0x04 s) ∧
    (va < 0x800000000 → va % n = 0 → m = .monitor → s.keyPage va = false →
      s.check k need va n = .ok (if s.monUncached va then .uncached else .cacheable) va) ∧
    (va < 0x800000000 → va % n = 0 → m = .monitor → s.keyPage va = true →
      s.check k need va n = .trap 0x04 (s.count SEC_PERMFAIL 1))

/-- A byte that a core's queued store writes is what its later loads of that memory type get, and every other byte is as
before (R258). -/
def Sys2Proof.Claim.StoreForwarding : Prop :=
  ∀ (s : State) (k : Nat) (ty ty' : MemTy) (pa a : Nat) (va : Nat) (bs : List Byte),
    let t := s.setCore k { s.core k with preq := (s.core k).preq ++ [s.newStore k .data ty va pa bs] }
    (ty' = ty → pa ≤ a → ∀ h : a - pa < bs.length, t.seenByte k ty a = bs[a - pa]) ∧
    (ty' ≠ ty ∨ a < pa ∨ pa + bs.length ≤ a → t.seenByte k ty' a = s.seenByte k ty' a)

/-- Loads and stores (R203 to R205, R209, R255, R257, R258). -/
def Sys2Proof.Claim.LoadsAndStores : Prop :=
  Claim.AddressForms ∧ Claim.LoadExtends ∧ Claim.AccessChecks ∧ Claim.StoreForwarding ∧
  ∀ (s : State) (k : CoreNo) (r : Gr) (m : MemOp), Claim.Runs s k 4 →
    Claim.Loads s k (.lb k r m) r m .b ∧ Claim.Loads s k (.lbu k r m) r m .bu ∧ Claim.Loads s k (.lh k r m) r m .h ∧
    Claim.Loads s k (.lhu k r m) r m .hu ∧ Claim.Loads s k (.lw k r m) r m .w ∧ Claim.Loads s k (.lwu k r m) r m .wu ∧
    Claim.Loads s k (.ld k r m) r m .d ∧
    Claim.Stores s k (.sb k r m) r m 1 ∧ Claim.Stores s k (.sh k r m) r m 2 ∧ Claim.Stores s k (.sw k r m) r m 4 ∧
    Claim.Stores s k (.sd k r m) r m 8

/-- An atomic whose value is `new old` (R206, R207, R208): its checks; a target in own local memory, whose new value is queued
(it waits while the queues are full, or while an earlier store overlaps it in part); any other target, read and written in one step once
every older store has taken effect, its old value a data input (R271). It forms a retirement group of its own (R273). -/
def Sys2Proof.Claim.Atomic (s : State) (k : CoreNo) (c : Instr) (cas sz : Bool) (rd ra : Gr) (new : Nat → Option Nat) : Prop :=
  let o := Claim.opened s k 4
  let a := (s.core k).arch
  let n := if sz then 8 else 4
  let va := a.gr ra
  let res (x : Arch) (old : Nat) : Arch :=
    let y := x.setGr rd (if sz then BitVec.ofNat 64 old else (BitVec.ofNat 32 old).signExtend 64)
    if cas then y.setFlg { y.flg with z := (new old).isSome } else y
  let ends (t : State) (old : Nat) : Prop :=
    exec c s = .next (Claim.ended s k 4 (Claim.withArch t k (res (t.core k).arch old)) .seq)
  let waits (t : State) : Prop := exec c s = .next (Claim.ended s k 4 t .stall)
  (∀ cause t, o.check k .both va.toNat n = .trap cause t → exec c s = .next (Claim.ended s k 4 t (.trap cause va))) ∧
  (∀ pa, o.check k .both va.toNat n = .ok .loc pa →
    let w := o.ownGroup k
    let old := w.seen k .loc pa n
    ((w.core k).overlap .loc pa n = .part → waits w) ∧
    ((w.core k).overlap .loc pa n ≠ .part →
      (new old = none → ends w old) ∧
      (∀ v, new old = some v → (Claim.Full w k → waits w) ∧
        (¬Claim.Full w k → ends (Claim.joined w k (w.newStore k .data .loc va.toNat pa (leBytes n v))) old)))) ∧
  (∀ ty pa, ty ≠ .loc → o.check k .both va.toNat n = .ok ty pa →
    let t := (o.tlbFill k va.toNat).flushQueues k
    let g := t.ownGroup k
    (t.hold.isSome = true ∨ t.issues k = false → waits t) ∧
    (t.hold = none → t.issues k = true → (g.core k).arch = a →
      (ty = .device →
        let d := g.devRead k pa n
        (new d.1 = none → ends (d.2.sampled k (BitVec.ofNat 64 d.1)) d.1) ∧
        (∀ v, new d.1 = some v →
          ends ((d.2.devWrite pa (d.2.core k).pn n v).sampled k (BitVec.ofNat 64 d.1)) d.1)) ∧
      (ty ≠ .device →
        let u := if ty = .cacheable then g.homeTake (k.val / 18) (pa / 64) else g
        let old := ofLe (if ty = .cacheable then u.cohRead (k.val / 18) pa n else u.hbmRead pa n)
        (u.poisoned k ty pa = true → exec c s = .next (Claim.ended s k 4 (u.poisonLog pa) (.trap 0x04 va))) ∧
        (u.poisoned k ty pa = false →
          (new old = none → ends (u.sampled k (BitVec.ofNat 64 old)) old) ∧
          (∀ v, new old = some v → ends ((if ty = .cacheable then u.homeWrite (k.val / 18) pa (leBytes n v)
            else u.hbmWrite pa (leBytes n v)).sampled k (BitVec.ofNat 64 old)) old)))))

/-- Atomics: AMOSWAP, AMOADD, AMOAND, AMOOR and CAS of 4 or 8 bytes (R206 to R208). -/
def Sys2Proof.Claim.Atomics : Prop :=
  ∀ (s : State) (k : CoreNo) (sz : Bool) (rd ra rb : Gr), Claim.Runs s k 4 →
    let a := (s.core k).arch
    let w := if sz then 2 ^ 64 else 2 ^ 32
    let b := (a.gr rb).toNat % w
    Claim.Atomic s k (.amoswap k sz rd ra rb) false sz rd ra (fun _ => some b) ∧
    Claim.Atomic s k (.amoadd k sz rd ra rb) false sz rd ra (fun old => some ((old + b) % w)) ∧
    Claim.Atomic s k (.amoand k sz rd ra rb) false sz rd ra (fun old => some (Nat.land old b)) ∧
    Claim.Atomic s k (.amoor k sz rd ra rb) false sz rd ra (fun old => some (Nat.lor old b)) ∧
    Claim.Atomic s k (.cas k sz rd ra rb) true sz rd ra
      (fun old => if old = (a.gr rd).toNat % w then some b else none)

/-- A cache operation on the line that ra + sext(imm) names (R210, R211): INVAL is not for User; device regions take none; on a
line of normal cacheable memory it enters the queue of stores. -/
def Sys2Proof.Claim.CacheOp (s : State) (k : CoreNo) (c : Instr) (ra : Gr) (imm : BitVec 16) (op : StoreOp) (need : Need)
    (bytes : List Byte) : Prop :=
  let o := Claim.opened s k 4
  let a := (s.core k).arch
  let va := (a.gr ra + imm.signExtend 64) - BitVec.ofNat 64 ((a.gr ra + imm.signExtend 64).toNat % 64)
  let p := o.tlbFill k va.toNat
  let traps (t : State) (cause : Nat) : Prop := exec c s = .next (Claim.ended s k 4 t (.trap cause va))
  let queued (ty : MemTy) (pa : Nat) : Prop :=
    (Claim.Full p k → exec c s = .next (Claim.ended s k 4 p .stall)) ∧
    (¬Claim.Full p k → exec c s = .next (Claim.ended s k 4
      (Claim.joined p k (p.newStore k (if ty = .cacheable then op else .data) ty va.toNat pa bytes)) .seq))
  let ok := privFault a.mode (region va.toNat) = false ∧ (op = .inval → a.mode ≠ .user)
  (op = .inval → a.mode = .user → traps o 0x02) ∧
  (privFault a.mode (region va.toNat) = true → traps o 0x02) ∧
  (ok → region va.toNat = .dev ∨ region va.toNat = .window ∨ (∃ j, region va.toNat = .core j) → traps o 0x04) ∧
  (ok → region va.toNat = .hbm ∨ region va.toNat = .own ∨ region va.toNat = .reserved →
    (∀ cause t, o.check k need va.toNat 64 = .trap cause t → traps t cause) ∧
    (∀ pa, o.check k need va.toNat 64 = .ok .cacheable pa → queued .cacheable pa) ∧
    (∀ ty pa, ty = .loc ∨ ty = .uncached → o.check k need va.toNat 64 = .ok ty pa →
      (op = .zline → queued ty pa) ∧ (op ≠ .zline → exec c s = .next (Claim.ended s k 4 p .seq))))

/-- Cache operations (R210, R211), IINV and fences (R212): a fence waits until every earlier store has taken effect, FENCE.S also for the
acknowledgement of a store that started a change of an L1 configuration (R247). -/
def Sys2Proof.Claim.CacheOpsAndFences : Prop :=
  ∀ (s : State) (k : CoreNo), Claim.Runs s k 4 →
    (∀ (ra : Gr) (imm : BitVec 16),
      Claim.CacheOp s k (.zline k ra imm) ra imm .zline .write (List.replicate 64 0) ∧
      Claim.CacheOp s k (.clean k ra imm) ra imm .clean .read [] ∧
      Claim.CacheOp s k (.inval k ra imm) ra imm .inval .write [] ∧
      Claim.CacheOp s k (.flush k ra imm) ra imm .flush .read [] ∧
      (let o := Claim.opened s k 4
       let va := ((s.core k).arch.cacheAddr ra imm).toNat
       let p := o.tlbFill k va
       va < 0x800000000 → ∀ pa, o.check k .exec va 64 = .ok .cacheable pa →
        exec (.iinv k ra imm) s = .next (Claim.ended s k 4 (p.iinv k (pa / 64)) .seq))) ∧
    (let t := (Claim.opened s k 4).flushQueues k
     let g := t.ownGroup k
     (t.hold = none → t.issues k = true →
      (exec (.fenceC k) s = .next (Claim.ended s k 4 g .seq)) ∧ (exec (.fenceL k) s = .next (Claim.ended s k 4 g .seq)) ∧
      (g.unacked k = false → exec (.fenceS k) s = .next (Claim.ended s k 4 g .seq)) ∧
      (g.unacked k = true → exec (.fenceS k) s = .next (Claim.ended s k 4 g .stall))) ∧
     (t.hold.isSome = true ∨ t.issues k = false → ∀ c ∈ [Instr.fenceC k, .fenceL k, .fenceS k],
      exec c s = .next (Claim.ended s k 4 t .stall)))

/-- The oldest entry of the store buffer drains (R247, R257, R264, R266): not in IDLE and DOZE, unless an entry into BIVOUAC waits for it;
a device-region store reaches its target, or is dropped where that is gated; a store to a page that is its partition's no longer is
dropped; any other one takes effect. -/
def Sys2Proof.Claim.StoreDrain : Prop :=
  ∀ (s : State) (k : CoreNo), s.up →
    let bivouac := s.dphase (k.val / 2) = 1 ∧ (s.dom (k.val / 2)).aim = 3
    (s.dstate (k.val / 2) = 1 ∨ s.dstate (k.val / 2) = 2 → ¬bivouac → exec (.storeDrain k) s = .next s) ∧
    ((s.core k).sb = [] → exec (.storeDrain k) s = .next s) ∧
    ((s.dstate (k.val / 2) ≠ 1 ∧ s.dstate (k.val / 2) ≠ 2) ∨ bivouac → ∀ st rest, (s.core k).sb = st :: rest →
      let t := s.setCore k { s.core k with sb := rest }
      let u := t.devWrite st.pa st.pn st.bytes.length (ofLe (st.bytes.map (fun b => b.getD 0)))
      (st.ty = .device → t.devGone st.pa = false →
        exec (.storeDrain k) s = .next
          (if 0xF000088000 ≤ st.pa ∧ st.pa < 0xF00008A880 then u.changeBy k ((st.pa - 0xF000088000) / 0x40) else u)) ∧
      (st.ty = .device → t.devGone st.pa = true → exec (.storeDrain k) s = .next
        ((t.storeDropped k st 2).errLog stDown (devSrc st.pa) none st.pa)) ∧
      (st.ty ≠ .device → st.ty ≠ .loc → st.mode ≠ .monitor → t.owner (st.pa / 0x200000) ≠ some st.pn →
        exec (.storeDrain k) s = .next ((t.storeDropped k st 3).errLog stPerm srcMem (some st.pn) st.pa)) ∧
      (st.ty = .loc → exec (.storeDrain k) s = .next (t.setCore k ((t.core k).putStore (st.pa - 0xE000000000) st.bytes))) ∧
      (st.mode = .monitor ∨ t.owner (st.pa / 0x200000) = some st.pn →
        (st.ty = .uncached → st.op = .data → exec (.storeDrain k) s = .next (t.uncachedStore st.pa st.bytes)) ∧
        (st.ty = .cacheable → st.op = .data → exec (.storeDrain k) s = .next (t.cacheStore k st.pa st.bytes)) ∧
        (st.ty = .cacheable → st.op ≠ .data → exec (.storeDrain k) s = .next (t.cacheOp k st.op (st.pa / 64)))))

/-- Cache operations, fences and the drain of the store buffer: CacheOpsAndFences, StoreDrain. -/
def Sys2Proof.Claim.CacheOperationsAndFences : Prop := Claim.CacheOpsAndFences ∧ Claim.StoreDrain

/-- Timeouts of device-region accesses (R263, R264, R265, R267): a timed-out store is dropped with its syndrome and a pending STORE_ERROR,
and with it every younger one to the same block, which sets OVF; a timed-out load traps TARGET_DOWN. A STORE_ERROR of a partition whose
epoch has changed is not kept (R397). -/
def Sys2Proof.Claim.DeviceTimeouts : Prop :=
  ∀ (s : State) (k : CoreNo),
    (s.up → ∀ st rest, (s.core k).sb = st :: rest → st.ty = .device →
      let dead := rest.filter (fun x => x.ty == .device && devBlock x.pa == devBlock st.pa)
      let live := rest.filter (fun x => !(x.ty == .device && devBlock x.pa == devBlock st.pa))
      let u := (s.setCore k { s.core k with sb := live }).storeDropped k st 1
      (dead = [] → exec (.deviceStoreTimeout k) s = .next u) ∧
      (dead ≠ [] → exec (.deviceStoreTimeout k) s = .next
        ((u.count (MEM_C_SECNT k) dead.length).fset (MEM_C_SERR_HI k) 30 1 1))) ∧
    (s.up → (∀ st ∈ (s.core k).sb.head?, st.ty ≠ .device) → exec (.deviceStoreTimeout k) s = .next s) ∧
    (∀ st cause, s.canonical = true → cause < 8 →
      let t := s.storeDropped k st cause
      (s.fbit (MEM_C_SERR_HI k) 31 = false → t.rd (MEM_C_SERR_LO k) = st.pa % 2 ^ 32 ∧
        t.fget (MEM_C_SERR_HI k) 31 1 = 1) ∧
      (s.fbit (MEM_C_SERR_HI k) 31 = true → t.rd (MEM_C_SERR_LO k) = s.rd (MEM_C_SERR_LO k) ∧
        t.fget (MEM_C_SERR_HI k) 30 1 = 1) ∧
      t.rd (MEM_C_SECNT k) = min (s.rd (MEM_C_SECNT k) + 1) 0xFFFFFFFF ∧
      (st.mode = .monitor ∨ st.epoch = s.epoch st.pn → (t.core k).errs = (s.core k).errs ++ [⟨st.va, st.mode, st.pn, st.epoch⟩]) ∧
      (st.mode ≠ .monitor → st.epoch ≠ s.epoch st.pn → t.core k = s.core k)) ∧
    (Claim.Runs s k 4 → ∀ (m : MemOp) (sz : LdSize) (pa : Nat), memOk m = true →
      let o := Claim.opened s k 4
      let va := (s.core k).arch.memAddr m (LdSize.bytes sz)
      o.check k .read va.toNat (LdSize.bytes sz) = .ok .device pa →
      let t := (o.tlbFill k va.toNat).flushQueues k
      t.hold = none → t.issues k = true →
      exec (.deviceLoadTimeout k m sz) s = .next (Claim.ended s k 4 (t.ownGroup k) (.trap 0x05 va)))

/-- The mode that takes a trap, precise or not (R169). -/
def Sys2Proof.Claim.TrapRouting : Prop :=
  ∀ (a : Arch) (cause : Nat),
    (a.mode = .monitor → a.trapMode cause true = .monitor) ∧
    (a.mode = .user → cause = 0x0C → a.trapMode cause true = .supervisor) ∧
    (a.mode = .supervisor → cause = 0x0C → a.trapMode cause true = .monitor) ∧
    (a.mode ≠ .monitor → cause ≠ 0x0C → a.csrf 0x806 cause 1 = 1 → a.trapMode cause true = .monitor) ∧
    (a.mode = .supervisor → cause ≠ 0x0C → a.csrf 0x401 1 1 = 1 → a.trapMode cause true = .monitor) ∧
    (a.mode = .user → cause ≠ 0x0C → a.csrf 0x806 cause 1 = 0 → a.trapMode cause true = .supervisor) ∧
    (a.mode = .supervisor → cause ≠ 0x0C → a.csrf 0x806 cause 1 = 0 → a.csrf 0x401 1 1 = 0 →
      a.trapMode cause true = .supervisor) ∧
    (a.mode = .monitor → a.trapMode cause false = .monitor) ∧
    (a.mode ≠ .monitor → cause ≠ 0x0C → a.csrf 0x806 cause 1 = 1 → a.trapMode cause false = .monitor) ∧
    (a.mode ≠ .monitor → cause ≠ 0x0C → a.csrf 0x806 cause 1 = 0 → a.trapMode cause false = .supervisor)

/-- Trap entry into mode `m`, whose registers start at number `n` (R172): the saved pc, cause, value, mode, IE and depth; IE 0,
TD 1, DEPTH 0; the vector. Every other register is unchanged. -/
def Sys2Proof.Claim.TrapEntry : Prop :=
  ∀ (a : Arch) (m : Mode) (int : Bool) (code : Nat) (val : Word), tabSorted a.csr = true → code < 256 →
    let n := if m = .monitor then 0x800 else 0x401
    let t := a.enter m int code val
    t.mode = m ∧ t.g = a.g ∧ t.acc = a.acc ∧ t.tlb = a.tlb ∧
    t.csrv (n + 2) = BitVec.ofNat 64 a.pc.toNat ∧
    t.csrv (n + 3) = BitVec.ofNat 64 (b2n int * 2 ^ 63 + code) ∧
    t.csrv (n + 4) = val ∧
    t.csrf n 0 1 = 0 ∧ t.csrf n 1 1 = 1 ∧ t.csrf n 4 1 = a.csrf n 0 1 ∧ t.csrf n 5 2 = a.mode.code ∧ t.csrf n 9 3 = a.depth ∧
    t.depth = 0 ∧
    t.pc = BitVec.ofNat 48 (if int then (a.csrv (n + 1)).toNat else (a.csrv (n + 1)).toNat + 0x40 * code) ∧
    (∀ i, i ≠ n → i ≠ n + 2 → i ≠ n + 3 → i ≠ n + 4 → i ≠ 0x01C → t.csrv i = a.csrv i)

/-- The return from a trap in mode `m` (R172): mode, IE, DEPTH and pc come back, TD is 0. -/
def Sys2Proof.Claim.TrapReturn : Prop :=
  ∀ (a : Arch) (m : Mode) (d : Nat), tabSorted a.csr = true → d < 8 →
    let n := if m = .monitor then 0x800 else 0x401
    let t := a.tret m d
    t.mode = Mode.ofCode (a.csrf n 5 2) ∧ t.csrf n 0 1 = a.csrf n 4 1 ∧ t.csrf n 1 1 = 0 ∧ t.depth = d ∧
    t.pc = BitVec.ofNat 48 (a.csrv (n + 2)).toNat ∧ t.g = a.g ∧ t.acc = a.acc ∧ t.tlb = a.tlb ∧
    (∀ i, i ≠ n → i ≠ 0x01C → t.csrv i = a.csrv i)

/-- The trap instructions and the end of an instruction that traps: INSTRET does not count it, the pc and the registers are those
of trap entry at the trapping instruction (R168 to R172). TRET restores what the trap saved, or traps PRIV in User and below its PMODE; a
PDEPTH above 4 names no depth: the depth is then free (assumption 2). -/
def Sys2Proof.Claim.TrapInstructions : Prop :=
  (∀ (c : CoreSt) (n cause : Nat) (val : Word),
    (c.retire n (.trap cause val)).arch = c.arch.enter (c.arch.trapMode cause true) false cause val) ∧
  ∀ (s : State) (k : CoreNo), Claim.Runs s k 4 →
    let a := (s.core k).arch
    let o := Claim.opened s k 4
    exec (.ecall k) s = .next (Claim.done s k 4 a (.trap 0x0C 0)) ∧
    exec (.brk k) s = .next (Claim.done s k 4 a (.trap 0x0D 0)) ∧
    (∀ w : BitVec 32, decodeWords k w.toNat 0 = none →
      exec (.illegalInstr k w) s = .next (Claim.ended s k 4 o (.trap 0x01 (BitVec.ofNat 64 w.toNat)))) ∧
    (let m := a.mode
     let n := if m = .monitor then 0x800 else 0x401
     (m = .user ∨ m.code < a.csrf n 5 2 →
       exec (.tret k) s = .next (Claim.ended s k 4 o (.trap 0x02 (firstWord (.tret k))))) ∧
     (m ≠ .user → a.csrf n 5 2 ≤ m.code → a.csrf n 9 3 ≤ 4 →
       let b := a.tret m (a.csrf n 9 3)
       exec (.tret k) s = .next (Claim.ended s k 4 ((Claim.withArch o k b).closeGroup k) (.jump b.pc.toNat))) ∧
     (m ≠ .user → a.csrf n 5 2 ≤ m.code → 4 < a.csrf n 9 3 →
       ∃ d, d ≤ 4 ∧ exec (.tret k) s = .next
         (Claim.ended s k 4 ((Claim.withArch o.draw.2 k (a.tret m d)).closeGroup k) (.jump (a.tret m d).pc.toNat))))

/-- Traps and returns (R168 to R172, R237). -/
def Obligations.TrapsAndReturns : Prop :=
  Claim.TrapRouting ∧ Claim.TrapEntry ∧ Claim.TrapReturn ∧ Claim.TrapInstructions

/-- CSRR of a register (R158, R159, R160, R161, R237, R271): an undefined number traps ILLEGAL_INSTR, a mode below the register's traps
PRIV; else rd takes the value, for each kind of register, a data input among them sampled first. CYCLE has advanced by a free number. -/
def Sys2Proof.Claim.CsrReads : Prop :=
  ∀ (s : State) (k : CoreNo) (rd : Gr) (csr : BitVec 12), Claim.Runs s k 4 →
    let a := (s.core k).arch
    let o := Claim.opened s k 4
    let n := csr.toNat
    let i := (n - 0x030) / 2
    let word := firstWord (.csrr k rd csr)
    let ok := csrDefined n = true ∧ csrAllowed a.mode n = true
    let val (t : State) (v : Word) : Prop :=
      exec (.csrr k rd csr) s = .next (Claim.ended s k 4 (Claim.withArch t k ((t.core k).arch.setGr rd v)) .seq)
    let smp (v : Word) : Prop := val (o.sampled k v) v
    (csrDefined n = false → exec (.csrr k rd csr) s = .next (Claim.ended s k 4 o (.trap 0x01 word))) ∧
    (csrDefined n = true → csrAllowed a.mode n = false → exec (.csrr k rd csr) s = .next (Claim.ended s k 4 o (.trap 0x02 word))) ∧
    (ok → csrMask n ≠ none → n < 0x030 ∨ 0x038 ≤ n → val o (a.csrv n)) ∧
    (ok → 0x030 ≤ n → n < 0x038 → n % 2 = 0 → val o (BitVec.ofNat 64 (a.accv i).toNat)) ∧
    (ok → 0x030 ≤ n → n < 0x038 → n % 2 = 1 → val o (BitVec.ofInt 64 ((a.accv i).toInt / 2 ^ 64))) ∧
    (ok → n = 0xC01 → val o (a.csrv 0xC01)) ∧
    (ok → n = 0xC10 → val o (BitVec.ofNat 64 (o.pairId k))) ∧
    (ok → n = 0xC11 → smp (BitVec.ofNat 64 ((s.core k).pn * 2 ^ 8 + (s.core k).epoch))) ∧
    (ok → n = 0x408 → smp (BitVec.ofNat 64 (o.ipend k))) ∧
    (ok → n = 0x808 → smp (BitVec.ofNat 64 o.mipend)) ∧
    (ok → n = 0x40B → smp (BitVec.ofNat 64 (o.wrem k))) ∧
    (ok → 0xF00 ≤ n → smp (BitVec.ofNat 64 (o.feat (n - 0xF00)))) ∧
    (ok → n = 0xC00 →
      let v := a.csrv 0xC00 + Config.freeWord o.free
      val (Claim.withArch o.draw.2 k (a.setCsrv 0xC00 v)) v)

/-- CSRW, and CSRRW, which also reads the old value as one access (R158, R159, R160, R177, R238): an undefined or read-only register and
a reserved value trap ILLEGAL_INSTR, a mode below the register's traps PRIV; a locked translation is walked first and traps
TRANSLATE_FAULT where that fails; else the written bits take the value, and the instruction ends its group. -/
def Sys2Proof.Claim.CsrWrites : Prop :=
  ∀ (s : State) (k : CoreNo) (rd ra : Gr) (csr : BitVec 12) (rw : Bool), Claim.Runs s k 4 →
    let a := (s.core k).arch
    let n := csr.toNat
    let o := Claim.opened s k 4
    let c := if rw then Instr.csrrw k rd csr ra else .csrw k csr ra
    let old := if n < 0x030 ∨ 0x038 ≤ n then a.csrv n
      else if n % 2 = 0 then BitVec.ofNat 64 (a.accv ((n - 0x030) / 2)).toNat
      else BitVec.ofInt 64 ((a.accv ((n - 0x030) / 2)).toInt / 2 ^ 64)
    let ends (b : Arch) : Prop :=
      let t := (Claim.withArch o k b).closeGroup k
      exec c s = .next (Claim.ended s k 4
        (if rw then Claim.withArch t k ((t.core k).arch.setGr rd old) else t) .seq)
    let traps (t : State) (cause : Nat) (v : Word) : Prop := exec c s = .next (Claim.ended s k 4 t (.trap cause v))
    (csrMask n = none → traps o 0x01 (firstWord c)) ∧
    (∀ m, csrMask n = some m →
      let v := Nat.land (a.gr ra).toNat m
      (csrReserved n v = true → traps o 0x01 (firstWord c)) ∧
      (csrReserved n v = false → csrAllowed a.mode n = false → traps o 0x02 (firstWord c)) ∧
      (csrReserved n v = false → csrAllowed a.mode n = true → 0x410 ≤ n → n < 0x420 → 2 ^ 63 ≤ v →
        let va := v % 2 ^ 14 * 0x200000
        (o.walk (o.core k).pn va = .fault → traps o 0x0E (BitVec.ofNat 64 va)) ∧
        (o.walk (o.core k).pn va = .perm → traps (o.walkPerm k va) 0x0E (BitVec.ofNat 64 va)) ∧
        (∀ e, o.walk (o.core k).pn va = .ok e →
          let b := a.csrWrite n v
          ends { b with tlb := tabPut 0 b.tlb (n - 0x410) (BitVec.ofNat 64 e) })) ∧
      (csrReserved n v = false → csrAllowed a.mode n = true → n < 0x410 ∨ 0x420 ≤ n ∨ v < 2 ^ 63 → ends (a.csrWrite n v)))

/-- WFI is not for User; it waits where no wake condition holds, and not in a debugger's single step (R239); it ends its group (R273).
WFI_WAKE lets a waiting core go on once a condition holds. -/
def Sys2Proof.Claim.WaitForInterrupt : Prop :=
  ∀ (s : State) (k : CoreNo),
    (Claim.Runs s k 4 →
      let a := (s.core k).arch
      let o := Claim.opened s k 4
      (a.mode = .user → exec (.wfi k) s = .next (Claim.ended s k 4 o (.trap 0x02 (firstWord (.wfi k))))) ∧
      (a.mode ≠ .user → o.wfiEnds k = false → (s.core k).wait ≠ .oneStep →
        exec (.wfi k) s = .next (Claim.ended s k 4 ((o.setCore k { o.core k with wait := .wfi }).closeGroup k) .seq)) ∧
      (a.mode ≠ .user → o.wfiEnds k = true ∨ (s.core k).wait = .oneStep →
        exec (.wfi k) s = .next (Claim.ended s k 4 (o.closeGroup k) .seq))) ∧
    (s.up → s.awake k = true → (s.core k).wait = .wfi → s.wfiEnds k = true →
      exec (.wfiWake k) s = .next (s.setCore k { s.core k with wait := .run })) ∧
    (s.up → s.wfiEnds k = false ∨ (s.core k).wait ≠ .wfi → exec (.wfiWake k) s = .next s)

/-- The control registers and WFI: CsrReads, CsrWrites, WaitForInterrupt. -/
def Obligations.ControlRegisters : Prop := Claim.CsrReads ∧ Claim.CsrWrites ∧ Claim.WaitForInterrupt

/-- EVENT_DELIVERY and STIMER_MATCH (R160, R171, R239, R440): what is deliverable is taken by trap entry, and a waiting SLGET or WFI
ends; STORE_ERROR comes before DEADLINE, DEADLINE before interrupts, and those in ascending order. -/
def Obligations.EventDelivery : Prop :=
  ∀ (s : State) (k : CoreNo), s.up →
    (s.awake k = true → (s.core k).wait ≠ .halted → (s.core k).wait ≠ .fenced → ∀ m int code val,
      s.deliverable k = some (m, int, code, val) →
      exec (.eventDelivery k) s = .next
        (s.setCore k (CoreSt.shut { (s.core k).delivered code int (match s.storeErr k with | some (i, _) => i | none => 0) with
          arch := (s.core k).arch.enter m int code val, wait := .run }))) ∧
    (s.deliverable k = none → exec (.eventDelivery k) s = .next s) ∧
    ((s.core k).wait = .halted → exec (.eventDelivery k) s = .next s) ∧
    (let a := (s.core k).arch
     (a.td .supervisor = true → a.td .monitor = true → s.deliverable k = none) ∧
     (∀ i e, s.storeErr k = some (i, e) → e.mode = .monitor → a.td .monitor = false →
       s.deliverable k = some (.monitor, false, 0x0A, BitVec.ofNat 64 e.va)) ∧
     (s.storeErr k = none → ∀ sn, (s.core k).dlines.head? = some sn → a.td (a.trapMode 0x0B false) = false →
       s.deliverable k = some (a.trapMode 0x0B false, false, 0x0B, BitVec.ofNat 64 sn)) ∧
     (s.storeErr k = none → (s.core k).dlines = [] → a.mode ≠ .monitor → a.td .supervisor = false → a.ie .supervisor = true →
       ∀ i, i < 4 → bit (Nat.land (s.ipend k) (a.csrv 0x407).toNat) i = true →
       (∀ j, j < i → bit (Nat.land (s.ipend k) (a.csrv 0x407).toNat) j = false) →
       s.deliverable k = some (.supervisor, true, i, 0))) ∧
    (s.agent k = true → ((s.core k).arch.csrv 0x40A).toNat ≤ s.time.tick →
      exec (.stimerMatch k) s = .next (s.wake (k.val / 2) 2)) ∧
    (s.time.tick < ((s.core k).arch.csrv 0x40A).toNat → exec (.stimerMatch k) s = .next s)

/-- Command `c` samples the data input `v`, writes it to register `rd` of core `k`, and does nothing else (R271). -/
def Sys2Proof.Claim.Samples (s : State) (k : CoreNo) (c : Instr) (rd : Gr) (v : Word) : Prop :=
  let t := (Claim.opened s k 4).sampled k v
  exec c s = .next (Claim.ended s k 4 (Claim.withArch t k ((t.core k).arch.setGr rd v)) .seq)

/-- TSNOW and DLREM (R50, R236). -/
def Sys2Proof.Claim.TimeReads : Prop :=
  ∀ (s : State) (k : CoreNo) (rd : Gr), Claim.Runs s k 4 →
    Claim.Samples s k (.tsnow k rd) rd (BitVec.ofNat 64 (s.time.tick * 16)) ∧
    (∀ a t, s.agentNo k = some a → tabFind s.taken (a * 2048 + (s.core k).pn) = some t →
      Claim.Samples s k (.dlrem k rd) rd (BitVec.ofInt 64 ((t.cutoff : Int) - s.time.tick - 1))) ∧
    (∀ a, s.agentNo k = some a → tabFind s.taken (a * 2048 + (s.core k).pn) = none →
      Claim.Samples s k (.dlrem k rd) rd (BitVec.ofInt 64 (-2 ^ 63)))

/-- The registers and flags with which an SLGET ends, by its outcome (R232). -/
def Sys2Proof.Claim.SliceGetResult : Prop :=
  ∀ (x : Arch) (rd : Nat),
    let ends (w0 w1 w2 w3 : Word) (z n : Bool) : Arch :=
      ((((x.setGr rd w0).setGr (rd + 1) w1).setGr (rd + 2) w2).setGr (rd + 3) w3).setFlg
        { x.flg with z := z, n := n, c := false, v := false }
    (∀ st, x.slgetEnd rd (.status st) = ends (BitVec.ofNat 64 st) 0 0 0 false true) ∧
    (∀ w, x.slgetEnd rd (.notice w) = ends (w.getD 0 0) (w.getD 1 0) (w.getD 2 0) (w.getD 3 0) true false) ∧
    x.slgetEnd rd .none = ends 0 0 0 0 false false

/-- What the cluster stop answers an SLGET, in the order of R232's table; a notice goes to one agent alone, after those that wait
already (R233). -/
def Sys2Proof.Claim.SliceGetAnswer : Prop :=
  ∀ (s : State) (k a : Nat), s.agentNo k = some a →
    let pn := (s.core k).pn
    let ctl := s.rd (SLC_SUB_CTL pn)
    let w := (s.waiters (k / 18) pn).length
    ((s.core k).epoch ≠ s.epoch pn → s.slgetAsk k = (s.stale pn 2 (s.core k).epoch, .status stEpoch)) ∧
    ((s.core k).epoch = s.epoch pn → bit ctl 31 = false ∨ subDelivers ctl = false ∨ s.pstate pn ≠ 2 →
      s.slgetAsk k = (s, .status stState)) ∧
    ((s.core k).epoch = s.epoch pn → bit ctl 31 = true → subDelivers ctl = true → s.pstate pn = 2 →
      (s.subCl pn ≠ a / 16 → s.slgetAsk k = (s, .status stConflict)) ∧
      (s.subCl pn = a / 16 → (untaken (s.sub pn).entries)[w]? = none → s.slgetAsk k = (s, .none)) ∧
      (s.subCl pn = a / 16 → ∀ i q, (untaken (s.sub pn).entries)[w]? = some (i, q) →
        ∃ t u : State, t = s.setSub pn { s.sub pn with
            entries := setIdx (s.sub pn).entries i { q with takenBy := some a } } ∧
          u = t.withTaken (tabIns t.taken (a * 2048 + pn)
            { pn := pn, sn := q.sn, stream := t.subStr pn, held := true, warned := false,
              cutoff := (q.words.getD 1 0).toNat / 16 + t.strD (t.subStr pn) - cutC t.period }) ∧
          s.slgetAsk k = (if w = 0 then u.servedLast (k / 18) a else u, .notice q.words)))

/-- SLGET (R231, R232): a reserved RD traps; it forms a group of its own, releases the entry it holds, and ends with the answer; with
W = 1 and no notice the core waits. A waiting SLGET ends with a notice when its turn has come, or without effect where an event is to be
delivered. -/
def Sys2Proof.Claim.SliceGet : Prop :=
  Claim.SliceGetResult ∧ Claim.SliceGetAnswer ∧
  (∀ (s : State) (k : CoreNo) (rd : Gr) (wait : Bool), Claim.Runs s k 4 →
    let b := Claim.opened s k 4
    let o := b.ownGroup k
    (slgetOk rd = false →
      exec (.slget k rd wait) s = .next (Claim.ended s k 4 b (.trap 0x01 (firstWord (.slget k rd wait))))) ∧
    (slgetOk rd = true → ∀ (a : Nat) (q : State × SlOut), o.agentNo k = some a →
      q = (o.releaseHeld a (o.core k).pn).slgetAsk k →
      (q.2 = .none → wait = true → exec (.slget k rd wait) s = .next
        (Claim.ended s k 4 (q.1.setCore k { q.1.core k with wait := .slget rd }) .stall)) ∧
      (q.2 ≠ .none ∨ wait = false → exec (.slget k rd wait) s = .next
        (Claim.ended s k 4 (q.1.slgetGot k rd q.2) .seq)))) ∧
  (∀ (s : State) (k : CoreNo) (rd : Nat), s.up → s.awake k = true → (s.core k).wait = .slget rd →
    (∀ t w, s.slgetServed k = (t, .notice w) → exec (.slgetWake k) s = .next
      (((t.setCore k { t.core k with wait := .run }).slgetGot k rd (.notice w)).endInstr k 4 (t.core k).arch .seq)) ∧
    (∀ t, s.slgetServed k = (t, .none) →
      ((s.deliverable k).isSome = true → exec (.slgetWake k) s = .next
        (s.setCore k (CoreSt.shut { s.core k with wait := .run }))) ∧
      (s.deliverable k = none → exec (.slgetWake k) s = .next s)))

/-- DECIDE (R142, R234, R235, R271): the local outcome in rd, sampled, and the message to the decision fabric; it forms a group of its own and
releases the notice of the slice it decides. -/
def Sys2Proof.Claim.Decide : Prop :=
  ∀ (s : State) (k : CoreNo) (rd ra rb : Gr), Claim.Runs s k 4 →
    let a := (s.core k).arch
    let pn := (s.core k).pn
    let sn := (a.gr ra).toNat % 2 ^ 48
    let o := (Claim.opened s k 4).ownGroup k
    let ends (t : State) (st : Nat) : Prop :=
      exec (.decide k rd ra rb) s = .next (Claim.ended s k 4
        (Claim.withArch (t.sampled k (BitVec.ofNat 64 st)) k (a.setGr rd (BitVec.ofNat 64 st))) .seq)
    let inWindow := ∃ cur, s.curSn (s.subStr pn) = some cur ∧ snRel sn cur ≠ .outside
    (s.subEn pn = false → ends o stState) ∧
    (s.subEn pn = true → ¬inWindow → ends o stRange) ∧
    (s.subEn pn = true → inWindow →
      let cl := k.val / 18
      let m : DecMsg := { pn := pn, epoch := (s.core k).epoch, sn := sn, ty := (a.gr rb).toNat % 256 }
      let t := o.setCluster cl { o.cluster cl with decq := (o.cluster cl).decq ++ [m] }
      ∀ g, s.agentNo k = some g →
        (∀ n, tabFind s.taken (g * 2048 + pn) = some n → n.held = true → n.sn = sn → ends (t.releaseHeld g pn) stOk) ∧
        ((∀ n, tabFind s.taken (g * 2048 + pn) = some n → n.held = false ∨ n.sn ≠ sn) → ends t stOk))

/-- The DEADLINE warning (R173): with CTL.DLT = 1, for a held notice not yet warned of, once DLREM is DLWARN or less. -/
def Sys2Proof.Claim.DeadlineWarning : Prop :=
  ∀ (s : State) (k : CoreNo) (a : Nat) (t : Taken), s.up → s.agentNo k = some a →
    tabFind s.taken (a * 2048 + (s.core k).pn) = some t →
    (s.agent k = true → s.curPn k = some (s.core k).pn → (s.core k).arch.csrf 0x400 3 1 = 1 → t.held = true → t.warned = false →
      (t.cutoff : Int) - s.time.tick - 1 ≤ (s.core k).arch.csrf 0x409 0 12 →
      exec (.deadlineWarning k) s = .next
        ((s.withTaken (tabIns s.taken (a * 2048 + (s.core k).pn) { t with warned := true })).setCore k
          { s.core k with dlines := (s.core k).dlines ++ [t.sn] })) ∧
    (t.held = false ∨ t.warned = true ∨ (s.core k).arch.csrf 0x400 3 1 = 0 ∨
      ((s.core k).arch.csrf 0x409 0 12 : Int) < (t.cutoff : Int) - s.time.tick - 1 →
      exec (.deadlineWarning k) s = .next s)

/-- The trigger operations: TimeReads, SliceGet, Decide, DeadlineWarning. -/
def Obligations.TriggerOperations : Prop := Claim.TimeReads ∧ Claim.SliceGet ∧ Claim.Decide ∧ Claim.DeadlineWarning

/-! ## Caches, windows, retry and sparing -/

/-- GETS, GETM and PUTM of an agent with its L1D enabled (R251, R253): a line the cluster holds gets the requester as a sharer, or as
its only owner, every other copy invalidated; its fill is then in flight; a line written back has no owner and is dirty. Other lines of
the L2 keep their state. A request to a cluster out of RUN wakes it (R418). -/
def Sys2Proof.Claim.CoherentRequests : Prop :=
  ∀ (s : State) (k : CoreNo) (line : BitVec 29) (l : L2Line), s.up → s.agent k = true →
    let c := k.val / 18
    let n := line.toNat
    let d := clusterDom (k.val / 2)
    let sent (m : Bool) (t : State) : Prop :=
      (t.core k).reqs = tabIns (s.core k).reqs n { m := m, hbm := false, epoch := s.arb.epochs } ∧
      (∀ j, j ≠ n → t.l2Line c j = s.l2Line c j) ∧ t.hbm = s.hbm ∧ t.regs = s.regs
    (s.dstate d ≠ 0 → exec (.gets k line) s = .next (s.wake d 0) ∧ exec (.getm k line) s = .next (s.wake d 0)) ∧
    (s.dstate d = 0 → s.l1den k = false ∨ 8 ≤ (s.core k).reqs.length →
      exec (.gets k line) s = .next s ∧ exec (.getm k line) s = .next s) ∧
    (s.dstate d = 0 → s.l1den k = true → (s.core k).reqs.length < 8 → s.l2Line c n = some l →
      (l.owner ≠ some (k.val % 18) → ∃ t, exec (.gets k line) s = .next t ∧ sent false t ∧
        t.l2Line c n = some { l with owner := none, sharers := Nat.lor l.sharers (s.sharerBits k), dirty := l.dirty || l.owner.isSome }) ∧
      (l.owner = some (k.val % 18) → ∃ t, exec (.gets k line) s = .next t ∧ sent false t ∧ t.l2Line c n = some l) ∧
      (∃ t, exec (.getm k line) s = .next t ∧ sent true t ∧
        t.l2Line c n = some { l with owner := some (k.val % 18), sharers := s.sharerBits k, dirty := l.dirty || l.owner.isSome } ∧
        ∀ j, j ≠ k.val → j / 18 = c → tabSorted (s.core j).l1d = true → tabFind (t.core j).l1d n = none)) ∧
    (s.l2Line c n = some l →
      (l.owner = some (k.val % 18) → ∃ t, exec (.putm k line) s = .next t ∧
        (∃ m, t.l2Line c n = some { l with owner := none, dirty := true, sharers := m }) ∧
        (∀ j, j ≠ n → t.l2Line c j = s.l2Line c j) ∧ t.hbm = s.hbm ∧ t.regs = s.regs) ∧
      (l.owner ≠ some (k.val % 18) → ∃ t, exec (.putm k line) s = .next t ∧ t.clusters = s.clusters ∧ t.hbm = s.hbm ∧
        t.regs = s.regs))

/-- A write of normal cacheable memory by an agent without a cache reaches HBM, after the L2s that hold its lines modified have
written them back (R252); a cluster stop writes into its own cluster's L2; PCIe reaches no key-table page (R376). -/
def Sys2Proof.Claim.NonCachingWrites : Prop :=
  ∀ (s : State) (addr : BitVec 35) (data : List (BitVec 8)), s.up → data ≠ [] → addr.toNat + data.length ≤ 0x800000000 →
    (∀ c : Clus, exec (.nonCachingWrite (.clusterStop c) addr data) s = .next (s.stopWrite c addr.toNat data)) ∧
    (s.keyPage addr.toNat = true → exec (.nonCachingWrite .pcie addr data) s = .next s) ∧
    (∀ ag, (ag = .pcie ∧ s.keyPage addr.toNat = false) ∨ ag = .other → ∃ t, exec (.nonCachingWrite ag addr data) s = .next t ∧
      (s.canonical = true →
        (∀ i, ∀ h : i < data.length, t.hbmByte (addr.toNat + i) = data[i]) ∧
        ((∀ x ∈ s.clusters, x.2.l2 = []) → t.regs = s.regs ∧
          ∀ a, a < addr.toNat ∨ addr.toNat + data.length ≤ a → t.hbmByte a = s.hbmByte a)))

/-- DATA_INPUT of an agent (R242, R253, R271): a value enters the replay buffer; a fill of the L1I arrives only for a line the core may
fetch, one of the L1D only for a request in flight (which it ends) and in its turn at HBM, and enters the replay buffer too. -/
def Sys2Proof.Claim.DataInputs : Prop :=
  ∀ (s : State) (k : CoreNo), s.up →
    (s.agent k = false → ∀ i, exec (.dataInput k i) s = .next s) ∧
    (s.agent k = true →
      (∀ v : Word, exec (.dataInput k (.value v)) s = .next (s.setCore k ((s.core k).input (.word v)))) ∧
      (∀ line : BitVec 29,
        let n := line.toNat
        let arrived (t : State) : State := t.setCore k ((t.core k).input (.line n (t.lineData (k.val / 18) n)))
        let read (t : State) : State := (t.l2Fetch (k.val / 18) n).l2Read k n
        (n ∉ s.fetchLines k → exec (.dataInput k (.fillI line)) s = .next s) ∧
        (n ∈ s.fetchLines k → exec (.dataInput k (.fillI line)) s = .next (arrived ((read s).l1iInstall k n))) ∧
        (tabFind (s.core k).reqs n = none → exec (.dataInput k (.fillD line)) s = .next s) ∧
        (∀ r, tabFind (s.core k).reqs n = some r →
          (r.hbm = true → s.hbmTurn k r = false → exec (.dataInput k (.fillD line)) s = .next s) ∧
          (r.hbm = false ∨ s.hbmTurn k r = true →
            let t := if r.hbm then s.takeHbm k r else s
            exec (.dataInput k (.fillD line)) s = .next (arrived
              ((read (t.setCore k { t.core k with reqs := tabDel (t.core k).reqs n })).l1dInstall k n r.m))))))

/-- Coherence (R251, R252, R271). -/
def Sys2Proof.Claim.Coherence : Prop := Claim.CoherentRequests ∧ Claim.NonCachingWrites ∧ Claim.DataInputs

/-- The L1 configuration (R245, R247, R268): writes are refused for the checker copy, while a change runs, and where the locked code
would reach beyond HBM; a write that needs a change empties the ways it affects and takes effect when the change ends; bytes of local
memory beyond the converted ones are then lost. -/
def Sys2Proof.Claim.L1Configuration : Prop :=
  ∀ (s : State) (k : CoreNo) (v : BitVec 32), s.up →
    let new := bits v.toNat 8 2 * 2 ^ 8 + bits v.toNat 4 2 * 2 ^ 4 + bits v.toNat 0 1
    (s.agent k = false → exec (.l1cfgWrite k v) s = .next (s.memLast k stState) ∧
      ∀ hi, exec (.ilbaseWrite k hi v) s = .next (s.memLast k stState)) ∧
    (s.agent k = true → (s.core k).change ≠ none → exec (.l1cfgWrite k v) s = .next (s.memLast k stBusy) ∧
      ∀ hi, exec (.ilbaseWrite k hi v) s = .next (s.memLast k stBusy)) ∧
    (s.agent k = true → (s.core k).change = none → s.canonical = true →
      (bits v.toNat 4 2 = s.lmw k → bits v.toNat 8 2 = s.ilock k → (s.l1den k = true → bits v.toNat 0 1 = 1) →
        exec (.l1cfgWrite k v) s = .next ((s.memLast k stOk).wr (MEM_C_L1CFG k) new)) ∧
      (bits v.toNat 4 2 ≠ s.lmw k ∨ bits v.toNat 8 2 ≠ s.ilock k ∨ (s.l1den k = true ∧ bits v.toNat 0 1 = 0) →
        ∃ t, exec (.l1cfgWrite k v) s = .next t ∧
          (t.core k).change = some { cfg := new, reload := bits v.toNat 8 2 != s.ilock k } ∧
          t.regs = (s.memLast k stOk).regs ∧ t.hbm = s.hbm)) ∧
    (s.agent k = true → (s.core k).change = none → ∀ hi,
      let w := if hi then s.wr (MEM_C_ILBASE_HI k) (v.toNat % 8) else s.wr (MEM_C_ILBASE_LO k) (bits v.toNat 14 18 * 2 ^ 14)
      let t := w.memLast k stOk
      (0x800000000 < (w.ilLine k + 256 * w.ilock k) * 64 → exec (.ilbaseWrite k hi v) s = .next (s.memLast k stRange)) ∧
      ((w.ilLine k + 256 * w.ilock k) * 64 ≤ 0x800000000 →
        (t.ilock k = 0 → exec (.ilbaseWrite k hi v) s = .next t) ∧
        (t.ilock k ≠ 0 → exec (.ilbaseWrite k hi v) s = .next
          (t.setCore k { s.core k with change := some { cfg := t.rd (MEM_C_L1CFG k), reload := true } })))) ∧
    (∀ x, (s.core k).change = some x →
      let t := (s.emptyWays k (s.emptyFrom k x.cfg)).wr (MEM_C_L1CFG k) x.cfg
      let u := t.setCore k { t.core k with
        change := none, lmx := (t.core k).lmx.filter (fun e => e.1 < 8192 * bits x.cfg 4 2),
        lmy := (t.core k).lmy.filter (fun e => e.1 < 8192 * bits x.cfg 4 2),
        l1i := (t.core k).l1i.filter (fun e => bits x.cfg 8 2 ≤ e.2.way) }
      (x.reload = false → exec (.l1cfgChangeDone k) s = .next u) ∧
      (x.reload = true → exec (.l1cfgChangeDone k) s = .next
        ((List.range (256 * u.ilock k)).foldl (fun v i => v.l2Fetch (k.val / 18) (u.ilLine k + i)) u))) ∧
    ((s.core k).change = none → exec (.l1cfgChangeDone k) s = .next s)

/-- Held regions of an L2 (R249, R250, R267): the write is accepted and a command refused in the rule's order; a region taken up is
held, at most 8 of its lines to a set and 576 regions to a cluster; a region removed is the one registered, wherever it lies; the command
runs until HOLD_COMMAND_DONE. -/
def Sys2Proof.Claim.HeldRegions : Prop :=
  ∀ (s : State) (c : Clus), s.up →
    let a := s.fset (MEM_CL_ST c) 0 8 stOk
    let x := s.cluster c
    let busy := a.fbit (MEM_CL_HOLD_ST c) 8
    let r (load : Bool) := a.holdRegion c load
    let refused (i : Instr) (st : Nat) : Prop := exec i s = .next (a.fset (MEM_CL_HOLD_ST c) 0 8 st)
    let inHbm := ((r false).line + (r false).lines) * 64 ≤ 0x800000000
    let running (op : Nat) (q : HeldRegion) (held : List HeldRegion) : State :=
      let t := a.setHeld c held
      (t.setCluster c { t.cluster c with holdCmd := some (op, q) }).fset (MEM_CL_HOLD_ST c) 8 1 1
    (busy = true → refused (.holdAdd c) stBusy ∧ refused (.holdAddLoad c) stBusy ∧ refused (.holdRemove c) stBusy) ∧
    (busy = false → ¬inHbm → refused (.holdAdd c) stRange ∧ refused (.holdAddLoad c) stRange) ∧
    (busy = false → inHbm →
      (x.roomFor (r false) = false → refused (.holdAdd c) stNospace) ∧
      (x.roomFor (r true) = false → refused (.holdAddLoad c) stNospace) ∧
      (x.roomFor (r false) = true → exec (.holdAdd c) s = .next (running 2 (r false) (x.held ++ [r false]))) ∧
      (x.roomFor (r true) = true → exec (.holdAddLoad c) s = .next
        (((List.range (r true).lines).foldl (fun s i => s.l2Fetch c ((r true).line + i))
          (running 1 (r true) (x.held ++ [r true]))).measureCode (r true)))) ∧
    (busy = false →
      ((∀ q ∈ x.held, q.line ≠ (r false).line ∨ q.lines ≠ (r false).lines) → refused (.holdRemove c) stArg) ∧
      (∀ b q d, x.held = b ++ q :: d → q.line = (r false).line → q.lines = (r false).lines →
        (∀ p ∈ b, p.line ≠ q.line ∨ p.lines ≠ q.lines) →
        exec (.holdRemove c) s = .next (running 3 (r false) (b ++ d)))) ∧
    (∀ h, x.holdCmd = some h → exec (.holdCommandDone c) s = .next
      (((s.setCluster c { x with holdCmd := none }).fset (MEM_CL_HOLD_ST c) 8 1 0).fset (MEM_CL_HOLD_ST c) 0 8 stOk)) ∧
    (x.holdCmd = none → exec (.holdCommandDone c) s = .next s) ∧
    (∀ q : HeldRegion, x.roomFor q = true → maxHeld (x.held ++ [q]) ≤ 8 ∧ (x.held ++ [q]).length ≤ 576)

/-- Local memory, L1 configuration and held regions: L1Configuration, HeldRegions. -/
def Sys2Proof.Claim.CacheConfiguration : Prop := Claim.L1Configuration ∧ Claim.HeldRegions

/-- The commit of a retirement group, the mirror area and the write-back of contexts (R257, R274, R279, R281): a closed group's stores
move to the store buffer as far as there is room, and the group is gone once all have; the home applies a closed log interval to the
mirror image and its bytes in the L2, and writes that image's lines back at an SLGET checkpoint. -/
def Sys2Proof.Claim.GroupCommitAndMirror : Prop :=
  (∀ (s : State) (k : CoreNo), s.up →
    let c := s.core k
    (s.agent k = false ∨ c.attempt ≠ 0 ∨ c.groups = [] → exec (.groupCommit k) s = .next s) ∧
    (∀ g rest, s.agent k = true → c.attempt = 0 → c.groups = g :: rest →
      (g.n < 16 → exec (.groupCommit k) s = .next s) ∧
      (16 ≤ g.n →
        let m := moveStores c.sb (c.preq.take g.stores)
        let t := (s.setCore k { c with
          sb := m.1
          preq := m.2.1 ++ c.preq.drop g.stores
          groups := if m.2.1 = [] then rest else { g with stores := m.2.1.length } :: rest }).sbPeak k
        let u := t.logStores k m.2.2
        exec (.groupCommit k) s = .next (if m.2.1 = [] then u.groupCkpt k g else u)))) ∧
  (∀ (s : State) (lp : LpNo), s.up →
    let x := s.lp lp
    (x.closed = none → exec (.logIntervalApply lp) s = .next s) ∧
    (∀ i, x.closed = some i →
      let m := (x.mirror.getD {}).apply i.log
      let written (t : State) : State :=
        (t.fset (CLU_LP_CKPT lp) 16 16 (t.fget (CLU_LP_CKPT lp) 16 16 + 1)).ckptLog lp
      (i.lm = none → exec (.logIntervalApply lp) s = .next (written (i.log.foldl
        (fun t e => t.mirrorWrite lp (imageOfs e.1) [e.2])
        (s.setLp lp { x with mirror := some { m with arch := i.arch, sl := i.sl, pn := i.pn }, closed := none })))) ∧
      (∀ a b, i.lm = some (a, b) → exec (.logIntervalApply lp) s = .next (written ((s.setLp lp { x with
        mirror := some { m with lmx := a, lmy := b, arch := i.arch, sl := i.sl, pn := i.pn }, closed := none }).mirrorImage lp a b)))) ∧
    (x.mirror = none ∨ s.mirrored lp = false → exec (.mirrorFlush lp) s = .next s) ∧
    (∀ m, x.mirror = some m → m.sl = none → exec (.mirrorFlush lp) s = .next s) ∧
    (∀ m, x.mirror = some m → m.sl ≠ none → s.mirrored lp = true → ∃ t, exec (.mirrorFlush lp) s = .next t ∧
      (t.lp lp) = { x with flushed := some m } ∧ t.regs = s.regs ∧ t.cores = s.cores ∧
      ∀ n, ∀ l, s.l2Line (s.pclOf (lp.val / 8)) n = some l → s.mirrorBase lp / 64 ≤ n → n < s.mirrorBase lp / 64 + 768 →
        t.l2Line (s.pclOf (lp.val / 8)) n = some { l with dirty := false })) ∧
  (∀ (s : State) (c : Clus), s.up →
    (s.lclOf c = none → exec (.contextWriteback c) s = .next s) ∧
    (∀ lc, s.lclOf c = some lc → exec (.contextWriteback c) s = .next
      ((lpsOf lc).foldl (fun u l => u.setLp l { u.lp l with hbmCtx := (u.lp l).ctx }) s)))

/-- Windows (R178, R179, R180, R257, R284, R407): a takeover that waits for its switch ends with it; a switch to the partition the
pair runs changes nothing but the window status; a pair that is not in RUN is woken; else every group commits and, once the pre-commit
queue is empty, the context is saved, a pending hand-over done and the next context loaded. A bank requested comes into force at a
boundary of the major frame, unless it would raise a partition above its quota. -/
def Sys2Proof.Claim.Windows : Prop :=
  (∀ (s : State) (lp : LpNo), s.up →
    (s.ppOf lp = none → exec (.windowSwitch lp) s = .next s) ∧
    (∀ pp, s.ppOf lp = some pp →
      let t := s.windowStatus lp
      let u := if t.running pp then t.setDom pp { t.dom pp with latch := (t.dom pp).latch.filter (fun e => e != 3) } else t
      let waits := u.lpState lp = 1 ∧ (u.lp lp).tk = some pp ∧ u.running pp = true
      let dest := u.windowPn lp
      (waits → exec (.windowSwitch lp) s = .next
        (((u.setLpState lp 0).setLp lp { u.lp lp with tk := none }).switch lp pp dest)) ∧
      (¬waits →
        (u.lpState lp ≠ 0 ∨ dest = (u.lp lp).cur → exec (.windowSwitch lp) s = .next u) ∧
        (u.lpState lp = 0 → dest ≠ (u.lp lp).cur →
          (u.running pp = false → exec (.windowSwitch lp) s = .next (u.wake pp 3)) ∧
          (u.running pp = true → (u.core (2 * pp)).attempt ≠ 0 → exec (.windowSwitch lp) s = .next u) ∧
          (u.running pp = true → (u.core (2 * pp)).attempt = 0 →
            ((u.commitPair pp).uncommitted pp = true → exec (.windowSwitch lp) s = .next (u.commitPair pp)) ∧
            ((u.commitPair pp).uncommitted pp = false →
              exec (.windowSwitch lp) s = .next ((u.commitPair pp).switch lp pp dest))))))) ∧
  (∀ (s : State) (lp : LpNo), s.up →
    let b := s.cbank lp
    let a := s.fget (CLU_LP_WCTL lp) 0 1
    let mf := majorFrame (s.windows lp b)
    let atBoundary := mf = 0 ∨ ((s.lp lp).wfrom ≤ s.time.tick ∧ s.frameOfs lp b mf = 0)
    (a = b ∨ ¬atBoundary → exec (.majorFrameBoundary lp) s = .next s) ∧
    (a ≠ b → atBoundary → s.quotaOk lp a = true → exec (.majorFrameBoundary lp) s = .next
      ((s.fset (CLU_LP_WCTL lp) 8 1 a).setLp lp { s.lp lp with
        wfrom := (s.fset (CLU_LP_WCTL lp) 8 1 a).nextFrame lp a s.time.tick })) ∧
    (a ≠ b → atBoundary → s.quotaOk lp a = false →
      exec (.majorFrameBoundary lp) s = .next (s.errLog stConflict srcClu none lp)))

/-- Instruction retry (R243, R255, R270, R272, R275 to R278, R291, R296): an error event in a comparing pair is recorded, counted in
PAI_RTEV and begins attempt 1; an attempt is counted in PAI_RTATT; with a mismatch the next begins, after the third the pair has failed;
without one its groups commit; a halted pair does not go on with it. An error in one copy is such an event, in both fails the pair; in a
split pair its core handles it alone. -/
def Obligations.InstructionRetry : Prop :=
  ∀ (s : State) (pp : PairNo), s.up →
    let c := s.core (2 * pp.val)
    let starts (u : State) (kind reg : Nat) : State :=
      let t := (u.recordMis pp 0 kind reg).count (PAI_RTEV pp) 1
      t.setCore (2 * pp.val) { t.core (2 * pp.val) with attempt := 1, injOne := false }
    (s.compares pp = true → c.attempt = 0 →
      (∀ (kind : MisKind) (reg : BitVec 12), exec (.mismatch pp kind reg) s = .next (starts s (misKind kind) reg.toNat)) ∧
      exec (.guylineFault pp) s = .next (starts s 5 0)) ∧
    (s.compares pp = false ∨ c.attempt ≠ 0 →
      (∀ (kind : MisKind) (reg : BitVec 12), exec (.mismatch pp kind reg) s = .next s) ∧ exec (.guylineFault pp) s = .next s) ∧
    (∀ (again : Bool) (kind : MisKind) (reg : BitVec 12),
      let u := s.count (PAI_RTATT pp) 1
      (c.attempt = 0 ∨ s.running pp = false ∨ c.wait = .halted → exec (.retryAttempt pp again kind reg) s = .next s) ∧
      (c.attempt ≠ 0 → s.running pp = true → c.wait ≠ .halted →
        (again = true ∨ u.fbit (PAI_INJ pp) 1 = true →
          let v := u.recordMis pp c.attempt (misKind kind) reg.toNat
          (c.attempt < 3 → exec (.retryAttempt pp again kind reg) s =
            .next (v.setCore (2 * pp.val) { c with attempt := c.attempt + 1 })) ∧
          (3 ≤ c.attempt → exec (.retryAttempt pp again kind reg) s = .next (v.failPair pp))) ∧
        (again = false → u.fbit (PAI_INJ pp) 1 = false → exec (.retryAttempt pp again kind reg) s =
          .next ((u.setCore (2 * pp.val) { c with attempt := 0 }).commitAll (2 * pp.val))))) ∧
    (let p := s.errPlace.1
     let d := s.errPlace.2.2
     let e := if p = .l1d ∨ p = .localMem then d.countFld (MEM_C_ECC (2 * pp.val)) 16 16 else d
     (s.isSplit pp = true → exec (.oneCopyError pp false) s = .next (d.splitError (2 * pp.val + s.errPlace.2.1) p)) ∧
     (s.isSplit pp = false → exec (.oneCopyError pp false) s = .next (e.mismatch pp 6 0)) ∧
     (e.role pp ≠ 0 ∨ e.running pp = false → exec (.oneCopyError pp true) s = .next e) ∧
     (e.role pp = 0 → e.running pp = true →
       exec (.oneCopyError pp true) s = .next (((e.recordMis pp 0 7 0).count (PAI_RTEV pp) 1).failPair pp)))

/-- Takeover and failover (R254, R282 to R289, R298, R444): the last steps of a takeover on a reserve pair in RUN, which leaves the
takeover at once where a mirror holds its state, else at its next switch; a failed cluster's logical cluster moves to cluster 8 where
that is usable and is DOWN otherwise; the failover command's refusals. -/
def Obligations.TakeoverAndFailover : Prop :=
  (∀ (s : State) (lp : LpNo), s.up →
    ((s.lp lp).tk = none → exec (.takeoverResume lp) s = .next s) ∧
    (∀ q, (s.lp lp).tk = some q → s.running q = false ∨ s.fget (CLU_LP_MAP lp) 0 7 = q → exec (.takeoverResume lp) s = .next s) ∧
    (∀ q, (s.lp lp).tk = some q → q < 81 → s.running q = true → s.fget (CLU_LP_MAP lp) 0 7 ≠ q → s.canonical = true →
      let held := ((s.lp lp).mirror.isSome || (s.lp lp).closed.isSome) && s.mirrored lp && !s.lpSplit lp
      ∃ t, exec (.takeoverResume lp) s = .next t ∧ t.fget (CLU_LP_MAP lp) 0 7 = q ∧ t.role q = 0 ∧
        t.lpOf q = some lp.val ∧ t.isSplit q = s.lpSplit lp ∧ t.fbit MGT_EVT 2 = true ∧
        (held = true → t.lpState lp = 0 ∧ (t.lp lp).tk = none) ∧
        (held = false → t.lpState lp = s.lpState lp ∧ (t.lp lp).tk = some q ∧ (t.lp lp).cur = none))) ∧
  (∀ (s : State) (c : Clus), s.up →
    let t := s.count (MEM_CL_COHERR c) 1
    (t.lclOf c = none → exec (.coherenceProtocolError c) s = .next t) ∧
    (∀ lc, t.lclOf c = some lc → exec (.coherenceProtocolError c) s = .next (t.failCluster lc))) ∧
  (∀ (s : State) (lc : LClus), s.up →
    (s.fget (CLU_ST lc) 8 2 ≠ 0 → exec (.deadAgent lc) s = .next s) ∧
    (s.fget (CLU_ST lc) 8 2 = 0 → s.rclUsable = true → exec (.deadAgent lc) s = .next ((s.resetFails lc).failover lc)) ∧
    (s.fget (CLU_ST lc) 8 2 = 0 → s.rclUsable = false → exec (.deadAgent lc) s = .next ((s.resetFails lc).clusterDown lc)) ∧
    (s.mgmt.mbxCl ≠ some lc.val → s.resetFails lc = s) ∧
    (s.mgmt.mbxCl = some lc.val → s.resetFails lc = s.withMgmt { s.mgmt with mbxSt := stDown }) ∧
    (s.fbit CLU_SP_CMD_ST 8 = true → exec (.failover lc) s = .next (s.fset CLU_SP_ST 0 8 stBusy)) ∧
    (s.fbit CLU_SP_CMD_ST 8 = false → s.rclUsable = false ∨ s.fget (CLU_ST lc) 8 2 ≠ 0 →
      exec (.failover lc) s = .next ((s.wr CLU_SP_CMD_ST stState).fset CLU_SP_ST 0 8 stState)) ∧
    (s.fbit CLU_SP_CMD_ST 8 = false → s.rclUsable = true → s.fget (CLU_ST lc) 8 2 = 0 →
      exec (.failover lc) s = .next (((s.failover lc).wr CLU_SP_CMD_ST 0x100).fset CLU_SP_ST 0 8 stOk)) ∧
    (s.fget (CLU_ST lc) 8 2 ≠ 1 ∨ s.dstate 89 ≠ 0 ∨ s.dphase 89 ≠ 0 → exec (.failoverResume lc) s = .next s) ∧
    (s.fget (CLU_ST lc) 8 2 = 1 → s.dstate 89 = 0 → s.dphase 89 = 0 → (s.spares.take 8).all s.running = true →
      s.canonical = true → ∃ t, exec (.failoverResume lc) s = .next t ∧ t.fget (CLU_ST lc) 8 2 = 0 ∧ t.pclOf lc = 8 ∧
        t.fget CLU_PCL_ST 16 2 = 0 ∧ t.fbit MGT_EVT 2 = true ∧ t.fbit CLU_SP_CMD_ST 8 = false))
/-- SPLIT, JOIN and TAKEOVER (R282, R290, R298): the refusals in order, each in CLU_ST.LAST_ST; else a split or join is pending until
a switch, and a takeover fails the pair at once. -/
def Sys2Proof.Claim.ClusterCommands : Prop :=
  ∀ (s : State) (lp : LpNo), s.up →
    let lc := lp.val / 8
    let last (t : State) (st : Nat) : State := t.fset (CLU_ST lc) 0 8 st
    let all (t : State) : Prop := exec (.split lp) s = .next t ∧ exec (.join lp) s = .next t ∧ exec (.takeover lp) s = .next t
    let refuse (st : Nat) : State := last (s.wr (CLU_CMD_ST lc) st) st
    (s.fbit (CLU_CMD_ST lc) 8 = true → all (last (s.fset (CLU_CMD_ST lc) 0 8 stBusy) stBusy)) ∧
    (s.fbit (CLU_CMD_ST lc) 8 = false →
      (s.ppOf lp = none → all (refuse stState)) ∧
      (∀ pp, s.ppOf lp = some pp →
        (s.lpState lp ≠ 0 → all (refuse stState)) ∧
        (s.lpState lp = 0 → s.underTest pp = true → all (refuse stTesting)) ∧
        (s.lpState lp = 0 → s.underTest pp = false →
          exec (.takeover lp) s = .next (last ((s.wr (CLU_CMD_ST lc) stOk).failPair pp) stOk) ∧
          (s.lpSplit lp = true ∨ s.pend lp % 4 ≠ 0 → exec (.split lp) s = .next (refuse stState)) ∧
          (s.lpSplit lp = false ∨ s.pend lp % 4 ≠ 0 → exec (.join lp) s = .next (refuse stState)) ∧
          (s.pend lp % 4 = 0 → s.loadTooLong pp = true →
            (s.lpSplit lp = false → exec (.split lp) s = .next (refuse stRange)) ∧
            (s.lpSplit lp = true → exec (.join lp) s = .next (refuse stRange))) ∧
          (s.pend lp % 4 = 0 → s.loadTooLong pp = false →
            let b := s.wr (CLU_CMD_ST lc) 0x100
            (s.lpSplit lp = false → exec (.split lp) s = .next (last (b.setPend lp (s.pend lp + 1)) stOk)) ∧
            (s.lpSplit lp = true → exec (.join lp) s = .next (last (b.setPend lp (s.pend lp + 2)) stOk))))))

/-- Rotation (R293, R294, R298, R435 to R437): a step needs CLU_SPCFG.ROTEN, an in-service cluster and a life cycle in use; a test of
a pair of cluster 8 ends by its signature; a step with no target left after 1 s is blocked and gives the reserve back. -/
def Sys2Proof.Claim.Rotation : Prop :=
  (∀ (s : State) (lc : LClus), s.up →
    (s.fbit CLU_SPCFG 31 = false → exec (.rotationStep lc) s = .next s) ∧
    (s.fget (CLU_ST lc) 8 2 ≠ 0 ∨ s.lcs = 0 ∨ s.lcs = 5 → exec (.rotationStep lc) s = .next s) ∧
    (∀ q, s.fbit CLU_SPCFG 31 = true → s.fget (CLU_ST lc) 8 2 = 0 → s.lcs = 3 → s.reserveOf lc = some q →
      s.role q = 1 → s.takeoverIn lc = false → s.underTest q = false → s.canonical = true → s.fget CLU_SP_ST 16 3 ≠ 0 →
      exec (.rotationStep lc) s = .next (((s.setPair q 3 false none).fset (CLU_RSV lc) 0 3 1).reeval q)) ∧
    (∀ q, s.reserveOf lc = some q → s.role q = 4 → s.rotationStuck lc q = true →
      let t := (lpsOf lc.val).foldl (fun u l => if (u.lp l).exch.isSome then u.dropExchange l else u) s
      exec (.rotationBlocked lc) s =
        .next (((((t.setPair q 1 false none).fset (CLU_RSV lc) 0 3 0).count CLU_ROT_BLK 1).reeval q).mgrEvent 2)) ∧
    (∀ q, s.reserveOf lc = some q → s.role q ≠ 4 ∨ s.rotationStuck lc q = false → exec (.rotationBlocked lc) s = .next s) ∧
    (∀ q l, (lpsOf lc.val).find? (fun m => (s.lp m).exch == some q) = some l →
      (s.rotTarget lc (some l) ≠ none → s.rotationStuck lc q = false) ∧
      (s.rotTarget lc (some l) = none → s.period ≠ 0 →
        (s.rotationStuck lc q = true ↔ 1000000000000000 ≤ (s.time.tick - (s.lp l).exchFrom) * s.period)))) ∧
  (∀ s : State, s.up →
    (s.fbit CLU_SP_CMD_ST 8 = true → exec .rotationStepNow s = .next (s.fset CLU_SP_ST 0 8 stBusy)) ∧
    (s.fbit CLU_SP_CMD_ST 8 = false → exec .rotationStepNow s = .next
      ((((List.range 8).foldl (fun u lc => u.rotationStep lc) s).wr CLU_SP_CMD_ST stOk).fset CLU_SP_ST 0 8 stOk))) ∧
  (∀ (s : State) (pp : PairNo) (misr : BitVec 64) (steps : BitVec 32), s.up →
    let m := misr.toNat
    let n := steps.toNat
    (s.role pp ≠ 3 ∨ s.running pp = false → exec (.rotationTestDone pp misr steps) s = .next s) ∧
    (s.role pp = 3 → s.running pp = true →
      (n < expectedSteps pp → testRes pp m n = .incomplete) ∧
      (n = expectedSteps pp → m = (Config.expectedMisr pp.val).toNat → testRes pp m n = .pass) ∧
      (n = expectedSteps pp → m ≠ (Config.expectedMisr pp.val).toNat → testRes pp m n = .fail) ∧
      (expectedSteps pp < n → testRes pp m n = .fail) ∧
      (let t := s.recordTest pp m n (testRes pp m n)
       t.reserveFor pp = none →
       (testRes pp m n = .pass → exec (.rotationTestDone pp misr steps) s =
         .next ((((t.wr (PAI_TEST pp) 1).setPair pp 2 false none).fset CLU_SP_ST 16 3 0).reeval pp)) ∧
       (testRes pp m n = .incomplete → exec (.rotationTestDone pp misr steps) s =
         .next ((((t.fset (PAI_TEST pp) 0 4 3).setPair pp 2 false none).fset CLU_SP_ST 16 3 0).reeval pp)))))

/-- Debug, error injection and trace control of a pair (R296, R297, R299, R300): refused for a retired pair or one under test; debug
only in MANUFACTURE and RMA, else recorded in the error log; HARD likewise; there is no trace in PROVISIONED and SCRAPPED (R359), and in
DEPLOYED it needs a token of the partition in force (R386). A halt and a resume close the open group (R272). -/
def Obligations.DebugAndTrace : Prop :=
  ∀ (s : State) (pp : PairNo), s.up →
    let ok := s.paiLast pp stOk
    (s.paiRefused pp ≠ 0 → ∀ c ∈ [Instr.halt pp, .resume pp, .step pp, .injOne pp, .injHard pp],
      exec c s = .next (s.paiLast pp (s.paiRefused pp))) ∧
    (s.role pp = 5 → s.paiRefused pp = stState) ∧ (s.role pp ≠ 5 → s.underTest pp = true → s.paiRefused pp = stTesting) ∧
    (s.paiRefused pp = 0 →
      (ok.debugOk = false → ∀ c ∈ [Instr.halt pp, .resume pp, .step pp],
        exec c s = .next (ok.errLog stPerm srcPai none (PAI_DBG_CTL pp))) ∧
      (ok.debugOk = true →
        exec (.halt pp) s = .next ((ok.wr (PAI_DBG_CTL pp) 1).haltPair pp) ∧
        exec (.resume pp) s = .next ((ok.wr (PAI_DBG_CTL pp) 2).resumePair pp) ∧
        exec (.step pp) s = .next ((ok.wr (PAI_DBG_CTL pp) 4).stepPair pp)) ∧
      (s.canonical = true → exec (.injOne pp) s =
        .next (ok.setCore (2 * pp.val) { s.core (2 * pp.val) with injOne := true })) ∧
      (ok.fbit (PAI_INJ pp) 1 = true → exec (.injHard pp) s = .next ok) ∧
      (ok.fbit (PAI_INJ pp) 1 = false →
        (ok.debugOk = true → exec (.injHard pp) s = .next (ok.fset (PAI_INJ pp) 1 1 1)) ∧
        (ok.debugOk = false → exec (.injHard pp) s = .next (ok.errLog stPerm srcPai none (PAI_INJ pp))))) ∧
    (∀ (l : Nat) (t : State), t.lpOf pp = some l → t.role pp = 0 → t.lpState l = 0 → t.running pp = true → t.isSplit pp = false →
      t.canonical = true →
      t.haltPair pp = ((((t.setCore (2 * pp.val) (CoreSt.shut { t.core (2 * pp.val) with wait := .halted })).setLpState l 4).fset
        (PAI_DBG_ST pp) 1 1 1).fset (PAI_DBG_ST pp) 2 1 1)) ∧
    (∀ (l : Nat) (t : State), t.lpOf pp = some l → t.fbit (PAI_DBG_ST pp) 1 = true → t.isSplit pp = false →
      t.resumePair pp = (((((t.setCore (2 * pp.val) (CoreSt.shut { t.core (2 * pp.val) with wait := .run })).setLpState l 0).wr
        (PAI_DBG_CTL pp) 0).fset (PAI_DBG_ST pp) 1 1 0).fset (PAI_DBG_ST pp) 8 7 0)) ∧
    (∀ t : State, t.isSplit pp = false →
      (t.fbit (PAI_DBG_ST pp) 1 = true →
        t.stepPair pp = t.setCore (2 * pp.val) (CoreSt.shut { t.core (2 * pp.val) with wait := .oneStep })) ∧
      (t.fbit (PAI_DBG_ST pp) 1 = false → t.stepPair pp = t)) ∧
    (∀ v : BitVec 32,
      let both (t : State) (st : Nat) : State := (t.paiLast pp st).fset (PAI_TRC_ST pp) 0 8 st
      let en := bit v.toNat 31
      let token := bit v.toNat 30 && s.tokenFor (bits v.toNat 0 11)
      (s.paiRefused pp ≠ 0 → exec (.traceCtlWrite pp v) s = .next (both s (s.paiRefused pp))) ∧
      (s.paiRefused pp = 0 → en = true → s.lcs = 2 ∨ s.lcs = 5 → exec (.traceCtlWrite pp v) s = .next (both s stState)) ∧
      (s.paiRefused pp = 0 → en = true → s.lcs = 3 → token = false →
        exec (.traceCtlWrite pp v) s = .next (both s stAuth)) ∧
      (s.paiRefused pp = 0 → en = false ∨ (s.lcs ≠ 2 ∧ s.lcs ≠ 5 ∧ (s.lcs ≠ 3 ∨ token = true)) → exec (.traceCtlWrite pp v) s =
        .next (both (s.wr (PAI_TRC_CTL pp) (bits v.toNat 30 2 * 2 ^ 30 + bits v.toNat 0 11)) stOk)))

/-- CLU_CTL (R280): MIREN as it stands changes nothing; 1 registers the mirror area or is refused with ST_NOSPACE; 0 removes it with
the logical pairs' mirrors. -/
def Sys2Proof.Claim.MirrorControl : Prop :=
  ∀ (s : State) (lc : LClus) (v : BitVec 32), s.up →
    let p := s.pclOf lc
    let last (t : State) (st : Nat) : State := t.fset (CLU_ST lc) 0 8 st
    let one := v.toNat % 2 = 1
    (one → s.fbit (CLU_CTL lc) 0 = true → exec (.cluCtlWrite lc v) s = .next (last s stOk)) ∧
    (¬one → s.fbit (CLU_CTL lc) 0 = false → exec (.cluCtlWrite lc v) s = .next (last s stOk)) ∧
    (one → s.fbit (CLU_CTL lc) 0 = false →
      let r : HeldRegion := ⟨s.rd64 (CLU_MIR_LO lc) / 64, 16384, false, none⟩
      ((s.cluster p).roomFor r = true →
        exec (.cluCtlWrite lc v) s = .next (last ((s.setHeld p ((s.cluster p).held ++ [r])).wr (CLU_CTL lc) 1) stOk)) ∧
      ((s.cluster p).roomFor r = false → exec (.cluCtlWrite lc v) s = .next (last s stNospace))) ∧
    (¬one → s.fbit (CLU_CTL lc) 0 = true → s.canonical = true → ∃ t, exec (.cluCtlWrite lc v) s = .next t ∧
      t.fbit (CLU_CTL lc) 0 = false ∧ t.hbm = s.hbm ∧ t.cores = s.cores)

/-! ## Readout -/

/-- A command of the channel subsystem may begin: none of its issuer runs, and a partition that issues it is neither FREE nor QUIESCING
(R304, R390, R394). -/
def Sys2Proof.Claim.ChsOpen (s : State) (who : Issuer) : Prop :=
  s.fbit (chsStReg who) 8 = false ∧ ∀ pn : Pn, who = .part pn → s.pstate pn ≠ 0 ∧ s.pstate pn ≠ 3

/-- Command `c` is accepted and leaves `t`: it runs until CHS_COMMAND_DONE. -/
def Sys2Proof.Claim.ChsTakes (s : State) (c : Instr) (who : Issuer) (t : State) : Prop :=
  exec c s = .next (t.wr (chsStReg who) 0x100)

/-- Command `c` is refused with a status: it ends at once, and nothing else changes. -/
def Sys2Proof.Claim.ChsRefuses (s : State) (c : Instr) (who : Issuer) (st : Nat) : Prop :=
  exec c s = .next ((s.wr (chsStReg who) st).chsEnded who)

/-- The channel-subsystem commands of every issuer: those of a FREE partition, BUSY, QUIESCING, and the end of a command (R304, R390,
R394, R408). -/
def Sys2Proof.Claim.ChsCommands : Prop :=
  ∀ (s : State) (who : Issuer) (pn : Pn) (n : Scn) (hi : BitVec 24) (lo : BitVec 32), s.up →
    let own : List Instr := [.pgLoad who hi lo, .scLoad who ⟨pn, n⟩, .scEnable who ⟨pn, n⟩, .scDisable who ⟨pn, n⟩, .scReset who ⟨pn, n⟩]
    (∀ p : Pn, who = .part p → s.pstate p = 0 → ∀ c ∈ own, exec c s = .next (s.errLog stState srcHost (some p) 0x60)) ∧
    ((∀ p : Pn, who = .part p → s.pstate p ≠ 0) → s.fbit (chsStReg who) 8 = true →
      ∀ c ∈ own, exec c s = .next (s.fset (chsStReg who) 0 8 stBusy)) ∧
    (s.fbit CHS_CMD_ST 8 = true → ∀ c ∈ [Instr.scAssign pn n, .scRelease n, .recAck],
      exec c s = .next (s.fset CHS_CMD_ST 0 8 stBusy)) ∧
    (∀ p : Pn, who = .part p → s.fbit (chsStReg who) 8 = false → s.pstate p = 3 → ∀ c ∈ own, Claim.ChsRefuses s c who stState) ∧
    (s.fbit (chsStReg who) 8 = true → exec (.chsCommandDone who) s = .next ((s.wr (chsStReg who) stOk).chsEnded who)) ∧
    (s.fbit (chsStReg who) 8 = false → exec (.chsCommandDone who) s = .next s)

/-- The subchannel commands and their refusals in order (R304, R315, R318, R325, R375): the manager's act for the partition they name, a
partition's for itself (R303). -/
def Sys2Proof.Claim.SubchannelCommands : Prop :=
  ∀ (s : State) (who : Issuer) (pn : Pn) (n : Scn), s.up →
    let c := s.subch n
    let a := who.acts pn
    (Claim.ChsOpen s .mgr →
      (c.state ≠ 0 → Claim.ChsRefuses s (.scAssign pn n) .mgr stConflict) ∧
      (c.state = 0 → Claim.ChsTakes s (.scAssign pn n) .mgr
        (s.setSubch n { owner := some pn, state := 1, rseq := c.rseq, session := c.session })) ∧
      (c.state ≠ 1 ∨ s.scBusy n = true → Claim.ChsRefuses s (.scRelease n) .mgr stState) ∧
      (c.state = 1 → s.scBusy n = false → Claim.ChsTakes s (.scRelease n) .mgr
        (s.setSubch n { rseq := c.rseq, session := c.session })) ∧
      (s.fbit CHS_ST 16 = false → Claim.ChsRefuses s .recAck .mgr stState) ∧
      (s.fbit CHS_ST 16 = true → Claim.ChsTakes s .recAck .mgr
        ((((s.withNvs { s.nvs with sealed := none }).fset CHS_ST 16 1 0).wr CHS_REC 0).wearControl))) ∧
    (Claim.ChsOpen s who →
      (c.owner ≠ some a.val → ∀ i ∈ [Instr.scLoad who ⟨pn, n⟩, .scEnable who ⟨pn, n⟩, .scDisable who ⟨pn, n⟩, .scReset who ⟨pn, n⟩],
        Claim.ChsRefuses s i who stPerm) ∧
      (c.owner = some a.val →
        (c.state = 1 → Claim.ChsRefuses s (.scDisable who ⟨pn, n⟩) who stState) ∧
        (c.state ≠ 1 → Claim.ChsTakes s (.scDisable who ⟨pn, n⟩) who (s.setSubch n { c with state := 1, probeInst := none })) ∧
        Claim.ChsTakes s (.scReset who ⟨pn, n⟩) who (s.scClear n 0xC) ∧
        (let key := s.keyLoaded a (s.scField n 0 48 4)
         (c.state ≠ 1 ∨ c.loaded = false ∨ key = false → Claim.ChsRefuses s (.scEnable who ⟨pn, n⟩) who stState) ∧
         (c.state = 1 → c.loaded = true → key = true →
           (s.scPcie n = true → Claim.ChsTakes s (.scEnable who ⟨pn, n⟩) who (s.setSubch n { c with state := 2 })) ∧
           (s.scPcie n = false → s.portReady n = false → Claim.ChsRefuses s (.scEnable who ⟨pn, n⟩) who stState) ∧
           (s.scPcie n = false → s.portReady n = true → s.rngFail = true → Claim.ChsRefuses s (.scEnable who ⟨pn, n⟩) who stDown) ∧
           (s.scPcie n = false → s.portReady n = true → s.rngFail = false → Claim.ChsTakes s (.scEnable who ⟨pn, n⟩) who
             (((s.setSubch n { c with state := 2 }).newInst n).wrrGo n))))))

/-- SC_LOAD and PG_LOAD of the manager and of a partition: the checks in order, and what they write (R303, R304, R306, R307, R308, R383). -/
def Sys2Proof.Claim.Loading : Prop :=
  ∀ (s : State) (who : Issuer) (pn : Pn) (n : Scn) (hi : BitVec 24) (lo : BitVec 32), s.up → Claim.ChsOpen s who →
    let ws := s.stageWords who 16
    let w (i : Nat) := ws.getD i 0
    let ps := bits (w 0) 36 12
    let crcOk := crc32c ((ws.flatMap (leBytes 8)).take 120) = bits (w 15) 32 32
    let load := Instr.scLoad who ⟨pn, n⟩
    (s.ownsSc (who.acts pn) n = true →
      (¬crcOk ∨ descOk w = false → Claim.ChsRefuses s load who stArg) ∧
      (crcOk → descOk w = true →
        (s.ownsSlot (who.acts pn) ps = false ∨ ps ∉ s.readout.progs → Claim.ChsRefuses s load who stPerm) ∧
        (s.ownsSlot (who.acts pn) ps = true → ps ∈ s.readout.progs →
          let fits := bits (w 0) 60 4 ≠ 1 ∨
            largestPayload ((parseProg (s.progWords ps)).getD []) ≤ (2 ^ (bits (w 3) 0 4 + 6) - 1) * 16777216
          (¬fits → Claim.ChsRefuses s load who stRange) ∧
          (fits → (s.subch n).state ≠ 1 → Claim.ChsRefuses s load who stState) ∧
          (fits → (s.subch n).state = 1 →
            let t := s.agentWords (s.work + 128 * n) ws
            Claim.ChsTakes s load who (t.setSubch n { t.subch n with loaded := true }))))) ∧
    (let pg := Instr.pgLoad who hi lo
     let a := who.acts (Fin.ofNat 2048 (bits (hi ++ lo).toNat 45 11))
     let slot := bits (hi ++ lo).toNat 18 12
     let nw := bits (hi ++ lo).toNat 0 7
     let pw := s.stageWords who nw
     let st := if nw = 0 ∨ 64 < nw then stArg else progCheck pw
     let inUse := s.readout.subch.any (fun e => e.2.state == 2 && s.scField e.1 0 36 12 == slot)
     (s.ownsSlot a slot = false → Claim.ChsRefuses s pg who stPerm) ∧
     (s.ownsSlot a slot = true → st ≠ 0 → Claim.ChsRefuses s pg who st) ∧
     (s.ownsSlot a slot = true → st = 0 → inUse = true → Claim.ChsRefuses s pg who stState) ∧
     (s.ownsSlot a slot = true → st = 0 → inUse = false →
       let t := s.agentWords (s.work + 0x400000 + 512 * slot) pw
       let u := t.withReadout { t.readout with progs := slot :: t.readout.progs.filter (fun x => x != slot) }
       let m := sha384 (leBytes 8 (0x03 * 2 ^ 56 + (hi ++ lo).toNat) ++ pw.flatMap (leBytes 8))
       Claim.ChsTakes s pg who (u.setPart a { u.part a with
         cmr := extend (u.part a).cmr m, nprog := (u.part a).nprog + 1 })))

/-- The commands of the channel subsystem: ChsCommands, SubchannelCommands, Loading. -/
def Obligations.ChannelSubsystemCommands : Prop := Claim.ChsCommands ∧ Claim.SubchannelCommands ∧ Claim.Loading

/-- Run-length coding (R345 to R348): every receiver's decoding gives back the coded words; the coding adds at most one word to each
16,384; and a stored payload, of whole 8-byte units as every section is, keeps to the bound of R348. -/
def Obligations.RunLengthCoding : Prop :=
  (∀ ws : List Nat,
    decodeRle (ws.length + 1) (encodeRle (ws.length + 1) [] ws) = some ws ∧
    (encodeRle (ws.length + 1) [] ws).length ≤ ws.length + (ws.length + 16383) / 16384) ∧
  (∀ bs : List Byte, bs.length % 8 = 0 →
    (compress bs).length ≤ bs.length + 8 * (((bs.length + 32767) / 32768 + 3) / 4) ∧ (compress bs).length % 8 = 0 ∧
    (bs.length ≤ 16777216 → 64 + (compress bs).length + 32 ≤ 16778336 ∧ 64 + bs.length + 32 ≤ 16777312))

/-- The creation of transactions (R309 to R311, R130): the oldest slice of the creation queue yields its next partition's transaction, or
a loss record with the cause the table gives; after the last one its creations have taken place. -/
def Sys2Proof.Claim.Creation : Prop :=
  ∀ s : State, s.up →
    (s.creq = [] → exec .transactionCreate s = .next s) ∧
    (∀ q rest pn l, s.creq = q :: rest → q.left = pn :: l → l ≠ [] → exec .transactionCreate s = .next
      (((s.createOne pn q).withCreq ({ q with left := l } :: rest)).fset CHS_CREQ 0 7 (rest.length + 1))) ∧
    (let ends (t : State) (q : CreateReq) (rest : List CreateReq) : State :=
       (((t.withCreq rest).fset CHS_CREQ 0 7 rest.length).mapPin q.stream q.k (fun p => { p with created := true })).pinCheck q.stream q.k
     (∀ q rest pn, s.creq = q :: rest → q.left = [pn] → exec .transactionCreate s = .next (ends (s.createOne pn q) q rest)) ∧
     (∀ q rest, s.creq = q :: rest → q.left = [] → exec .transactionCreate s = .next (ends s q rest))) ∧
    (∀ (pn : Nat) (q : CreateReq),
      let n := (s.fget (CHS_P_RDSC pn) 0 15 + snOf q.k % (s.fget (CHS_P_RDSC pn) 16 6 + 1)) % 32768
      let lost (cause scn : Nat) : State :=
        s.lossRecord pn (lossWords cause none (s.epoch pn) pn (snOf q.k) scn q.fin q.stream 0)
      (s.pstate pn ≠ 2 → s.createOne pn q = lost 4 0) ∧
      (s.pstate pn = 2 → s.fbit CHS_CTL 0 = false ∨ (s.subch n).owner ≠ some pn ∨ (s.subch n).state ≠ 2 →
        s.createOne pn q = lost 3 n) ∧
      (s.pstate pn = 2 → s.fbit CHS_CTL 0 = true → (s.subch n).owner = some pn → (s.subch n).state = 2 →
        s.fget (CHS_P_TAGLIM pn) 0 13 ≤ s.tagUse pn ∨ s.freeCount ≤ s.tagReserve → s.createOne pn q = lost 1 n) ∧
      (s.pstate pn = 2 → s.fbit CHS_CTL 0 = true → (s.subch n).owner = some pn → (s.subch n).state = 2 → s.freeTags ≠ [] →
        s.tagUse pn < s.fget (CHS_P_TAGLIM pn) 0 13 → s.tagReserve < s.freeCount →
        ∃ t, s.tagTaken t = false ∧ (s.createOne pn q).txn t = some
          { pn := pn, epoch := s.epoch pn,
            gen := (tabGet 0 s.readout.gens t + 1) % 8, scn := n, stream := q.stream, k := q.k, fin := q.fin, order := s.readout.created,
            rseq := if (s.subch n).session = s.rd SEC_SESSION then (s.subch n).rseq else 0 } ∧
          (s.createOne pn q).hbm = s.hbm ∧ (s.createOne pn q).cores = s.cores))

/-- Engines and the gather (R301, R309, R312 to R316, R343, R349 to R352, R356, R380, R402): a queued transaction takes the least loaded
usable engine and pages of its own when its partition's turn has come; a completion whose generation or epoch is not the transaction's
is stale; a gather ends with the payload or a loss; a sealed record is written to its pages. -/
def Sys2Proof.Claim.Engines : Prop :=
  ∀ (s : State) (t : Tag), s.up →
    let stale (gen epoch : Nat) : State := match tabFind s.readout.holders (8 * t + gen) with
      | some pn => (s.count CHS_STALE 1).stale pn 3 epoch
      | none => s.count CHS_STALE 1
    (s.txn t = none → exec (.gatherStart t) s = .next s ∧ ∀ (gen : Fin 8) (epoch : BitVec 8),
      (∀ u, exec (.gatherComplete ⟨t, gen, epoch⟩ u) s = .next (stale gen epoch.toNat)) ∧
      exec (.sealComplete ⟨t, gen, epoch⟩) s = .next (stale gen epoch.toNat)) ∧
    (∀ av e, s.pickEngine av = some e → s.engineFree e = true ∧ av ≠ some (e / 4) ∧
      ∀ f, f < 16 → s.engineFree f = true → av ≠ some (f / 4) →
        s.engineLoad e < s.engineLoad f ∨ (s.engineLoad e = s.engineLoad f ∧ e ≤ f)) ∧
    (∀ n, n ≤ s.freePages → (s.takePages n).1.length = n ∧ (s.takePages n).1.Nodup ∧ ∀ p ∈ (s.takePages n).1, s.pageFree p = true) ∧
    (∀ x, s.txn t = some x →
      (x.phase ≠ .queued ∨ s.freePages < s.pagesFor x.scn ∨ s.pickEngine x.avoid = none ∨
        s.mayGrant .engines s.gatherDemand x.pn = false → exec (.gatherStart t) s = .next s) ∧
      (∀ e, x.phase = .queued → s.pagesFor x.scn ≤ s.freePages → s.pickEngine x.avoid = some e →
        s.mayGrant .engines s.gatherDemand x.pn = true →
        let u := s.charge .engines s.gatherDemand x.pn (grants4K (largestPayload (s.program x.scn)))
        let v := (u.takePages (u.pagesFor x.scn)).2
        let w := v.withReadout { v.readout with assigned := v.readout.assigned + 1 }
        exec (.gatherStart t) s = .next ((w.setTxn t { x with
          phase := .gather, engine := some e, pages := (u.takePages (u.pagesFor x.scn)).1, asgn := w.readout.assigned }).cmpCount e)) ∧
      (∀ (gen : Fin 8) (epoch : BitVec 8), gen.val ≠ x.gen ∨ epoch.toNat ≠ s.epoch x.pn →
        (∀ u, exec (.gatherComplete ⟨t, gen, epoch⟩ u) s = .next (stale gen epoch.toNat)) ∧
        exec (.sealComplete ⟨t, gen, epoch⟩) s = .next (stale gen epoch.toNat)) ∧
      (∀ (gen : Fin 8) (epoch : BitVec 8), gen.val = x.gen → epoch.toNat = s.epoch x.pn →
        let gathered (u : Bool) (w : State) : Prop := exec (.gatherComplete ⟨t, gen, epoch⟩ u) s = .next w
        let sealed (w : State) : Prop := exec (.sealComplete ⟨t, gen, epoch⟩) s = .next w
        (x.phase ≠ .gather → ∀ u, gathered u s) ∧
        (x.phase = .gather → gathered true ((s.count MEM_HBM_ECC_UNC 1).loseTxn t 5 2)) ∧
        (x.phase = .gather → s.isPoison (s.dirAddr x.stream x.k / 64) = true ∨ s.dirHolds x.stream x.k = false →
          gathered false (s.loseTxn t 5 2)) ∧
        (let dir := (List.range 8).map (fun i => s.hbmWord (s.dirAddr x.stream x.k + 8 * i))
         let prog := s.program x.scn
         x.phase = .gather → s.isPoison (s.dirAddr x.stream x.k / 64) = false → s.dirHolds x.stream x.k = true →
         (∀ c, s.gatherAll x.pn x.stream x.k dir prog = .lost c →
           (prog.any (s.copyPerm x.pn) = true →
             gathered false ((s.errLog stPerm srcChs (some x.pn) x.scn).loseTxn t c 2)) ∧
           (prog.any (s.copyPerm x.pn) = false → gathered false (s.loseTxn t c 2))) ∧
         (∀ bs hits, s.gatherAll x.pn x.stream x.k dir prog = .ok bs hits →
           let r := s.gatherReads x.pn bs.length
           (∀ u, r.loadKey x.pn (r.scField x.scn 0 48 4) = (none, u) → gathered false (u.loseTxn t 0xD 3)) ∧
           (∀ key u, r.loadKey x.pn (r.scField x.scn 0 48 4) = (some key, u) → gathered false
             (u.setTxn t { x with phase := .sealing, body := bs, nhit := hits, dir := dir, key := key })))) ∧
        (x.phase ≠ .sealing ∨ x.engine = none → sealed s) ∧
        (∀ e, x.phase = .sealing → x.engine = some e →
          ((s.heldRecords e).head?.map (·.1) ≠ some t.val → sealed s) ∧
          ((s.heldRecords e).head?.map (·.1) = some t.val →
            let r := s.sealRecord t x
            let n := x.body.length
            let u := ((((s.count64 (CMP_IN_LO e) n).count64 (CMP_OUT_LO e) r.2).count64 (CMP_RECS_LO e) 1).count64
              (SEC_RE_RECS_LO e) 1)
            let v := if n < r.2 then u.count (CMP_EXPAND e) 1 else u
            let pages := x.pages.take (ceilDiv r.1.length 4096)
            let y := { x with phase := .stored, recLen := r.1.length, slen := r.2, key := [], pinned := false, pages := pages }
            sealed ((((v.storeRecord pages r.1).setTxn t y).cmpCount e).pinDone x.stream x.k)))))

/-- An engine's failure and its test (R316, R352, R356 to R359, R436): the engine is quarantined, the record in progress is run again
once on another readout unit or lost, staged ones are queued again; the test of a quarantined engine returns or retires it. -/
def Sys2Proof.Claim.EngineFailures : Prop :=
  (∀ (s : State) (e : EngineNo) (cause : BitVec 4), s.up →
    let errs (tag gen : Nat) : State := ((s.count (CMP_FAIL e) 1).wr (CMP_LASTERR e)
      (2 ^ 31 + cause.toNat * 2 ^ 24 + gen * 2 ^ 13 + tag)).fset (CMP_ST e) 16 3 3
    let again (x : Txn) : Txn := { x with phase := .queued, engine := none, pages := [], body := [], key := [] }
    (s.heldRecords e = [] → exec (.engineFailure e cause) s = .next (errs 0 0)) ∧
    (∀ t x staged, s.heldRecords e = (t, x) :: staged →
      let u := staged.foldl (fun u y => u.setTxn y.1 (again y.2)) (errs t x.gen)
      (x.rerun = false → exec (.engineFailure e cause) s = .next
        (((u.setTxn t { again x with rerun := true, avoid := some (e.val / 4) }).count CHS_REDO 1).cmpCount e)) ∧
      (x.rerun = true → exec (.engineFailure e cause) s = .next ((u.loseTxn t 8 x.phase.code).cmpCount e)))) ∧
  (∀ (s : State) (e : EngineNo) (misr : BitVec 64) (steps : BitVec 32), s.up →
    let r := testRes (90 + e.val) misr.toNat steps.toNat
    (s.cmpState e ≠ 3 ∨ s.lcs = 0 ∨ s.lcs = 5 → exec (.engineTestDone e misr steps) s = .next s) ∧
    (s.cmpState e = 3 → s.lcs ≠ 0 → s.lcs ≠ 5 →
      (r = .incomplete → exec (.engineTestDone e misr steps) s = .next (s.count BST_TCNT 1)) ∧
      (r = .fail → exec (.engineTestDone e misr steps) s =
        .next ((s.fset (CMP_ST e) 16 3 4).retireUnit (90 + e.val) srcCmp stDown)) ∧
      (r = .pass → exec (.engineTestDone e misr steps) s =
        .next (((s.withAges (tabDel s.ages e)).fset (CMP_ST e) 16 3 (if s.fbit (CMP_CTL e) 0 then 0 else 5)).cmpCount e))))

/-- Transactions from creation to the record store: Creation, Engines, EngineFailures. -/
def Obligations.Transactions : Prop := Claim.Creation ∧ Claim.Engines ∧ Claim.EngineFailures

/-- RECORD_DELIVER (R313, R319 to R321, R324, R353, R354, R402, R414): losses whose turn has come take their completion entries; a stored
record whose turn has come, when its partition may take the link, goes into the posted buffers it needs, in ring order, each in full
except the last, or waits, or is lost; over Ethernet it is cut into packets. -/
def Sys2Proof.Claim.RecordDelivery : Prop :=
  (∀ (s : State) (n : Scn) (bufs : List BufDesc), s.up →
    let u := if s.scPcie n then s.cqLost 8192 n else s.wrrGo n
    let gives (v : State) : Prop := exec (.recordDeliver n bufs) s = .next v
    let c := u.subch n
    (u.nextTurn n = none → gives u) ∧
    (∀ t x, u.nextTurn n = some (t, x) →
      (u.linkReady n = false ∨ u.mayGrant (u.linkOf n) (u.linkDemand (u.linkOf n)) x.pn = false → gives u) ∧
      (u.linkReady n = true → u.mayGrant (u.linkOf n) (u.linkDemand (u.linkOf n)) x.pn = true →
        (u.scPcie n = false →
          (u.scField n 0 57 1 = 1 → 1048576 < 96 + x.slen → gives (u.z512Fail n t x)) ∧
          (u.scField n 0 57 1 = 0 ∨ 96 + x.slen ≤ 1048576 →
            let v := u.takeLink n x
            let w := v.setTxn t { x with phase := .deliver }
            gives ((w.setSubch n { w.subch n with
              txq := cutPackets t (v.pktBytes n) x.recLen (x.recLen + 1) 0 (v.recordOf x) }).wrrGo n))) ∧
        (u.scPcie n = true →
          let posted := bufs.take (c.brPi - c.brCi)
          let v := u.readDescs x.pn n posted.length
          let error := (v.setSubch n { c with state := 4, lastSt := stArg }).partEvent x.pn 7
          (v.scField n 0 57 1 = 1 →
            (posted = [] → gives v) ∧
            (∀ b rest, posted = b :: rest →
              (bufBad b = true → gives error) ∧
              (bufBad b = false → bufLen b < 96 + x.slen → gives ((v.z512Fail n t x).cqLost 8192 n)) ∧
              (bufBad b = false → 96 + x.slen ≤ bufLen b → gives (v.pcieDeliver n t x [b])))) ∧
          (v.scField n 0 57 1 = 0 →
            (∀ used, fitBufs x.recLen posted = .ok used → gives (v.pcieDeliver n t x used)) ∧
            (fitBufs x.recLen posted = .bad → gives error) ∧
            (fitBufs x.recLen posted = .short →
              (posted.length < c.brPi - c.brCi → gives v) ∧
              (posted.length = c.brPi - c.brCi → c.brPi - c.brCi = v.brSize n - 1 →
                gives ((v.loseTxn t 7 x.phase.code).cqLost 8192 n)) ∧
              (posted.length = c.brPi - c.brCi → c.brPi - c.brCi ≠ v.brSize n - 1 →
                gives (v.setSubch n { c with short := some c.brPi })))))))) ∧
  (∀ (n : Nat) (bufs used : List BufDesc) (bs : List Byte), fitBufs n bufs = .ok used → bs.length = n →
    (∃ rest, bufs = used ++ rest) ∧ ((layBufs used bs).flatMap (fun w => w.2)) = bs ∧
    (layBufs used bs).map (fun w => w.1) = used.map (fun b => b.w0.toNat) ∧
    ∀ b ∈ used, b.w0.toNat % 64 = 0 ∧ 0 < bufLen b ∧ bufLen b % 64 = 0 ∧ bufLen b ≤ 16777216 ∧ bits b.w1.toNat 25 39 = 0)

/-- Doorbells and the PCIe link (R315, R322, R323, R390): a doorbell of a FREE partition is dropped and logged; one of a side that does
not own the subchannel, or that runs past the ring, is counted and dropped; consumed entries end their transactions; loss of the link or
of Bus Master Enable loses the transactions. -/
def Sys2Proof.Claim.PcieDelivery : Prop :=
  (∀ (s : State) (src : Src) (w : BitVec 64), s.up →
    let n := w.toNat / 2 ^ 32 % 2 ^ 15
    let c := s.subch n
    let db := (w.toNat % 2 ^ 16 + 65536 - c.brCi % 65536) % 65536
    let cq := (w.toNat % 2 ^ 16 + 65536 - c.cqCi % 65536) % 65536
    (∀ pn : Pn, src = .vf pn → s.pstate pn = 0 →
      exec (.bufferDoorbell src w) s = .next (s.errLog stState srcHost (some pn) 0x74) ∧
      exec (.consumerDoorbell src w) s = .next (s.errLog stState srcHost (some pn) 0x74)) ∧
    ((∀ pn : Pn, src = .vf pn → s.pstate pn ≠ 0) →
      (s.dbPermits src n = false → exec (.bufferDoorbell src w) s = .next (s.count CHS_DBPERM 1) ∧
        exec (.consumerDoorbell src w) s = .next (s.count CHS_DBPERM 1)) ∧
      (s.dbPermits src n = true →
        (s.brSize n ≤ db → exec (.bufferDoorbell src w) s = .next (s.count CHS_DBSTALE 1)) ∧
        (db < s.brSize n → exec (.bufferDoorbell src w) s = .next (s.setSubch n { c with brPi := c.brCi + db })) ∧
        (c.cqPi - c.cqCi < cq → exec (.consumerDoorbell src w) s = .next (s.count CHS_DBSTALE 1)) ∧
        (cq ≤ c.cqPi - c.cqCi →
          let u := s.setSubch n { c with cqCi := c.cqCi + cq }
          let read := s.readout.txns.filter (fun e => e.2.scn == n &&
            (match e.2.cq with | some i => i < c.cqCi + cq | none => false))
          exec (.consumerDoorbell src w) s = .next ((read.foldl (fun u e => u.doneTxn e.1) u).cqLost 8192 n))))) ∧
  (∀ (s : State) (pn : Pn), s.up →
    exec .pcieLinkDown s = .next (s.loseAll 0xA (fun x => s.scPcie x.scn)) ∧
    (let t := s.setPart pn { s.part pn with busMaster := false }
     exec (.busMasterDisable pn) s = .next (t.loseAll 0xA (fun x => x.pn == pn && t.scPcie x.scn))) ∧
    (∀ t cause phase x, s.txn t = some x →
      s.loseTxn t cause phase = (s.endTxn t x (fun l => if s.scPcie x.scn then
        l.map (fun y => if y = .txn t then .lost cause x.gen t x.k x.rseq else y) else l.filter (fun y => y != .txn t))).lossRecord
        x.pn (lossWords cause (some (t, x.gen)) x.epoch x.pn (snOf x.k) x.scn x.fin x.stream phase)))

/-- The loss log and the controls of readout (R330, R334, R335, R339 to R341, R357, R358, R390): POP moves on one entry, CLRSUM clears
LSUM, for the partition itself or the PF; CHS_CTL, WRR_CTL and CMP_CTL with their refusals. -/
def Sys2Proof.Claim.ReadoutControls : Prop :=
  (∀ (s : State) (src : Src) (pn : Pn), s.up →
    (∀ p : Pn, src = .vf p → s.pstate p = 0 →
      exec (.pop src pn) s = .next (s.errLog stState srcHost (some p) 0x88) ∧
      exec (.clrsum src pn) s = .next (s.errLog stState srcHost (some p) 0x88)) ∧
    ((∀ p : Pn, src = .vf p → s.pstate p ≠ 0) →
      (src ≠ .pf → src ≠ .vf pn → exec (.pop src pn) s = .next s ∧ exec (.clrsum src pn) s = .next s) ∧
      (src = .pf ∨ src = .vf pn →
        exec (.clrsum src pn) s = .next ((s.wr (CHS_P_LSUM pn) 0).lossTag pn 0 0) ∧
        (s.fget (CHS_P_LOSS pn) 16 7 = 0 → exec (.pop src pn) s = .next s) ∧
        (s.fget (CHS_P_LOSS pn) 16 7 = 1 → exec (.pop src pn) s = .next
          (((s.fset (CHS_P_LOSS pn) 0 6 ((s.fget (CHS_P_LOSS pn) 0 6 + 1) % 64)).fset (CHS_P_LOSS pn) 16 7 0).lossTag pn 0 0)) ∧
        (1 < s.fget (CHS_P_LOSS pn) 16 7 →
          let h := (s.fget (CHS_P_LOSS pn) 0 6 + 1) % 64
          let u := (s.fset (CHS_P_LOSS pn) 0 6 h).fset (CHS_P_LOSS pn) 16 7 (s.fget (CHS_P_LOSS pn) 16 7 - 1)
          let a := s.work + 0x800000 + 2048 * pn + 32 * h
          let l : LossTag := { pn := pn, stream := bits (s.hbmWord (a + 16)) 0 2, sn := bits (s.hbmWord (a + 8)) 16 48 }
          s.canonical = true → exec (.pop src pn) s = .next ((u.withReadout { u.readout with
            lossTags := u.readout.lossTags.map (fun e => if e.2.pn = pn.val then (e.1, l) else e) }).lossTag pn 0 0))))) ∧
  (∀ (s : State) (v : BitVec 32), s.up →
    let last (t : State) (st : Nat) : State := t.fset CHS_ST 0 8 st
    let rst := (s.rd64 CHS_RST_LO, s.fget CHS_RST_SIZE 0 14 * 0x200000)
    let bad := hbmSize < s.work + 0x1000000 ∨ hbmSize < rst.1 + rst.2 ∨ rangesMeet (s.work, 0x1000000) rst = true
    let free := s.unassigned s.work 0x1000000 = true ∧ s.unassigned rst.1 rst.2 = true
    let on := v.toNat % 2 = 1
    let i := Instr.chsCtlWrite v
    (on → s.fbit CHS_CTL 0 = true → exec i s = .next (last s stOk)) ∧
    (on → s.fbit CHS_CTL 0 = false → s.fbit CHS_ST 16 = true → exec i s = .next (last s stState)) ∧
    (on → s.fbit CHS_CTL 0 = false → s.fbit CHS_ST 16 = false →
      (bad → exec i s = .next (last s stRange)) ∧ (¬bad → ¬free → exec i s = .next (last s stPerm)) ∧
      (¬bad → free → exec i s = .next (last ((s.wr CHS_CTL 1).fset CHS_CREQ 16 7 s.creq.length) stOk))) ∧
    (¬on → (∀ n, n < 4 → s.subsOf n subReads = []) → exec i s = .next (last (s.wr CHS_CTL 0) stOk)) ∧
    (¬on → (∃ n, n < 4 ∧ s.subsOf n subReads ≠ []) → exec i s = .next (last s stState))) ∧
  (∀ (s : State) (p : Fin 2) (v : BitVec 32), s.up →
    let last (t : State) (st : Nat) : State := t.fset (WRR_ST p) 0 8 st
    let mode := v.toNat / 2 % 4
    let old := s.fget (WRR_CTL p) 1 2
    let sends (e : Nat × Subch) : Prop := 8 ≤ s.scDest e.1 ∧ s.scPort e.1 / 4 = p.val
    let refused := (s.fbit (WRR_CTL p) 0 = true ∧ mode ≠ old) ∨
      (v.toNat % 2 = 0 ∧ ∃ e ∈ s.readout.subch, e.2.state = 2 ∧ sends e) ∨
      (∃ e ∈ s.readout.subch, e.2.loaded = true ∧ sends e ∧ s.scPort e.1 % 4 < subPorts old ∧ subPorts mode ≤ s.scPort e.1 % 4)
    (mode = 3 → exec (.wrrCtlWrite p v) s = .next ((last s stArg).errLog stArg srcWrr none (WRR_CTL p))) ∧
    (mode ≠ 3 → refused → exec (.wrrCtlWrite p v) s = .next (last s stState)) ∧
    (mode ≠ 3 → ¬refused →
      let t := last (s.wr (WRR_CTL p) (v.toNat % 16)) stOk
      let u := (List.range 4).foldl (fun u q => u.portGo (4 * p.val + q)) t
      exec (.wrrCtlWrite p v) s = .next ((u.reeval (122 + 2 * p.val)).reeval (123 + 2 * p.val)))) ∧
  (∀ (s : State) (e : EngineNo) (v : BitVec 32), s.up →
    let last (t : State) (st : Nat) : State := t.fset (CMP_ST e) 0 8 st
    let on := v.toNat % 2 = 1
    let others := ∃ f, f < 16 ∧ f ≠ e.val ∧ s.fbit (CMP_CTL f) 0 = true ∧ s.cmpState f ≠ 4 ∧ s.cmpState f ≠ 3
    (s.cmpState e = 2 → exec (.cmpCtlWrite e v) s = .next (last s stTesting)) ∧
    (s.cmpState e = 4 → on → exec (.cmpCtlWrite e v) s = .next (last s stState)) ∧
    (s.cmpState e ≠ 2 → s.cmpState e ≠ 4 → on →
      exec (.cmpCtlWrite e v) s = .next (last ((s.wr (CMP_CTL e) 1).cmpCount e) stOk)) ∧
    (s.cmpState e ≠ 2 → ¬on → ¬others → exec (.cmpCtlWrite e v) s = .next (last s stState)) ∧
    (s.cmpState e ≠ 2 → ¬on → others →
      exec (.cmpCtlWrite e v) s = .next (last ((s.wr (CMP_CTL e) 0).cmpCount e) stOk)))

/-- Walath Reliable Readout (R325 to R330, R341, R375, R397): a port out of service receives nothing; a received packet is bad, dropped,
stale or an acknowledgement, in that order; a packet's timer sends it again up to RETRY times, then the subchannel is DOWN; a DOWN
subchannel sends a PROBE; loss and return of alignment; PAUSE. -/
def Obligations.ReliableReadout : Prop :=
  (∀ (s : State) (port : Fin 8) (a : WrrAck), s.up →
    let p := port.val / 4
    let c := s.subch a.scn
    let ok := a.ver.toNat = 1 ∧ a.ty.toNat ≠ 0 ∧ a.ty.toNat < 4
    let mine := a.ty.toNat = 2 ∧ c.state ≠ 0 ∧ c.loaded = true ∧ s.scDest a.scn = port.val + 8 ∧ s.fromPeer a.scn a = true
    let stale := s.count (WRR_RXSTALE p) 1
    let gives (t : State) : Prop := exec (.wrrAck port a) s = .next t
    (s.portLive port = false → gives s) ∧
    (s.portLive port = true →
      (¬ok → gives (s.count (WRR_RXBAD p) 1)) ∧
      (ok → ¬mine → gives (s.count (WRR_RXDROP p) 1)) ∧
      (ok → mine → c.owner ≠ some a.pn.val → gives stale) ∧
      (ok → mine → c.owner = some a.pn.val → a.epoch.toNat ≠ s.epoch a.pn → gives (stale.stale a.pn 4 a.epoch.toNat)) ∧
      (ok → mine → c.owner = some a.pn.val → a.epoch.toNat = s.epoch a.pn →
        (c.state = 3 →
          let answers := c.probeInst = some a.inst.toNat ∧ a.cum.toNat ≤ 1 ∧ s.rngFail = false
          (answers → gives (((s.setSubch a.scn { c with state := 2 }).newInst a.scn).count (WRR_RXACK p) 1)) ∧
          (¬answers → gives stale)) ∧
        (c.state ≠ 3 →
          let oldest := match c.window with | [] => c.psn | q :: _ => q.psn
          let ahead := (c.psn + 2 ^ 32 - oldest) % 2 ^ 32 < (a.cum.toNat + 2 ^ 32 - oldest) % 2 ^ 32
          (a.inst.toNat ≠ c.inst ∨ ahead → gives stale) ∧
          (a.inst.toNat = c.inst → ¬ahead →
            let left := c.window.filter (fun x => !acked oldest a.cum.toNat a.sack.toNat x.psn)
            gives ((((s.count (WRR_RXACK p) 1).setSubch a.scn { c with window := left }).wrrDone a.scn).wrrGo a.scn)))))) ∧
  (∀ (s : State) (n : Scn) (psn : BitVec 32), s.up →
    let u := s.pauseOver (s.scPort n)
    let c := u.subch n
    let open_ := u.portOpen (u.scPort n)
    (open_ = false ∨ (c.state ≠ 1 ∧ c.state ≠ 2) → exec (.rtoExpiry n psn) s = .next u) ∧
    (open_ = true → c.state = 1 ∨ c.state = 2 →
      ((∀ q ∈ c.window, q.psn ≠ psn.toNat) → exec (.rtoExpiry n psn) s = .next u) ∧
      (∀ a q b, c.window = a ++ q :: b → (∀ x ∈ a, x.psn ≠ psn.toNat) → q.psn = psn.toNat →
        let r := { q with resends := q.resends + 1 }
        (q.resends < u.scField n 8 40 4 → exec (.rtoExpiry n psn) s = .next
          (((u.setSubch n { c with window := a ++ r :: b }).sendPkt n r).count (WRR_RETX (u.scPort n / 4)) 1)) ∧
        (u.scField n 8 40 4 ≤ q.resends → exec (.rtoExpiry n psn) s = .next (u.goDown n 9)))) ∧
    ((s.subch n).owner = none → exec (.probe n) s = .next s) ∧
    (∀ pn, (s.subch n).owner = some pn →
      (c.state ≠ 3 ∨ open_ = false ∨ u.rngFail = true → exec (.probe n) s = .next u) ∧
      (c.state = 3 → open_ = true → u.rngFail = false → ∃ t, exec (.probe n) s = .next t ∧
        (t.subch n).probeInst = some (Config.freeWord32 u.free).toNat ∧ t.hbm = s.hbm ∧ t.free = u.free + 1 ∧
        ∃ f, t.outs = .wrr (s.scPort n) n 0 f :: s.outs)) ∧
    (let down := s.fbit (WRR_ST (s.scPort n / 4)) (16 + s.scPort n % 4) = false ∧ 8 ≤ s.scDest n ∧ (s.subch n).loaded = true ∧
       ((s.subch n).state = 1 ∨ (s.subch n).state = 2)
     (down → exec (.linkHoldExpiry n) s = .next (s.goDown n 0xA)) ∧
     (¬down → exec (.linkHoldExpiry n) s = .next s))) ∧
  (∀ (s : State) (port : Fin 8) (quanta : BitVec 16), s.up →
    let p := port.val / 4
    (exec (.pcsAlignmentLoss port) s = .next (s.fset (WRR_ST p) (16 + port.val % 4) 1 0)) ∧
    (exec (.pcsAlignmentReturn port) s = .next ((s.fset (WRR_ST p) (16 + port.val % 4) 1 1).portGo port)) ∧
    (s.portLive port = false → exec (.pauseFrameReceived port quanta) s = .next s) ∧
    (s.portLive port = true →
      let u := s.count (WRR_PAUSE p) 1
      let held := u.withReadout { s.readout with pause := tabPut 0 s.readout.pause port quanta.toNat }
      (u.fbit (WRR_CTL p) 3 = false → exec (.pauseFrameReceived port quanta) s = .next u) ∧
      (u.fbit (WRR_CTL p) 3 = true →
        (quanta.toNat ≠ 0 → exec (.pauseFrameReceived port quanta) s = .next held) ∧
        (quanta.toNat = 0 → exec (.pauseFrameReceived port quanta) s = .next (held.portGo port)))))
/-! ## Power domains -/

/-- Entry and exit of a power domain (R417, R419, R422 to R425): a request where the target is deeper than the state of a steady domain
enters it, but for a pair in RUN or IDLE under a cluster in BIVOUAC; a shallower target is a wake; the point of no return (for BIVOUAC
once the cores are drained, with the clean before it), completion, exit to RUN. -/
def Sys2Proof.Claim.DomainSequences : Prop :=
  ∀ (s : State) (d : Domain), s.up →
    let kept := d.val < 81 ∧ s.dstate d ≤ 1 ∧ s.dstate (clusterDom d) = 3
    (s.dphase d ≠ 0 ∨ s.target d ≤ s.dstate d → exec (.entryRequest d) s = .next (s.reeval d)) ∧
    (s.dphase d = 0 → s.dstate d < s.target d →
      (kept → exec (.entryRequest d) s = .next s) ∧
      (¬kept → exec (.entryRequest d) s = .next
        ((s.setDom d { s.dom d with aim := s.target d, prev := s.dstate d }).fset (PWR_D_ST d) 4 2 1))) ∧
    (s.dphase d ≠ 1 → exec (.pointOfNoReturn d) s = .next s) ∧
    (s.dphase d = 1 → s.target d < (s.dom d).aim → exec (.pointOfNoReturn d) s = .next (s.abortAndExit d)) ∧
    (s.dphase d = 1 → (s.dom d).aim ≤ s.target d →
      ((s.dom d).aim ≠ 3 → exec (.pointOfNoReturn d) s = .next (s.fset (PWR_D_ST d) 4 2 2)) ∧
      ((s.dom d).aim = 3 → s.canClose d = false → exec (.pointOfNoReturn d) s = .next s) ∧
      ((s.dom d).aim = 3 → s.canClose d = true →
        exec (.pointOfNoReturn d) s = .next ((s.cleanDomain d).fset (PWR_D_ST d) 4 2 2))) ∧
    (s.dphase d ≠ 2 → exec (.entryComplete d) s = .next s) ∧
    (s.dphase d = 2 → exec (.entryComplete d) s = .next
      ((((s.fset (PWR_D_ST d) 0 2 (s.dom d).aim).fset (PWR_D_ST d) 4 2 0).fset (PWR_D_ST d) 8 8 stOk).reeval d)) ∧
    (s.dphase d ≠ 3 → exec (.exitComplete d) s = .next s) ∧
    (s.dphase d = 3 →
      let u := ((s.fset (PWR_D_ST d) 0 2 0).fset (PWR_D_ST d) 4 2 0).fset (PWR_D_ST d) 8 8 stOk
      let gone := u.setDom d { u.dom d with latch := [], waiting := [] }
      let v := u.setDom d { u.dom d with latch := (u.dom d).latch.filter (fun e => e == 3), waiting := [] }
      (d.val < 81 → v.fbit (PAI_DBG_CTL d) 0 = false → exec (.exitComplete d) s = .next v) ∧
      (d.val < 81 → v.fbit (PAI_DBG_CTL d) 0 = true → exec (.exitComplete d) s = .next (v.haltPair d)) ∧
      (81 ≤ d.val → d.val < 90 →
        let w := if s.dstate d = 3 then gone.reloadHeld (d.val - 81) else gone
        exec (.exitComplete d) s = .next ((List.range 9).foldl (fun w i => w.reeval (9 * (d.val - 81) + i)) w)) ∧
      (106 ≤ d.val → d.val < 122 → exec (.exitComplete d) s = .next
        ((List.range 4).foldl (fun w i => w.laneStart (4 * (d.val - 106) + i)) gone)) ∧
      ((90 ≤ d.val ∧ d.val < 106) ∨ 122 ≤ d.val → exec (.exitComplete d) s = .next gone))

/-- The target of a domain is the shallowest state of its votes (R419), and what a change of it does: a steady domain exits, an
entry before the point of no return is aborted with ST_WAKE_RACE and counted, and what woke it is then as if no entry had begun, one
after it latches the wake (R424 to R426). -/
def Sys2Proof.Claim.DomainVotes : Prop :=
  ∀ (s : State) (d : Domain),
    (s.target d ≤ s.fget (PWR_D_VOTE d) 0 2 ∧ s.target d ≤ s.fget (PWR_D_VOTE d) 2 2 ∧ s.target d ≤ s.useVote d ∧
      s.target d ≤ s.spareVote d ∧ s.target d ≤ s.rotVote d ∧ s.target d ≤ s.wakeVote d) ∧
    ((s.dom d).latch ≠ [] → s.target d = 0) ∧
    (s.dphase d = 0 → s.target d < s.dstate d → 81 ≤ d.val ∨ s.dstate (clusterDom d) = 0 →
      s.reeval d = s.fset (PWR_D_ST d) 4 2 3) ∧
    (s.dphase d = 0 → s.dstate d ≤ s.target d → s.reeval d = s) ∧
    (s.dphase d = 1 → s.target d < (s.dom d).aim →
      let u := ((((s.fset (PWR_D_ST d) 4 2 0).fset (PWR_D_ST d) 8 8 stWakeRace).fset (PWR_D_ST d) 0 2 (s.dom d).prev).count
        (PWR_D_RACE d) 1).count PWR_RACE 1
      s.reeval d = s.abortAndExit d ∧
      (u.target d < u.dstate d → s.reeval d = u.fset (PWR_D_ST d) 4 2 3) ∧ (u.dstate d ≤ u.target d → s.reeval d = u)) ∧
    (s.dphase d = 2 → s.target d < (s.dom d).aim → (s.dom d).latch = [] →
      s.reeval d = s.setDom d { s.dom d with latch := [5] }) ∧
    (s.dphase d = 1 ∨ s.dphase d = 2 → (s.dom d).aim ≤ s.target d → s.reeval d = s) ∧
    (s.dphase d = 3 → s.reeval d = s)

/-- Writes of votes (R420, R421, R438, R440) and wake events by their source and the phase they meet (R424 to R426); an enabled one first
interrupts the test of its unit (R437). -/
def Sys2Proof.Claim.WakesAndVotes : Prop :=
  ∀ (s : State) (d : Domain) (pn : Pn) (v : BitVec 32) (src : Fin 5), s.up →
    (s.underTest d = true → exec (.voteWrite (.dom d) v) s = .next (s.fset PWR_ST 0 8 stTesting)) ∧
    (s.underTest d = false → exec (.voteWrite (.dom d) v) s = .next
      (((s.fset (PWR_D_VOTE d) 0 4 v.toNat).fset PWR_ST 0 8 stOk).reeval d)) ∧
    (v.toNat % 4 = 3 → exec (.voteWrite (.pvote pn) v) s = .next
      ((s.fset PWR_ST 0 8 stArg).errLog stArg srcPwr none (PWR_PVOTE pn))) ∧
    (v.toNat % 4 ≠ 3 → exec (.voteWrite (.pvote pn) v) s = .next
      (((s.fset (PWR_PVOTE pn) 0 2 v.toNat).fset PWR_ST 0 8 stOk).reevalPartition pn)) ∧
    (s.underTest d = false ∨ s.wakeOn d src = false → s.wakeTest d src = s) ∧
    (src.val < wakeSources d → s.wakeOn d src = true → s.underTest d = true →
      (81 ≤ d.val ∨ s.role d ≠ 3 → s.wakeTest d src = s.testIncomplete) ∧
      (d.val < 81 → s.role d = 3 →
        let u := s.abortRotation d
        (∀ c, u.reserveFor d = some c → s.wakeTest d src = (u.setPair d 1 false none).fset (CLU_RSV c) 0 3 0) ∧
        (u.reserveFor d = none → s.wakeTest d src = (u.setPair d 2 false none).fset CLU_SP_ST 16 3 0))) ∧
    (wakeSources d ≤ src.val → exec (.wakeEvent d src) s = .next s) ∧
    (src.val < wakeSources d →
      let w := s.wakeTest d src
      let keeps (u : State) : State := u.setDom d { u.dom d with latch := (u.dom d).latch ++ [src.val] }
      (w.wakeOn d src = false →
        (w.dstate d = 0 → w.dphase d = 0 → exec (.wakeEvent d src) s = .next w) ∧
        (w.dstate d ≠ 0 ∨ w.dphase d ≠ 0 → exec (.wakeEvent d src) s = .next
          (w.setDom d { w.dom d with waiting := (w.dom d).waiting ++ [src.val] }))) ∧
      (w.wakeOn d src = true →
        (w.dphase d = 1 →
          let u := ((((w.fset (PWR_D_ST d) 4 2 0).fset (PWR_D_ST d) 8 8 stWakeRace).fset (PWR_D_ST d) 0 2 (w.dom d).prev).count
            (PWR_D_RACE d) 1).count PWR_RACE 1
          (u.dstate d = 0 → exec (.wakeEvent d src) s = .next u) ∧
          (u.dstate d ≠ 0 → exec (.wakeEvent d src) s = .next ((keeps u).reeval d))) ∧
        (w.dphase d = 2 ∨ w.dphase d = 3 → exec (.wakeEvent d src) s = .next (keeps w)) ∧
        (w.dphase d = 0 → w.dstate d = 0 → exec (.wakeEvent d src) s = .next w) ∧
        (w.dphase d = 0 → w.dstate d ≠ 0 → 81 ≤ d.val ∨ w.dstate (clusterDom d) = 0 →
          exec (.wakeEvent d src) s = .next ((keeps w).fset (PWR_D_ST d) 4 2 3)) ∧
        (w.dphase d = 0 → w.dstate d ≠ 0 → d.val < 81 → w.dstate (clusterDom d) ≠ 0 →
          exec (.wakeEvent d src) s = .next ((keeps w).reeval d))))

/-- EARLY_EXIT wakes a pair whose next window of a RUNNING partition starts within its exit time and 2 ticks, and no other
(R422). -/
def Sys2Proof.Claim.EarlyExit : Prop :=
  ∀ (s : State) (pp : PairNo), s.up →
    (s.dstate pp = 0 → exec (.earlyExit pp) s = .next s) ∧
    (s.lpOf pp = none → exec (.earlyExit pp) s = .next s) ∧
    (∀ l i left t : Nat, s.lpOf pp = some l → s.windowNow l = some (i, left) →
      s.toRunning ((s.windows l (s.cbank l)).drop (i + 1) ++ (s.windows l (s.cbank l)).take (i + 1)) left = some t →
      s.dstate pp ≠ 0 →
        (s.exitFs (s.dstate pp) + 2 * s.period < t * s.period → exec (.earlyExit pp) s = .next s) ∧
        (t * s.period ≤ s.exitFs (s.dstate pp) + 2 * s.period → exec (.earlyExit pp) s = .next (s.wake pp 3)))

/-- Power domains: DomainSequences, DomainVotes, WakesAndVotes, EarlyExit. -/
def Obligations.PowerDomains : Prop :=
  Claim.DomainSequences ∧ Claim.DomainVotes ∧ Claim.WakesAndVotes ∧ Claim.EarlyExit

/-! ## Self-test -/

/-- The commands of self-test, with the order of their refusals (R357, R358, R359, R438, R439): UNIT_TEST, ROT_ENG, ANALOG, and the
rotation test of engine units at its time. -/
def Sys2Proof.Claim.TestCommands : Prop :=
  ∀ (s : State) (tgt : BitVec 8), s.up →
    let t := tgt.toNat
    let bad (c : Instr) (st : Nat) := exec c s = .next (s.fset BST_CMD_ST 0 8 st)
    let arg (c : Instr) : Prop := exec c s = .next (if reservedTarget t then
      (s.fset BST_CMD_ST 0 8 stArg).errLog stArg srcBst none BST_CMD else s.fset BST_CMD_ST 0 8 stArg)
    (reservedTarget t = true ↔ (131 ≤ t ∧ t < 0xC0) ∨ (0xCC < t ∧ t < 0xD0) ∨ 0xD1 < t) ∧
    (131 ≤ t → arg (.unitTest tgt)) ∧ (analogTarget t = false → arg (.analog tgt)) ∧
    (s.test ≠ none →
      (t < 131 → bad (.unitTest tgt) stBusy) ∧ (analogTarget t = true → bad (.analog tgt) stBusy) ∧ bad .rotEng stBusy) ∧
    (s.test = none →
      (t < 131 → s.lcs ∉ [0, 1, 4] → bad (.unitTest tgt) stPerm) ∧
      (analogTarget t = true → s.lcs ∉ [0, 1, 2, 3, 4] → bad (.analog tgt) stPerm) ∧
      (s.lcs ∉ [1, 3, 4] → bad .rotEng stPerm) ∧
      (t < 131 → s.lcs ∈ [0, 1, 4] →
        let testing := s.underTest t = true ∨ (90 ≤ t ∧ t < 106 ∧ s.cmpState (t - 90) = 3)
        (testing → bad (.unitTest tgt) stTesting) ∧
        (¬testing → s.unitInService t = true → bad (.unitTest tgt) stState) ∧
        (¬testing → s.unitInService t = false →
          let u := if 90 ≤ t ∧ t < 106 then s.fset (CMP_ST (t - 90)) 16 3 2 else s
          let v := (u.withTest (some (.unit, t))).reeval t
          exec (.unitTest tgt) s = .next ((if t = 72 then v.reeval 89 else v).wr BST_CMD_ST 0x100))) ∧
      (analogTarget t = true → s.lcs ∈ [0, 1, 2, 3, 4] →
        (s.unitInService t = true → bad (.analog tgt) stState) ∧
        (s.unitInService t = false → exec (.analog tgt) s = .next ((s.withTest (some (.analog, t))).wr BST_CMD_ST 0x100))) ∧
      (s.lcs ∈ [1, 3, 4] →
        (s.nextEngine = none → bad .rotEng stState) ∧
        (∀ e : Nat, s.nextEngine = some e → exec .rotEng s = .next
          ((((s.fset (CMP_ST e) 16 3 2).withTest (some (.engine, 90 + e))).reeval (90 + e)).wr BST_CMD_ST 0x100)))) ∧
    (s.fbit BST_CTL 16 = false ∨ s.test ≠ none ∨ s.lcs = 0 ∨ s.lcs = 5 ∨ s.nextEngine = none →
      exec .engineRotation s = .next s) ∧
    (s.fbit BST_CTL 16 = true → s.test = none → s.lcs ≠ 0 → s.lcs ≠ 5 →
      ∀ e : Nat, s.nextEngine = some e → exec .engineRotation s = .next
        ((((s.fset (CMP_ST e) 16 3 2).withTest (some (.rotation, 90 + e))).reeval (90 + e)).fset BST_CMD_ST 8 1 1))

/-- The results of a test (R436): INCOMPLETE below the expected step count whatever the MISR, PASS when both parts match, else
FAIL. -/
def Sys2Proof.Claim.TestResults : Prop :=
  ∀ t misr steps : Nat,
    (steps < expectedSteps t → testRes t misr steps = .incomplete) ∧
    (testRes t misr steps = .pass ↔ steps = expectedSteps t ∧ misr = (Config.expectedMisr t).toNat) ∧
    (testRes t misr steps = .fail ↔
      expectedSteps t < steps ∨ (steps = expectedSteps t ∧ misr ≠ (Config.expectedMisr t).toNat))

/-- The end of a test: an engine unit that passes returns with its age at zero, one cut short returns to its role and counts in
BST_TCNT, a unit that fails is retired (R356, R357, R358, R436, R437, R441); an overrun and ABORT end the test as INCOMPLETE. -/
def Sys2Proof.Claim.TestEnds : Prop :=
  ∀ (s : State) (misr : BitVec 64) (steps : BitVec 32), s.up →
    let ends (u : State) (k : TestKind) (st : Nat) : State :=
      if k = .rotation then u.fset BST_CMD_ST 8 1 0 else u.wr BST_CMD_ST st
    (∀ e, (90 + e ∈ s.nvs.retired → s.engineBack e = s.fset (CMP_ST e) 16 3 4) ∧
      (90 + e ∉ s.nvs.retired → s.engineBack e = (s.fset (CMP_ST e) 16 3 0).cmpCount e)) ∧
    (s.test = none → exec (.testComplete misr steps) s = .next s ∧ exec .testOverrun s = .next s) ∧
    (s.lcs = 5 → exec .abort s = .next (s.fset BST_CMD_ST 0 8 stPerm)) ∧
    (s.lcs ≠ 5 → s.test = none → exec .abort s = .next (s.fset BST_CMD_ST 0 8 stState)) ∧
    (∀ (k : TestKind) (t : Nat), s.test = some (k, t) →
      let u := ends (((s.withTest none).wr BST_RES (t * 256 + 3)).count BST_TCNT 1) k stIncomplete
      let cut (v : State) : Prop := exec .testOverrun s = .next v ∧ (s.lcs ≠ 5 → exec .abort s = .next v)
      (k = .analog → cut (u.wr BST_ANA (t * 2 ^ 24 + analogCheck t * 2 ^ 16 + 3))) ∧
      (k ≠ .analog → 90 ≤ t → t < 106 → cut (u.engineBack (t - 90))) ∧
      (k ≠ .analog → t < 90 ∨ 106 ≤ t → cut u)) ∧
    (∀ (k : TestKind) (t : Nat), s.test = some (k, t) → k = .engine ∨ k = .rotation → s.cmpOcc (t - 90) ≠ 0 →
      exec (.testComplete misr steps) s = .next s) ∧
    (∀ (k : TestKind) (t : Nat), s.test = some (k, t) → (k ≠ .engine ∧ k ≠ .rotation) ∨ s.cmpOcc (t - 90) = 0 →
      let r := testRes t misr.toNat steps.toNat
      let x := ends ((s.withTest none).recordTest t misr.toNat steps.toNat r) k (if r = .incomplete then stIncomplete else stOk)
      let done (v : State) : Prop := exec (.testComplete misr steps) s = .next v
      let ana (n : Nat) : State := x.wr BST_ANA (t * 2 ^ 24 + analogCheck t * 2 ^ 16 + n)
      (k = .engine ∨ k = .rotation →
        (r = .pass → done ((x.withAges (tabDel x.ages (t - 90))).engineBack (t - 90))) ∧
        (r = .incomplete → done (x.engineBack (t - 90))) ∧ (r = .fail → done (x.unitFails t 2 0))) ∧
      (k = .unit → t < 81 →
        (r = .pass → done (x.wr (PAI_TEST t) 1)) ∧ (r = .incomplete → done (x.fset (PAI_TEST t) 0 4 3)) ∧
        (r = .fail → done ((x.fset (PAI_TEST t) 0 4 2).unitFails t 2 0))) ∧
      (k = .unit → 81 ≤ t →
        (r = .fail → done (x.unitFails t 2 0)) ∧
        (r ≠ .fail → (90 ≤ t → t < 106 → done (x.engineBack (t - 90))) ∧ (t < 90 ∨ 106 ≤ t → done x))) ∧
      (k = .analog → (r = .pass → done (ana 1)) ∧ (r = .incomplete → done (ana 3)) ∧
        (r = .fail → done (x.analogResult t (analogCheck t) false))))

/-- Analog monitors and failures (R430, R431, R433, R434): the result stands in BST_ANA; the first failure of a PLL within 1 s is no
fault, the second is; a non-redundant unit that fails seals what it can, records its code and holds the device until PORn. -/
def Sys2Proof.Claim.Failures : Prop :=
  ∀ (s : State) (tgt : BitVec 8) (check : BitVec 4) (code : BitVec 16), s.up →
    let t := tgt.toNat
    let ana (r : Nat) := s.wr BST_ANA (t * 2 ^ 24 + check.toNat * 2 ^ 16 + r)
    let pll := (0xC0 ≤ t ∧ t ≤ 0xCC) ∨ check = 1 ∨ check = 2
    let noted := (ana 2).withMgmt { s.mgmt with anaFail := tabIns s.mgmt.anaFail t s.time.tick }
    let trip (pass : Bool) (u : State) : Prop := exec (.analogMonitorTrip tgt check pass) s = .next u
    (analogTarget t = false → ∀ pass, trip pass s) ∧
    (analogTarget t = true →
      trip true (ana 1) ∧ (¬pll → trip false ((ana 2).unitFails t 4 check.toNat)) ∧
      (pll → tabFind s.mgmt.anaFail t = none → trip false noted) ∧
      (∀ w, pll → tabFind s.mgmt.anaFail t = some w →
        (1000000000000000 < (s.time.tick - w) * s.period → trip false noted) ∧
        ((s.time.tick - w) * s.period ≤ 1000000000000000 → trip false (noted.unitFails t 4 check.toNat)))) ∧
    (let u := (s.powerFailSeq.wr BST_FAULT (2 ^ 31 + code.toNat)).fset MGT_ST 8 4 0xF
     exec (.nonRedundantFault code) s = .next ((u.withHold (some .fault)).withMgmt { u.mgmt with faultn := true }))

/-- Self-test: TestCommands, TestResults, TestEnds, Failures. -/
def Obligations.SelfTest : Prop := Claim.TestCommands ∧ Claim.TestResults ∧ Claim.TestEnds ∧ Claim.Failures

/-! ## Security -/

/-- A command `c` of an issuer with the fields of its word: of a FREE partition dropped and logged; refused with ST_BUSY while a command
of the issuer runs, and with ST_STATE in QUIESCING; else it reads its argument and waits for the controller (R368, R369, R390, R394). -/
def Sys2Proof.Claim.SecStarts (s : State) (c : Instr) (who : Issuer) (op pn kid : Nat) (scope : Bool) (confirm tgt : Nat) : Prop :=
  let w := issuerNo who
  let a := if w = 0 then s.rd64 SEC_ARG_LO else s.rd64 (PRT_SEC_ARG_LO (w - 1))
  let o := if w = 0 then s.rd64 SEC_OUT_LO else s.rd64 (PRT_SEC_OUT_LO (w - 1))
  let n := if w = 0 then pn else w - 1
  let r : SecRun := { op := op, pn := n, keyid := kid, scope := scope, confirm := confirm, tgt := tgt, arg := s.secArg w op tgt a, out := o, epoch := s.epoch n }
  (∀ p : Pn, who = .part p → s.pstate p = 0 → exec c s = .next (s.errLog stState srcHost (some p) 0x90)) ∧
  ((∀ p : Pn, who = .part p → s.pstate p ≠ 0) →
    (s.fbit (secStReg w) 8 = true → exec c s = .next (s.fset (secStReg w) 0 8 stBusy)) ∧
    (s.fbit (secStReg w) 8 = false →
      (∀ p : Pn, who = .part p → s.pstate p = 3 → exec c s = .next ((s.wr (secStReg w) stState).partEvent p 2)) ∧
      ((∀ p : Pn, who = .part p → s.pstate p ≠ 3) → exec c s = .next ((s.wr (secStReg w) 0x100).withSec
        { s.sec with runs := tabIns s.sec.runs w r, serving := some (s.sec.serving.getD w) }))))

/-- The commands of the security controller start (R368, R370). -/
def Sys2Proof.Claim.SecCommands : Prop :=
  ∀ (s : State) (who : Issuer) (pn : Pn) (kid : Fin 16) (scope : Bool) (tgt : BitVec 4) (confirm : BitVec 8), s.up →
    Claim.SecStarts s (.keyGen who kid) who 1 0 kid false 0 0 ∧ Claim.SecStarts s (.kxBegin who kid) who 2 0 kid false 0 0 ∧
    Claim.SecStarts s (.keyImport who kid) who 3 0 kid false 0 0 ∧ Claim.SecStarts s (.keyDestroy who pn kid) who 4 pn kid false 0 0 ∧
    Claim.SecStarts s (.attest who pn scope) who 5 pn 0 scope 0 0 ∧ Claim.SecStarts s (.tokenInstall pn) .mgr 6 pn 0 false 0 0 ∧
    Claim.SecStarts s (.tokenRevoke who pn) who 7 pn 0 false 0 0 ∧ Claim.SecStarts s (.idRead who) who 16 0 0 false 0 0 ∧
    Claim.SecStarts s .certInstall .mgr 17 0 0 false 0 0 ∧ Claim.SecStarts s .lcChallenge .mgr 18 0 0 false 0 0 ∧
    Claim.SecStarts s (.lcAdvance tgt confirm) .mgr 19 0 0 false confirm.toNat tgt.toNat ∧
    Claim.SecStarts s .svnCommit .mgr 20 0 0 false 0 0

/-- The controller serves command `r` of an issuer. -/
def Sys2Proof.Claim.Serving (s : State) (who : Nat) (r : SecRun) : Prop :=
  s.up ∧ s.sec.serving = some who ∧ tabFind s.sec.runs who = some r

/-- The issuer and the state of the device permit command `r`, its output address too, and SESSION still advances (R369, R370,
R381). -/
def Sys2Proof.Claim.Permitted (s : State) (who : Nat) (r : SecRun) : Prop :=
  secIssuer r.op (who == 0) = true ∧ s.lcs ∈ secStates r.op ∧ s.secOut who r ≠ none ∧ s.sec.worn = false

/-- SEC_COMMAND_DONE ends the command of an issuer with a status in state `u`. -/
def Sys2Proof.Claim.SecEnds (s : State) (who : Nat) (r : SecRun) (st : Nat) (u : State) : Prop :=
  exec .secCommandDone s = .next (u.secEnds who st r.epoch)

/-- Whether the words a command writes are written is free: it ends with ST_OK in `f` of the state, or with ST_WEAR and nothing written. -/
def Sys2Proof.Claim.SecTries (s : State) (who : Nat) (r : SecRun) (f : State → State) : Prop :=
  let u := s.withFree (s.free + 1)
  Claim.SecEnds s who r (if Config.freeBool s.free then stOk else stWear) (if Config.freeBool s.free then f u else u)

/-- The refusals that stand before those of an operation, in their order (R369, R370, R375, R381): none has another effect. -/
def Sys2Proof.Claim.SecRefusals : Prop :=
  ∀ (s : State) (who : Nat) (r : SecRun), Claim.Serving s who r →
    (secIssuer r.op (who == 0) = false → Claim.SecEnds s who r stPerm s) ∧
    (secIssuer r.op (who == 0) = true →
      (s.lcs ∉ secStates r.op → Claim.SecEnds s who r stState s) ∧
      (s.lcs ∈ secStates r.op →
        (r.arg = none ∨ s.secOut who r = none → Claim.SecEnds s who r stPerm s) ∧
        (r.arg ≠ none → s.secOut who r ≠ none →
          (r.op ∈ [1, 2, 5, 18] → s.rngFail = true → Claim.SecEnds s who r stDown s) ∧
          (r.op ∈ [1, 2, 3, 4] → s.rngFail = false → s.sec.worn = true → Claim.SecEnds s who r stWear s))))

/-- KEY_GEN, KX_BEGIN, KEY_IMPORT and KEY_DESTROY (R370, R371, R373, R376 to R379): their refusals in order, the blocks they write,
and the slot they leave; an offer that a reset has voided refuses its import with ST_EPOCH. -/
def Sys2Proof.Claim.KeyCommands : Prop :=
  ∀ (s : State) (who : Nat) (r : SecRun) (a : List Byte), Claim.Serving s who r → Claim.Permitted s who r → r.arg = some a →
    let slot := s.keySlot r.pn r.keyid
    let same (u : State) : Prop := ∀ p k : Nat, 16 * p + k ≠ 16 * r.pn + r.keyid → u.keySlot p k = s.keySlot p k
    (r.op = 1 → s.rngFail = false →
      (slot ≠ .empty → Claim.SecEnds s who r stState s) ∧
      (slot = .empty → pubOk a = false → Claim.SecEnds s who r stArg s) ∧
      (slot = .empty → pubOk a = true → ∃ (out : List Byte) (u : State),
        out.length = 352 ∧ out.take 16 = s.binding r.pn r.keyid 2 ∧
        u.keySlot r.pn r.keyid = .loaded (s.randomScalar.2.randomBytes 32).1 ∧ same u ∧
        ∀ ps, s.secArea who 60 r.out 352 = some ps → Claim.SecEnds s who r stOk (u.writeParts ps out))) ∧
    (r.op = 2 → s.rngFail = false →
      (slot ≠ .empty → Claim.SecEnds s who r stState s) ∧
      (slot = .empty → ∃ (eph out : List Byte) (u : State),
        out.length = 288 ∧ out.take 16 = s.binding r.pn r.keyid 1 ∧ u.keySlot r.pn r.keyid = .offered eph (s.epoch r.pn) ∧
        u.regs = s.regs ∧ u.hbm = s.hbm ∧ same u ∧
        ∀ ps, s.secArea who 60 r.out 288 = some ps → Claim.SecEnds s who r stOk (u.writeParts ps out))) ∧
    (r.op = 3 →
      (slot = .empty → 16 * r.pn + r.keyid ∈ s.sec.voided → Claim.SecEnds s who r stEpoch (s.setKeySlot r.pn r.keyid .empty)) ∧
      (slot = .empty → 16 * r.pn + r.keyid ∉ s.sec.voided → Claim.SecEnds s who r stState s) ∧
      (∀ key, slot = .loaded key → Claim.SecEnds s who r stState s) ∧
      (∀ (e : List Byte) (n : Nat), slot = .offered e n →
        let void := s.setKeySlot r.pn r.keyid .empty
        let b := s.binding r.pn r.keyid 1
        let key := gcmOpen (hkdf (ecdh e (cut a 0x20 97)) b) zeroIv b (cut a 0xA0 32) (cut a 0xC0 16)
        (s.rngFail = true → Claim.SecEnds s who r stDown void) ∧
        (s.rngFail = false →
          (n ≠ s.epoch r.pn ∨ (a.getD 7 0).toNat ≠ s.epoch r.pn → Claim.SecEnds s who r stEpoch void) ∧
          (n = s.epoch r.pn → (a.getD 7 0).toNat = s.epoch r.pn →
            (a.take 16 ≠ b ∨ allZero (cut a 0x10 16) = false ∨ pubOk (cut a 0x20 128) = false → Claim.SecEnds s who r stArg void) ∧
            (a.take 16 = b → allZero (cut a 0x10 16) = true → pubOk (cut a 0x20 128) = true →
              (key = none → Claim.SecEnds s who r stAuth (void.count SEC_AUTHFAIL 1)) ∧
              (∀ k, key = some k → Claim.SecEnds s who r stOk (s.installKey r.pn r.keyid (fitBytes 32 k)))))))) ∧
    (r.op = 4 → tabFind s.sec.tokens r.pn = none → Claim.SecEnds s who r stOk ((s.bumpSlot r.pn r.keyid).setKeySlot r.pn r.keyid .empty))

/-- TOKEN_INSTALL, TOKEN_REVOKE and the lapse of a token (R385, R386): the refusals in order; a token replaces the earlier one of
its partition; a lapse raises an event of the partition. -/
def Sys2Proof.Claim.TraceTokens : Prop :=
  (∀ (s : State) (who : Nat) (r : SecRun) (a : List Byte), Claim.Serving s who r → Claim.Permitted s who r → r.arg = some a →
    let w := wordAt a
    let iv : List Byte := List.replicate 4 0xFF ++ (cut a 24 8).reverse
    let made := bits (w 0) 32 32 = 0x54524354 ∧ bits (w 0) 24 8 = 1 ∧ bits (w 0) 13 11 = r.pn ∧ bit (w 0) 0 = false ∧
      w 8 = Config.idn.toNat ∧ bits (w 16) 0 4 = 0 ∧ w 32 = 0 ∧ w 40 = 0
    (r.op = 6 →
      (¬made → Claim.SecEnds s who r stArg s) ∧
      (made → bits (w 0) 5 8 ≠ s.epoch r.pn → Claim.SecEnds s who r stEpoch s) ∧
      (made → bits (w 0) 5 8 = s.epoch r.pn →
        (bits (w 16) 4 60 ≤ s.time.tick ∨ w 24 < tabGet 0 s.sec.serials r.pn → Claim.SecEnds s who r stRange s) ∧
        (s.time.tick < bits (w 16) 4 60 → tabGet 0 s.sec.serials r.pn ≤ w 24 →
          (s.keyLoaded r.pn (bits (w 0) 1 4) = false → Claim.SecEnds s who r stState s) ∧
          (∀ key, s.keySlot r.pn (bits (w 0) 1 4) = .loaded key →
            let tag := gcmOpen key iv (a.take 48) [] (cut a 48 16)
            (tag = none → Claim.SecEnds s who r stAuth (s.count SEC_AUTHFAIL 1)) ∧
            (tag ≠ none → 64 ≤ s.sec.tokens.length → tabFind s.sec.tokens r.pn = none → Claim.SecEnds s who r stNospace s) ∧
            (tag ≠ none → s.sec.tokens.length < 64 ∨ tabFind s.sec.tokens r.pn ≠ none →
              let tokens := tabIns s.sec.tokens r.pn { epoch := s.epoch r.pn, body := a.take 64 }
              Claim.SecEnds s who r stOk ((s.withSec
                { s.sec with serials := tabPut 0 s.sec.serials r.pn (w 24 + 1), tokens := tokens }).wr SEC_TOKENS
                  tokens.length)))))) ∧
    (r.op = 7 → tabFind s.sec.tokens r.pn = none → Claim.SecEnds s who r stState s) ∧
    (r.op = 7 → tabFind s.sec.tokens r.pn ≠ none → Claim.SecEnds s who r stOk (s.lapse r.pn))) ∧
  (∀ (s : State) (pn : Pn), s.up →
    (tabFind s.sec.tokens pn = none → exec (.tokenLapse pn) s = .next s) ∧
    (∀ t, tabFind s.sec.tokens pn = some t →
      (s.time.tick ≤ bits (wordAt t.body 16) 4 60 → t.epoch = s.epoch pn → s.keyLoaded pn t.keyid = true →
        exec (.tokenLapse pn) s = .next s) ∧
      (bits (wordAt t.body 16) 4 60 < s.time.tick ∨ t.epoch ≠ s.epoch pn ∨ s.keyLoaded pn t.keyid = false →
        exec (.tokenLapse pn) s = .next (s.lapse pn))) ∧
    (tabSorted s.sec.tokens = true → tabFind (s.lapse pn).sec.tokens pn = none) ∧
    (s.canonical = true → tabFind s.sec.tokens pn ≠ none → ∀ pp : PairNo,
      s.fbit (PAI_TRC_CTL pp) 31 = true → s.fget (PAI_TRC_CTL pp) 0 11 = pn.val →
        (s.lapse pn).fbit (PAI_TRC_CTL pp) 31 = false ∧ (s.lapse pn).fget (PAI_TRC_ST pp) 0 8 = stAuth))

/-- Identity, certificate and minimum SVNs (R363, R367, R370, R372): ID_READ writes the identity block, CERT_INSTALL refuses a
certificate of another key or serial, SVN_COMMIT never lowers a minimum; whether a write of CERT_INSTALL or SVN_COMMIT fails (ST_WEAR) is free (assumption 2). -/
def Sys2Proof.Claim.IdentityCommands : Prop :=
  ∀ (s : State) (who : Nat) (r : SecRun) (a : List Byte), Claim.Serving s who r → Claim.Permitted s who r → r.arg = some a →
    (r.op = 16 →
      s.idBlock.length = 144 + s.nvs.cert.length ∧
      (∀ ps, s.secArea who 60 r.out s.idBlock.length = some ps → Claim.SecEnds s who r stOk (s.writeParts ps s.idBlock))) ∧
    (r.op = 17 →
      let n := wordAt a 0
      let good := n ≠ 0 ∧ n ≤ 2048 ∧ certParts (cut a 8 n) = some (Config.idn.toNat, s.identPub)
      (¬good → Claim.SecEnds s who r stArg s) ∧
      (good → Claim.SecTries s who r (fun u => ((u.withNvs { u.nvs with cert := cut a 8 n }).wearControl).fset SEC_LC 9 1 1))) ∧
    (r.op = 18 → s.rngFail = false → 
      let c := (s.randomBytes 32).1
      ∃ u : State, u.sec.challenge = some c ∧ u.regs = s.regs ∧ u.hbm = s.hbm ∧
      ∀ ps, s.secArea who 60 r.out 32 = some ps → Claim.SecEnds s who r stOk (u.writeParts ps c)) ∧
    (r.op = 20 →
      let raises := ∃ i : Fin 3, s.fget SEC_SVN (6 * (i + 1)) 6 < s.sec.svns.getD i 0
      (¬raises → Claim.SecEnds s who r stOk s) ∧ (raises → Claim.SecTries s who r (fun u => u.raiseSvns)) ∧
      (s.canonical = true → ∀ i : Fin 3, s.sec.svns.getD i 0 < 64 →
        s.raiseSvns.fget SEC_SVN (6 * (i + 1)) 6 = max (s.fget SEC_SVN (6 * (i + 1)) 6) (s.sec.svns.getD i 0)))

/-- ATTEST (R370, R384): a report of 432 bytes, of 560 with the partition block; SCOPE 1 of a FREE partition is refused. -/
def Sys2Proof.Claim.Attestation : Prop :=
  ∀ (s : State) (who : Nat) (r : SecRun) (a : List Byte), Claim.Serving s who r → Claim.Permitted s who r → r.arg = some a →
    r.op = 5 → s.rngFail = false →
    (who = 0 → r.scope = true → s.pstate r.pn = 0 → Claim.SecEnds s who r stState s) ∧
    (who ≠ 0 ∨ r.scope = false ∨ s.pstate r.pn ≠ 0 →
      let n := if who = 0 ∧ r.scope = false then 432 else 560
      ∃ (out : List Byte) (u : State), out.length = n ∧ u.regs = s.regs ∧ u.hbm = s.hbm ∧ { u.sec with drbg := s.sec.drbg } = s.sec ∧
        ∀ ps, s.secArea who 60 r.out n = some ps → Claim.SecEnds s who r stOk (u.writeParts ps out))

/-- LC_ADVANCE performs the transitions of R360 and no others: each one's requirement, what it clears, the challenge consumed,
and the hold until PORn (R360, R361); whether the fuses that BLANK to MANUFACTURE requires have been programmed is free (assumption 66). -/
def Sys2Proof.Claim.LifeCycle : Prop :=
  ∀ (s : State) (r : SecRun) (a : List Byte), Claim.Serving s 0 r → Claim.Permitted s 0 r → r.arg = some a → r.op = 19 →
    let spent := s.withSec { s.sec with challenge := none }
    (s.lcs = 0 → r.tgt = 1 →
      let u := s.withFree (s.free + 1)
      (Config.freeBool s.free = true → Claim.SecEnds s 0 r stOk (u.advanceTo 1)) ∧
      (Config.freeBool s.free = false → Claim.SecEnds s 0 r stState u)) ∧
    ((s.lcs, r.tgt) ∉ [(0, 1), (1, 2), (2, 3), (3, 4), (3, 5), (4, 5)] → Claim.SecEnds s 0 r stState s) ∧
    (s.lcs = 1 → r.tgt = 2 →
      (s.rngFail = true → Claim.SecEnds s 0 r stDown s) ∧
      (s.rngFail = false → s.authOk a 2 = false → Claim.SecEnds s 0 r stAuth (spent.count SEC_AUTHFAIL 1)) ∧
      (s.rngFail = false → s.authOk a 2 = true → 
        let k := spent.randomScalar
        k.1.length = 48 ∧ Claim.SecEnds s 0 r stOk (((k.2.withSec { k.2.sec with ident := some k.1 }).fset SEC_LC 8 1 1).advanceTo 2))) ∧
    (s.lcs = 2 → r.tgt = 3 →
      (s.fbit SEC_LC 9 = false → Claim.SecEnds s 0 r stState s) ∧
      (s.fbit SEC_LC 9 = true → Claim.SecEnds s 0 r stOk (s.advanceTo 3))) ∧
    (s.lcs = 3 → r.tgt = 4 →
      (s.authOk a 4 = false → Claim.SecEnds s 0 r stAuth (spent.count SEC_AUTHFAIL 1)) ∧
      (s.authOk a 4 = true → (∃ pn : Pn, s.pstate pn ≠ 0) → Claim.SecEnds s 0 r stState spent) ∧
      (s.authOk a 4 = true → (∀ pn : Pn, s.pstate pn = 0) → Claim.SecEnds s 0 r stOk (spent.clearSecrets.advanceTo 4))) ∧
    (s.lcs = 3 ∨ s.lcs = 4 → r.tgt = 5 →
      (r.confirm ≠ 0x5C → Claim.SecEnds s 0 r stState s) ∧
      (r.confirm = 0x5C → s.canonical = true → ∃ t, exec .secCommandDone s = .next t ∧ t.lcs = 5 ∧ t.hold = some .lifeCycle ∧ t.sec.runs = [] ∧
        t.sec.keys = [] ∧ t.sec.kek = [])) ∧
    (∀ n : Nat, n < 16 → s.canonical = true → (s.advanceTo n).lcs = n ∧ (s.advanceTo n).hold = some .lifeCycle)

/-- The order of service (R368): the manager first, but one partition after each manager command; partitions in ascending order
after the one served last. -/
def Sys2Proof.Claim.ServiceOrder : Prop :=
  ∀ x : SecSt, tabSorted x.runs = true →
    (x.runs = [] → x.next = none) ∧
    ((tabFind x.runs 0).isSome = true → x.afterMgr = false ∨ (∀ e ∈ x.runs, e.1 = 0) → x.next = some 0) ∧
    (∀ i : Nat, x.next = some i → (tabFind x.runs i).isSome = true ∧
      (i ≠ 0 → x.lastPn + 1 < i → ∀ e ∈ x.runs, e.1 = 0 ∨ e.1 ≤ x.lastPn + 1 ∨ i ≤ e.1) ∧
      (i ≠ 0 → i ≤ x.lastPn + 1 → ∀ e ∈ x.runs, e.1 = 0 ∨ (e.1 ≤ x.lastPn + 1 ∧ i ≤ e.1)))

/-- RNG_HEALTH_FAILURE sets SEC_RNG.FAIL (R375); nothing is done where no command is served. -/
def Sys2Proof.Claim.RngFailure : Prop :=
  ∀ s : State, s.up →
    exec .rngHealthFailure s = .next (s.fset SEC_RNG 1 1 1) ∧
    (s.sec.serving = none → exec .secCommandDone s = .next s)

/-- The security controller's service: SecCommands, SecRefusals, ServiceOrder, RngFailure. -/
def Sys2Proof.Claim.SecurityService : Prop :=
  Claim.SecCommands ∧ Claim.SecRefusals ∧ Claim.ServiceOrder ∧ Claim.RngFailure
/-- What security commands do: KeyCommands, TraceTokens, IdentityCommands, Attestation. -/
def Obligations.SecurityCommands : Prop :=
  Claim.KeyCommands ∧ Claim.TraceTokens ∧ Claim.IdentityCommands ∧ Claim.Attestation
/-- The life cycle. -/
def Sys2Proof.Claim.LifeCycleTransitions : Prop := Claim.LifeCycle

/-! ## Partitions -/

/-- Command `c` is the partition command of an OP (R392). -/
def Sys2Proof.Claim.PrtIs (pn : Pn) (op : Nat) (c : Instr) : Prop :=
  (op = 1 ∧ c = .create pn) ∨ (op = 2 ∧ c = .run pn) ∨ (op = 3 ∧ c = .quiesce pn) ∨ (op = 4 ∧ c = .reset pn) ∨
  (op = 5 ∧ c = .remove pn) ∨ (op = 6 ∧ c = .pgAssign pn) ∨ (op = 7 ∧ c = .pgRelease pn) ∨ (op = 8 ∧ c = .tlbinv pn)

/-- A partition command is refused with a status: the command ends with its event, and nothing else changes (R393, R459). -/
def Sys2Proof.Claim.PrtRefuses (s : State) (pn : Pn) (op st : Nat) : Prop :=
  ∀ c, Claim.PrtIs pn op c → exec c s = .next ((s.fset (PRT_CMD_ST pn) 0 8 st).partEnded pn)

/-- A partition command is accepted and leaves `t`: it is BUSY until PARTITION_COMMAND_DONE. -/
def Sys2Proof.Claim.PrtTakes (s : State) (pn : Pn) (op : Nat) (t : State) : Prop :=
  let u := t.fset (PRT_CMD_ST pn) 16 1 1
  ∀ c, Claim.PrtIs pn op c → exec c s = .next (u.setPart pn { u.part pn with cmd := some (op, s.rd (PRT_ARG pn)) })

/-- No command and no function-level reset of a partition runs. -/
def Sys2Proof.Claim.PrtIdle (s : State) (pn : Pn) : Prop :=
  s.up ∧ s.fbit (PRT_CMD_ST pn) 16 = false ∧ (s.part pn).flr = 0

/-- Partition commands: ST_BUSY, and the states, of the partition and of the life cycle, that permit each (R359, R392, R393, R410). -/
def Sys2Proof.Claim.PartitionStates : Prop :=
  ∀ (s : State) (pn : Pn) (op : Nat), 1 ≤ op → op ≤ 8 → s.up →
    (s.fbit (PRT_CMD_ST pn) 16 = true ∨ (s.part pn).flr ≠ 0 → Claim.PrtRefuses s pn op stBusy) ∧
    (Claim.PrtIdle s pn →
      (s.lcs ∉ [1, 3, 4] → Claim.PrtRefuses s pn op stState) ∧
      (op = 1 → s.pstate pn ≠ 0 → Claim.PrtRefuses s pn op stState) ∧
      (op = 3 → s.pstate pn ≠ 2 → Claim.PrtRefuses s pn op stState) ∧
      (op ∈ [2, 4, 5] → s.pstate pn ≠ 1 → Claim.PrtRefuses s pn op stState) ∧
      (op ∈ [6, 7, 8] → s.pstate pn ≠ 1 → s.pstate pn ≠ 2 → Claim.PrtRefuses s pn op stState))

/-- CREATE, RUN, QUIESCE, RESET and REMOVE: what each does as it starts, and the conditions of RUN and REMOVE (R391 to R396). -/
def Sys2Proof.Claim.PartitionLife : Prop :=
  ∀ (s : State) (pn : Pn), Claim.PrtIdle s pn → s.lcs ∈ [1, 3, 4] →
    (s.pstate pn = 0 → Claim.PrtTakes s pn 1 (s.fset (PRT_STATE pn) 8 8 (s.epoch pn + 1))) ∧
    (s.pstate pn = 2 → Claim.PrtTakes s pn 3 (s.quiesce pn)) ∧
    (s.pstate pn = 1 →
      let t := s.pageTable pn
      let short := s.fget (PRT_QSD pn) 0 16 = 0 ∨ s.fget (PRT_QRD pn) 0 16 = 0 ∨ s.fget (PRT_QHBM pn) 0 16 = 0 ∨ s.fget (PRT_QCW pn) 0 11 = 0
      (short → Claim.PrtRefuses s pn 2 stState) ∧
      (¬short → hbmSize < t.1 + t.2 → Claim.PrtRefuses s pn 2 stRange) ∧
      (¬short → t.1 + t.2 ≤ hbmSize → s.unassigned t.1 t.2 = false → Claim.PrtRefuses s pn 2 stPerm) ∧
      (¬short → t.1 + t.2 ≤ hbmSize → s.unassigned t.1 t.2 = true → Claim.PrtTakes s pn 2 s) ∧
      Claim.PrtTakes s pn 4 (s.resetSteps pn) ∧
      (s.holdsOn pn = true → Claim.PrtRefuses s pn 5 stState) ∧
      (s.holdsOn pn = false → Claim.PrtTakes s pn 5 (s.resetSteps pn)))

/-- PG_ASSIGN, PG_RELEASE and TLBINV (R399 to R401): a page has at most one owner, none owned by another partition or in a device
area is assigned, a released page has no owner and holds zeros. -/
def Sys2Proof.Claim.PageCommands : Prop :=
  ∀ (s : State) (pn : Pn), Claim.PrtIdle s pn → s.lcs ∈ [1, 3, 4] → s.pstate pn = 1 ∨ s.pstate pn = 2 →
    let arg := s.rd (PRT_ARG pn)
    let f := argFirst arg
    let l := argLast arg
    let foreign := (∃ e ∈ s.owners, f ≤ e.1 ∧ e.1 ≤ l ∧ e.2 ≠ pn.val) ∨ ∃ a ∈ s.deviceAreas, rangesMeet a (pageBytes f l) = true
    let ring := ∃ r, s.ringOf pn = some r ∧ rangesMeet r (pageBytes f l) = true
    (l < f → Claim.PrtRefuses s pn 6 stArg ∧ Claim.PrtRefuses s pn 7 stArg ∧ Claim.PrtRefuses s pn 8 stArg) ∧
    (f ≤ l →
      (foreign → Claim.PrtRefuses s pn 6 stConflict) ∧
      (¬foreign → ∃ u : State, Claim.PrtTakes s pn 6 u ∧ u.regs = s.regs ∧ u.hbm = s.hbm ∧
        (∀ p : Nat, f ≤ p → p ≤ l → u.owner p = some pn.val) ∧ ∀ p : Nat, p < f ∨ l < p → u.owner p = s.owner p) ∧
      (ring → Claim.PrtRefuses s pn 7 stConflict) ∧
      (¬ring → (∃ p, f ≤ p ∧ p ≤ l ∧ s.owner p ≠ some pn.val) → Claim.PrtRefuses s pn 7 stPerm) ∧
      (¬ring → (∀ p, f ≤ p → p ≤ l → s.owner p = some pn.val) → Claim.PrtTakes s pn 7 (s.releasePages f l)) ∧
      Claim.PrtTakes s pn 8 (s.tlbinv pn arg)) ∧
    (tabSorted s.owners = true → Memory.wf s.hbm = true → (∀ p, f ≤ p → p ≤ l → (s.releasePages f l).owner p = none) ∧
      (∀ p, p < f ∨ l < p → (s.releasePages f l).owner p = s.owner p) ∧
      (∀ a, f * 0x200000 ≤ a → a < (l + 1) * 0x200000 → (s.releasePages f l).hbmByte a = 0) ∧
      (∀ a, a < f * 0x200000 ∨ (l + 1) * 0x200000 ≤ a → f ≤ l → (s.releasePages f l).hbmByte a = s.hbmByte a))

/-- PARTITION_COMMAND_DONE (R391, R393, R394, R396): CREATE leaves QUIESCED with a cleared window, REMOVE leaves FREE; a RUN that has not
taken effect and a QUIESCE that has not come to rest go on. -/
def Sys2Proof.Claim.PartitionEnds : Prop :=
  ∀ (s : State) (pn : Pn) (arg : Nat), s.up → (s.part pn).flr = 0 →
    let running (op : Nat) : Prop := (s.part pn).cmd = some (op, arg)
    let done := exec (.partitionCommandDone pn) s
    ((s.part pn).cmd = none → done = .next s) ∧
    (running 1 → done = .next (((s.clearWindow pn).setPstate pn 1).prtEnds pn stOk)) ∧
    (running 2 → s.pstate pn ≠ 2 → done = .next s) ∧
    (running 2 → s.pstate pn = 2 → done = .next (s.prtEnds pn stOk)) ∧
    (running 3 → (s.preemptAll pn).quiet pn = false → done = .next (s.preemptAll pn)) ∧
    (running 3 → (s.preemptAll pn).quiet pn = true → done = .next (((s.preemptAll pn).quiesced pn).prtEnds pn stOk)) ∧
    (running 5 → done = .next ((s.removed pn).prtEnds pn stOk)) ∧
    (running 4 ∨ running 6 ∨ running 7 ∨ running 8 → done = .next (s.prtEnds pn stOk)) ∧
    (∀ st : Nat, st < 256 → tabSorted s.parts = true → (s.prtEnds pn st).part pn = { s.part pn with cmd := none } ∧
      (s.canonical = true → (s.prtEnds pn st).fbit (PRT_CMD_ST pn) 16 = false ∧ (s.prtEnds pn st).fget (PRT_CMD_ST pn) 0 8 = st ∧
        (s.prtEnds pn st).fbit MGT_EVT 1 = true))

/-- Shares (R403, R404, R406, R415): reserved values, zeros outside QUIESCED and a full class 0 are refused; an epoch takes the shares of a
RUNNING partition and lets a waiting RUN take effect. -/
def Sys2Proof.Claim.Shares : Prop :=
  ∀ (s : State) (pn : Pn) (reg : ShareReg) (v : BitVec 32), s.up →
    let x := v.toNat
    let write := exec (.shareWrite pn reg v) s
    let last (t : State) (st : Nat) := t.fset (PRT_CMD_ST pn) 8 8 st
    let full := reg = .qhbm ∧ bits x 28 2 = 0 ∧ 8 < s.classZero pn + bits x 16 8
    (shareReserved x reg = true → write = .next ((last s stArg).errLog stArg srcPrt (some pn) (shareOff pn reg))) ∧
    (shareReserved x reg = false →
      (shareZero x reg = true → s.pstate pn ≠ 1 → write = .next (last s stState)) ∧
      (shareZero x reg = false ∨ s.pstate pn = 1 →
        (full → write = .next (last s stNospace)) ∧
        (¬full → write = .next (last (s.wr (shareOff pn reg) (shareBits x reg)) stOk)))) ∧
    (s.pstate pn = 2 → (s.epochOf pn).part pn =
      { s.part pn with
        qsd := s.rd (PRT_QSD pn), qrd := s.rd (PRT_QRD pn), qhbm := s.rd (PRT_QHBM pn), qcw := s.rd (PRT_QCW pn), inArb := true }) ∧
    (s.pstate pn ≠ 2 → s.pstate pn ≠ 1 ∨ (s.part pn).cmd.map (·.1) ≠ some 2 →
      s.epochOf pn = s.setPart pn { s.part pn with inArb := false }) ∧
    (s.canonical = true → s.pstate pn = 1 → (s.part pn).cmd.map (·.1) = some 2 →
      (s.epochOf pn).pstate pn = 2 ∧ (s.epochOf pn).fbit (PRT_EVT pn) 6 = true ∧ ((s.epochOf pn).part pn).inArb = true) ∧
    exec .arbitrationEpoch s = .next (s.livePns.foldl (fun (t : State) q => t.epochOf q) (s.withArb { s.arb with epochs := s.arb.epochs + 1 }))

/-- The staging words of a partition through its VF (R390, R410, R415): an access uses the word IDX and advances IDX modulo 128; a closed VF answers
all ones. -/
def Sys2Proof.Claim.StagingWords : Prop :=
  ∀ (s : State) (pn : Pn) (v : BitVec 32), s.up →
    let idx := s.fget (PRT_STAGE_IDX pn) 0 7
    let p := s.part pn
    (s.vfOpen pn = false → exec (.stageDataAccess pn (some v)) s = .next s ∧
      exec (.stageDataAccess pn none) s = .next (s.emit (.regData 0xFFFFFFFF))) ∧
    (s.vfOpen pn = true → s.pstate pn = 0 →
      exec (.stageDataAccess pn (some v)) s = .next (s.errLog stState srcHost (some pn) 0x70) ∧
      exec (.stageDataAccess pn none) s = .next ((s.emit (.regData 0xFFFFFFFF)).errLog stState srcHost (some pn) 0x70)) ∧
    (s.vfOpen pn = true → s.pstate pn ≠ 0 →
      exec (.stageDataAccess pn (some v)) s = .next
        ((s.setPart pn { p with stage := tabPut 0 p.stage idx v }).wr (PRT_STAGE_IDX pn) ((idx + 1) % 128)) ∧
      exec (.stageDataAccess pn none) s = .next
        ((s.emit (.regData (tabGet 0 p.stage idx))).wr (PRT_STAGE_IDX pn) ((idx + 1) % 128)))

/-- Function-level resets (R410, R411): the configuration of the VF resets; a FREE partition stays FREE, a RUNNING one quiesces, a QUIESCED
one resets; the PF's resets every partition that is not FREE and VF Enable. -/
def Sys2Proof.Claim.FunctionResets : Prop :=
  ∀ (s : State) (pn : Pn), s.up →
    let c := s.vfConfigReset pn
    let mark (t : State) (n : Nat) := t.setPart pn { t.part pn with flr := n }
    (c.part pn = { s.part pn with msixEn := false, fmask := false, busMaster := false, tbl := [], pba := 0 }) ∧
    ((s.part pn).flr ≠ 0 ∨ s.pstate pn = 0 → exec (.vfFlr pn) s = .next c) ∧
    ((s.part pn).flr = 0 →
      (s.pstate pn = 2 → exec (.vfFlr pn) s = .next (mark ((c.quiesce pn).fset (PRT_STATE pn) 7 1 1) 1)) ∧
      (s.pstate pn = 3 → exec (.vfFlr pn) s = .next (mark (c.fset (PRT_STATE pn) 7 1 1) 1)) ∧
      (s.pstate pn = 1 →
        ((s.part pn).cmd = none → exec (.vfFlr pn) s = .next (mark (c.resetSteps pn) 2)) ∧
        (∀ arg, (s.part pn).cmd = some (2, arg) → exec (.vfFlr pn) s = .next (mark ((c.prtEnds pn stState).resetSteps pn) 2)) ∧
        (∀ op arg, (s.part pn).cmd = some (op, arg) → op = 4 ∨ op = 5 → exec (.vfFlr pn) s = .next (mark c 2)))) ∧
    ((s.part pn).flr = 2 → (s.part pn).cmd = none → exec (.partitionCommandDone pn) s = .next ((mark s 0).partEnded pn)) ∧
    ((s.part pn).flr = 1 → (s.preemptAll pn).quiet pn = false →
      exec (.partitionCommandDone pn) s = .next (s.preemptAll pn)) ∧
    (∃ t, exec .pfFlr s = .next t ∧ t.pf.vfEnable = false ∧ t.pf.tbl = [] ∧ t.pf.pba = 0 ∧
      (s.livePns = [] → t = s.withPf { s.pf with vfEnable := false, tbl := [], pba := 0 }))

/-- A reset of a partition raises its epoch and voids what the old one held (R371, R377, R395). -/
def Sys2Proof.Claim.PartitionReset : Prop :=
  ∀ (s : State) (pn : Pn), tabSorted s.parts = true →
    ((s.resetSteps pn).part pn).stage = [] ∧ ((s.resetSteps pn).part pn).tmr = [] ∧ ((s.resetSteps pn).part pn).cmr = [] ∧
    ((s.resetSteps pn).part pn).pba = 0 ∧
    (s.canonical = true → (s.resetSteps pn).epoch pn = (s.epoch pn + 1) % 256 ∧
      ∀ r ∈ resetRegs395 pn, (s.resetSteps pn).rd r = 0)

/-- Partition commands: PartitionStates, PartitionLife, PartitionEnds. -/
def Sys2Proof.Claim.PartitionCommands : Prop := Claim.PartitionStates ∧ Claim.PartitionLife ∧ Claim.PartitionEnds
/-- Page ownership. -/
def Sys2Proof.Claim.PageOwnership : Prop := Claim.PageCommands
/-- Shares and staging words. -/
def Sys2Proof.Claim.PartitionShares : Prop := Claim.Shares ∧ Claim.StagingWords
/-- Resets of a partition: FunctionResets, PartitionReset. -/
def Sys2Proof.Claim.PartitionResets : Prop := Claim.FunctionResets ∧ Claim.PartitionReset

/-! ## Resets, boot, mailbox, settings store, SMBus -/

/-- A mailbox command is refused with a status: it ends with event MBX (R457). -/
def Sys2Proof.Claim.MbxRefuses (s : State) (c : Instr) (st : Nat) : Prop :=
  exec c s = .next (((s.wr MGT_MBX_ST st).fset MGT_ST 0 8 st).mgrEvent 5)

/-- A mailbox command is accepted and leaves `t`: BUSY until MAILBOX_COMMAND_DONE reports ST_OK (R457). -/
def Sys2Proof.Claim.MbxTakes (s : State) (c : Instr) (t : State) : Prop :=
  exec c s = .next (((t.wr MGT_MBX_ST 0x100).withMgmt { t.mgmt with mbxSt := stOk }).fset MGT_ST 0 8 stOk)

/-- A mailbox command is accepted, and whether it succeeds is free: it leaves `f` of the state, or reports `st` with nothing done. -/
def Sys2Proof.Claim.MbxTries (s : State) (c : Instr) (st : Nat) (f : State → State) : Prop :=
  let u := ((s.wr MGT_MBX_ST 0x100).withMgmt { s.mgmt with mbxSt := stOk }).fset MGT_ST 0 8 stOk
  let v := u.withFree (s.free + 1)
  exec c s = .next (if Config.freeBool s.free then f v else v.withMgmt { v.mgmt with mbxSt := st })

/-- The mailbox commands and their refusals; the value of a TIMESET loads the tick that begins next after its completion (R40, R445,
R447, R457, R458). -/
def Sys2Proof.Claim.MailboxCommands : Prop :=
  ∀ (s : State) (p : BitVec 8) (b : BootInput), s.up →
    (s.fbit MGT_MBX_ST 8 = true → ∀ c ∈ [Instr.timeset p, .warmReset p b, .cluReset p, .pairReset p, .flashErase p, .flashWrite p, .bootSelect p, .logClear p, .retiredClear p],
      exec c s = .next (s.fset MGT_ST 0 8 stBusy)) ∧
    (s.fbit MGT_MBX_ST 8 = true →
      let done (u : State) := let t := (u.wr MGT_MBX_ST s.mgmt.mbxSt).mgrEvent 5; t.withMgmt { t.mgmt with mbxCl := none }
      (s.time.setV = none → exec .mailboxCommandDone s = .next (done s)) ∧
      (s.time.setV ≠ none → s.tstate = 0 → exec .mailboxCommandDone s = .next (done (s.withTime { s.time with setV := none }))) ∧
      (∀ x, s.time.setV = some x → s.tstate ≠ 0 →
        exec .mailboxCommandDone s = .next (done (s.withTime { s.time with setV := none, loads := s.time.loads ++ [(1, x, true)] })))) ∧
    (s.fbit MGT_MBX_ST 8 = false → exec .mailboxCommandDone s = .next s) ∧
    (s.fbit MGT_MBX_ST 8 = false →
      let arg := s.rd64 MGT_MBX_ARG_LO
      let a := s.rd MGT_MBX_ARG2
      let n := 256 * p.toNat
      (s.tstate ≠ 1 → Claim.MbxRefuses s (.timeset p) stState) ∧
      (s.tstate = 1 → p ≠ 0 ∨ 2 ^ 60 ≤ arg → Claim.MbxRefuses s (.timeset p) stArg) ∧
      (p = 0 → arg < 2 ^ 60 → s.tstate = 1 → Claim.MbxTakes s (.timeset p)
        (s.withTime { s.time with setV := some arg })) ∧
      (p ≠ 0 ∨ arg ≠ 0xA5A5 → Claim.MbxRefuses s (.warmReset p b) stArg) ∧
      (p = 0 → arg = 0xA5A5 → exec (.warmReset p b) s = .next (s.warm 3 b)) ∧
      (p ≠ 0 ∨ a % 65536 ≠ 0 ∨ flashSize ≤ a → Claim.MbxRefuses s (.flashErase p) stArg) ∧
      (p = 0 → a % 65536 = 0 → a < flashSize →
        (s.inBootedSlot a 65536 = true → Claim.MbxRefuses s (.flashErase p) stPerm) ∧
        (s.inBootedSlot a 65536 = false → Claim.MbxTries s (.flashErase p) stTimeout (fun u => u.flashErase a))) ∧
      (p = 0 ∨ a % 256 ≠ 0 ∨ arg % 256 ≠ 0 ∨ flashSize < a + n ∨ hbmSize < arg + n → Claim.MbxRefuses s (.flashWrite p) stArg) ∧
      (p ≠ 0 → a % 256 = 0 → arg % 256 = 0 → a + n ≤ flashSize → arg + n ≤ hbmSize →
        let keys := rangesMeet (s.rd64 SEC_KTAB_LO, 0x200000) (arg, n)
        (s.inBootedSlot a n = true ∨ s.unassigned arg n = false ∨ keys = true → Claim.MbxRefuses s (.flashWrite p) stPerm) ∧
        (s.inBootedSlot a n = false → s.unassigned arg n = true → keys = false →
          Claim.MbxTries s (.flashWrite p) stTimeout (fun u => u.flashProgram a (s.hbmRead arg n)))) ∧
      (p = 0 ∨ 3 < p.toNat ∨ 1 < arg → Claim.MbxRefuses s (.bootSelect p) stArg) ∧
      (p ≠ 0 → p.toNat ≤ 3 → arg ≤ 1 → Claim.MbxTries s (.bootSelect p) stWear
        (fun u => (u.withNvs { s.nvs with pref := putBits s.nvs.pref (p.toNat - 1) 1 arg }).wearControl)) ∧
      (p ≠ 0 → Claim.MbxRefuses s (.logClear p) stArg ∧ Claim.MbxRefuses s (.retiredClear p) stArg) ∧
      (p = 0 → Claim.MbxTakes s (.logClear p)
        (((s.withMgmt { s.mgmt with log := [], smbUnread := 0 }).wr MGT_LOG_CNT 0).fset MGT_FWEVT 0 1 0)) ∧
      (p = 0 → s.lcs ≠ 1 → s.lcs ≠ 4 → Claim.MbxRefuses s (.retiredClear p) stPerm) ∧
      (p = 0 → s.lcs = 1 ∨ s.lcs = 4 → Claim.MbxTakes s (.retiredClear p) (s.fset MGT_RETIRED 31 1 1)))

/-- CLU_RESET and PAIR_RESET (R445, R457): refused out of range, in takeover, failover or DOWN, and unless in service; a pair that is
reset leaves its window until its next switch, with an empty slice log. -/
def Sys2Proof.Claim.ClusterResets : Prop :=
  ∀ (s : State) (p : BitVec 8), s.up → s.fbit MGT_MBX_ST 8 = false →
    let n := p.toNat
    (8 ≤ n → Claim.MbxRefuses s (.cluReset p) stArg) ∧
    (n < 8 → s.fget (CLU_ST n) 8 2 ≠ 0 ∨ s.takeoverIn n = true → Claim.MbxRefuses s (.cluReset p) stState) ∧
    (n < 8 → s.fget (CLU_ST n) 8 2 = 0 → s.takeoverIn n = false → ∃ t, Claim.MbxTakes s (.cluReset p) t ∧
      t.mgmt.mbxCl = some n ∧ t.nvs = s.nvs ∧ t.time = s.time ∧ t.parts = s.parts ∧ t.owners = s.owners ∧ t.readout = s.readout) ∧
    (64 ≤ n → Claim.MbxRefuses s (.pairReset p) stArg) ∧
    (n < 64 → s.ppOf n = none → Claim.MbxRefuses s (.pairReset p) stState) ∧
    (∀ pp, n < 64 → s.ppOf n = some pp →
      (s.lpState n ≠ 0 → Claim.MbxRefuses s (.pairReset p) stState) ∧
      (s.lpState n = 0 → Claim.MbxTakes s (.pairReset p)
        ((s.resetPair n pp).withMgmt { (s.resetPair n pp).mgmt with mbxCl := some (n / 8) }))) ∧
    (∀ l pp : Nat, let u := s.resetPair l pp
      (u.lp l).cur = none ∧ (u.lp l).log = [] ∧ (u.lp l).closed = none ∧ (u.lp l).resetting = true ∧ (u.lp l).ctx = (s.lp l).ctx ∧
      (∀ m, m ≠ l → u.lp m = s.lp m) ∧ u.time = s.time ∧ u.readout = s.readout ∧ u.nvs = s.nvs)

/-- The mailbox: MailboxCommands, ClusterResets. -/
def Obligations.Mailbox : Prop := Claim.MailboxCommands ∧ Claim.ClusterResets

/-- A warm reset (R152, R442 to R444): its sources; ignored while a power-fail sequence runs; the streams are disabled, the waiting
creations closed and the L2s written back before it; what it keeps and what it resets. -/
def Sys2Proof.Claim.WarmReset : Prop :=
  (∀ (s : State) (p : BootInput), s.up →
    (s.readout.powerFail ≠ none → exec (.warmnAssert p) s = .next s) ∧
    (s.readout.powerFail = none →
      let u := ((s.enabledStreams.foldl (fun t n => t.disableStream n) s).closeCreations).flushL2s
      exec (.warmnAssert p) s = .next ((u.warmScope.fset MGT_ST 16 4 2).boot p (fun t => t.recoveryReport (u.rd SEC_SESSION) u.journalWords)) ∧
      u.creq = [])) ∧
  (∀ s : State, s.canonical = true →
    let t := s.warmScope
    (∀ pn : Pn, t.pstate pn = 0 ∧ t.epoch pn = s.epoch pn) ∧ t.tstate = 0 ∧ t.nvs = s.nvs ∧ t.hbm = [] ∧ t.test = none ∧
    t.mgmt.flash = s.mgmt.flash ∧ t.sec.mr = s.sec.mr ∧ t.sec.keys = [] ∧ t.sec.tokens = [] ∧ t.sec.kek = [] ∧ t.readout = State.reset.readout ∧
    (∀ off : Nat, 0x40000 ≤ off → off < 0x50000 → t.rd off = s.rd off) ∧
    t.rd SEC_SVN = s.rd SEC_SVN ∧ t.lcs = s.lcs ∧ t.rd BST_FAULT = s.rd BST_FAULT ∧
    (∀ l : Fin 64, s.lstate l = 7 → t.lstate l = 7) ∧ (∀ e : Fin 16, s.cmpState e = 4 → t.cmpState e = 4) ∧
    (∀ off : Nat, 0x180000 ≤ off → off < 0x200000 → t.rd off = (regReset off).toNat))

/-- Power-on reset and boot (R442, R446, R448): it acts in every hold, keeps the fuses, the settings store and the flash, and ends in
service or in a hold; without a readable flash the device stops with the boot-image fault of TYPE 1; in BLANK and SCRAPPED no image is
accepted (R359). -/
def Sys2Proof.Claim.PowerOnReset : Prop :=
  ∀ (s : State) (p : BootInput), ∃ t, exec (.powerOnReset p) s = .next t ∧ t = s.powerOn.boot p State.sealReport ∧
    (t.hold = none → t.fget MGT_ST 8 4 = 9) ∧
    (s.canonical = true → s.nvs.retired = [] →
      let u := s.powerOn
      u.pending = s.pending ∧ u.mgmt.flash = s.mgmt.flash ∧ u.nvs.cert = s.nvs.cert ∧ u.nvs.session = s.nvs.session ∧ u.hbm = [] ∧
      u.hold = none ∧ u.por = false ∧ u.lcs = s.lcs ∧ u.rd SEC_SVN = s.rd SEC_SVN ∧
      (p.faults = [] → s.lcs = 0 ∨ s.lcs = 5 → t.hold = some .lifeCycle) ∧
      (p.faults = [] → s.lcs ≠ 0 → s.lcs ≠ 5 → p.flashOk = false → t.hold = some .fault ∧ t.rd BST_FAULT = 0x80005010 ∧ t.mgmt.faultn = true))

/-- PCIE_FUNDAMENTAL_RESET: the configuration spaces take their reset values after a link-down and a function-level reset of the PF (R442). -/
def Sys2Proof.Claim.PcieReset : Prop :=
  ∀ s : State, s.up → ∃ t, exec .pcieFundamentalReset s = .next t ∧
    t.pf = { msixEn := false, fmask := false, busMaster := false, tbl := [], pba := 0, vfEnable := false, numVfs := 0 } ∧
    (∀ pn : Pn, (t.part pn).msixEn = false ∧ (t.part pn).tbl = [] ∧ (t.part pn).pba = 0 ∧ (t.part pn).busMaster = false)

/-- A STORE or RELOAD and the shadow (R452 to R454, R462). -/
def Sys2Proof.Claim.StoreAndShadow : Prop :=
  ∀ (s : State) (v : BitVec 32) (failed : Bool), s.up →
    let x := s.nvs
    let inactive := if s.fbit NVS_ST 16 then x.wearA else x.wearB
    let recs := (List.range (s.fget NVS_SHLEN 0 14)).map (fun i => tabGet 0 x.shadow i)
    let i := s.fget NVS_SHIDX 0 14
    let w := (tabGet 0 x.shadow i).toNat
    let seq := s.rd64 NVS_SEQ_LO + 1
    let ends (t : State) (st : Nat) := (((t.withNvs { t.nvs with cmd := none }).fset NVS_ST 8 1 0).fset NVS_ST 0 8 st).mgrEvent 6
    (s.fbit NVS_ST 8 = true → exec .store s = .next (s.fset NVS_ST 0 8 stBusy) ∧ exec .reload s = .next (s.fset NVS_ST 0 8 stBusy)) ∧
    (s.fbit NVS_ST 8 = false → 10 ^ 9 ≤ inactive → exec .store s = .next (s.fset NVS_ST 0 8 stWear)) ∧
    (s.fbit NVS_ST 8 = false → inactive < 10 ^ 9 → exec .store s = .next ((s.withNvs { x with cmd := some (true, recs) }).fset NVS_ST 8 1 1)) ∧
    (s.fbit NVS_ST 8 = false → exec .reload s = .next ((s.withNvs { x with cmd := some (false, []) }).fset NVS_ST 8 1 1)) ∧
    (x.cmd = none → exec (.nvsCommandDone failed) s = .next s) ∧
    (∀ rs, x.cmd = some (true, rs) → exec (.nvsCommandDone true) s = .next (ends (s.setInactive none) stWear) ∧
      exec (.nvsCommandDone false) s = .next (ends (s.storeSwitch rs) stOk) ∧
      (s.storeSwitch rs).nvs.ptr = some (!s.fbit NVS_ST 16, seq) ∧
      (s.fbit NVS_ST 16 = false → (s.storeSwitch rs).nvs.bankB = some (seq, rs) ∧ (s.storeSwitch rs).nvs.bankA = x.bankA) ∧
      (s.fbit NVS_ST 16 = true → (s.storeSwitch rs).nvs.bankA = some (seq, rs) ∧ (s.storeSwitch rs).nvs.bankB = x.bankB)) ∧
    (∀ rs, x.cmd = some (false, rs) → exec (.nvsCommandDone failed) s = .next (ends s.loadShadow stOk)) ∧
    (s.storing = true → ∀ hi, exec (.shadowWrite hi (some v)) s = .next (s.fset NVS_ST 0 8 stBusy)) ∧
    (s.storing = false →
      exec (.shadowWrite false (some v)) s = .next ((s.withNvs { x with shadow := tabPut 0 x.shadow i (BitVec.ofNat 64 (putBits w 0 32 v.toNat)) }).fset NVS_ST 0 8 stOk) ∧
      exec (.shadowWrite true (some v)) s = .next (((s.withNvs { x with shadow := tabPut 0 x.shadow i (BitVec.ofNat 64 (putBits w 32 32 v.toNat)) }).fset
        NVS_ST 0 8 stOk).wr NVS_SHIDX ((i + 1) % 15352))) ∧
    exec (.shadowWrite false none) s = .next (s.emit (.regData (BitVec.ofNat 32 (bits w 0 32)))) ∧
    exec (.shadowWrite true none) s = .next ((s.emit (.regData (BitVec.ofNat 32 (bits w 32 32)))).wr NVS_SHIDX ((i + 1) % 15352))

/-- The mount (R451): the bank that the pointer names, the other where that one is not valid, an empty image where none is; only the
first records nothing. -/
def Sys2Proof.Claim.Mount : Prop :=
  ∀ (s : State) (b : Bool) (q seq : Nat) (rs : List Word), s.canonical = true → seq < 2 ^ 64 → rs.length ≤ 15352 → s.nvs.ptr = some (b, q) → s.nvs.torn = false →
    let bank := if b then s.nvs.bankB else s.nvs.bankA
    let other := if b then s.nvs.bankA else s.nvs.bankB
    (bank = some (seq, rs) → s.mount.image = rs ∧ s.mount.rd64 NVS_SEQ_LO = seq ∧ s.mount.fbit NVS_ST 17 = false ∧ s.mount.mgmt.log = s.mgmt.log ∧
      s.mount.rd NVS_SHLEN = rs.length) ∧
    (bank = none → other = some (seq, rs) → s.mount.image = rs ∧ s.mount.fbit NVS_ST 17 = true) ∧
    (bank = none → other = none → s.mount.image = [] ∧ s.mount.fbit NVS_ST 17 = false)

/-- Resets and boot: WarmReset, PowerOnReset, PcieReset. -/
def Obligations.ResetsAndBoot : Prop := Claim.WarmReset ∧ Claim.PowerOnReset ∧ Claim.PcieReset
/-- The settings store: StoreAndShadow, Mount. -/
def Obligations.SettingsStore : Prop := Claim.StoreAndShadow ∧ Claim.Mount

/-- The SMBus port (R460): it answers in every hold; in the fault hold and in SCRAPPED only STATUS, FAULT, TEMP and IDENT; an unknown
command is not acknowledged and counts. -/
def Sys2Proof.Claim.SmbusPort : Prop :=
  ∀ (s : State) (code : BitVec 8) (data : BitVec 16) (b : BootInput),
    let nack := (s.count MGT_SMB_ERR 1).emit .smbusNack
    let word (v : Nat) := s.emit (.smbus (leBytes 2 v))
    let shut := s.hold = some .fault ∨ s.lcs = 5
    exec .status s = .next (word (s.lcs * 2 ^ 12 + s.fget MGT_ST 8 4 * 2 ^ 8 + s.fget BST_FAULT 31 1 * 2 ^ 7 + s.fget CHS_ST 16 1 * 2 ^ 6)) ∧
    (s.fbit BST_FAULT 31 = true → exec .fault s = .next (word (s.fget BST_FAULT 0 16))) ∧
    (s.fbit BST_FAULT 31 = false → exec .fault s = .next (word 0)) ∧
    exec .temp s = .next (word (s.fget MGT_TEMP 0 16)) ∧
    exec .ident s = .next (s.emit (.smbus (leBytes 8 Config.idn.toNat ++ leBytes 4 (s.feat 0) ++ leBytes 4 (s.feat 3)))) ∧
    (shut → ∀ c ∈ [Instr.tsensLo, .tsensHi, .power, .log, .smbusWarmReset data b], exec c s = .next nack) ∧
    (¬shut →
      (∃ bs, bs.length = 24 ∧ exec .tsensLo s = .next ((s.withFree (s.free + 1)).emit (.smbus bs)) ∧ exec .tsensHi s = exec .tsensLo s) ∧
      (∃ v, v < 2 ^ 16 ∧ exec .power s = .next ((s.withFree (s.free + 1)).emit (.smbus (leBytes 2 v)))) ∧
      (s.mgmt.smbUnread = 0 → exec .log s = .next (s.emit (.smbus []))) ∧
      (∀ a b, s.mgmt.smbUnread ≠ 0 → tabFind s.mgmt.log ((s.fget MGT_LOG_CNT 0 8 + 256 - s.mgmt.smbUnread) % 256) = some (a, b) →
        exec .log s = .next ((s.withMgmt { s.mgmt with smbUnread := s.mgmt.smbUnread - 1 }).emit
          (.smbus (leBytes 8 a.toNat ++ leBytes 8 b.toNat)))) ∧
      (data ≠ 0xA5A5 ∨ s.fbit MGT_SMB_CFG 8 = false → exec (.smbusWarmReset data b) s = .next nack) ∧
      (data = 0xA5A5 → s.fbit MGT_SMB_CFG 8 = true → s.hold = none →
        exec (.smbusWarmReset data b) s = .next ((s.emit (.smbus [])).warm 4 b))) ∧
    (code = 0 ∨ (9 ≤ code.toNat ∧ code ≠ 0x10) → exec (.smbusUnknownCommand code) s = .next nack) ∧
    exec .smbusClockTimeout s = .next s

/-- THERM is raised where MGT_TEMP reaches MGT_TALARM (R459); a Ridgepole message stands in the queue of its partition or of the firmware
(R160). -/
def Sys2Proof.Claim.ThermAndMessages : Prop :=
  ∀ (s : State) (tmax : BitVec 16) (pn : Pn), s.up →
    let alarm := sext 16 (s.fget MGT_TALARM 0 16)
    let old := sext 16 (s.fget MGT_TEMP 0 16)
    (old < alarm → alarm ≤ sext 16 tmax.toNat → s.canonical = true →
      exec (.therm tmax) s = .next ((s.wr MGT_TEMP tmax.toNat).mgrEvent 8) ∧
      ((s.wr MGT_TEMP tmax.toNat).mgrEvent 8).fbit MGT_EVT 8 = true) ∧
    (alarm ≤ old ∨ sext 16 tmax.toNat < alarm → exec (.therm tmax) s = .next (s.wr MGT_TEMP tmax.toNat)) ∧
    exec (.ridgepoleMessageArrival .firmware) s = .next (s.withMgmt { s.mgmt with fwMsgs := s.mgmt.fwMsgs + 1 }) ∧
    (∃ t, exec (.ridgepoleMessageArrival (.part pn)) s = .next t ∧ (t.part pn).msgs = (s.part pn).msgs + 1 ∧ t.hbm = s.hbm ∧ t.mgmt = s.mgmt)

/-! ## Host accesses -/

/-- A PF access to a register (R9, R32, R36): misaligned and reserved offsets, a gated block, a 64-bit access as two of 32 bits, lower
offset first; a register of a checker copy is refused with ST_STATE (R268). -/
def Sys2Proof.Claim.PfAccess : Prop :=
  ∀ (s : State) (off : BitVec 26) (v : BitVec 64), s.up →
    let o := off.toNat
    let x := v.toNat
    let src := (blockAt o).getD 0x13
    let write := exec (.registerWrite .pf off false v) s
    let read := exec (.readClear .pf off false) s
    (o % 4 ≠ 0 → write = .next (s.errLog stArg src none o) ∧ read = .next ((s.errLog stArg src none o).emit (.hostData (List.replicate 4 0xFF)))) ∧
    (o % 8 ≠ 0 → exec (.registerWrite .pf off true v) s = .next (s.errLog stArg src none o) ∧
      exec (.readClear .pf off true) s = .next ((s.errLog stArg src none o).emit (.hostData (List.replicate 8 0xFF)))) ∧
    (o % 8 = 0 → exec (.registerWrite .pf off true v) s = .next ((s.write32 .pf o (x % 2 ^ 32)).write32 .pf (o + 4) (x / 2 ^ 32))) ∧
    (o % 4 = 0 →
      write = .next (s.write32 .pf o (x % 2 ^ 32)) ∧
      (srcReg .pf o = none → srcMsix .pf o = none → write = .next (s.errLog stArg src none o) ∧ read = .next ((s.errLog stArg src none o).emit (.regData 0))) ∧
      (∀ r, srcReg .pf o = some r →
        (s.gated o = true → write = .next (s.errLog stDown src none o) ∧ read = .next ((s.errLog stDown src none o).emit (.regData 0xFFFFFFFF))) ∧
        (s.gated o = false → r.writable false = false → s.mgrCommand o (x % 2 ^ 32) = none → o < 0x2000000 → r.noAccess false = false → write = .next s) ∧
        (s.gated o = false → r.flds.any (fun f => f.reserved false (x % 2 ^ 32)) = true → r.writable false = true → r.noAccess false = false →
          s.checkerReg o = false → s.mgrCommand o (x % 2 ^ 32) = none → o < 0x2000000 → write = .next ((s.setLast o stArg).errLog stArg src none o)) ∧
        (s.gated o = false → r.writable false = true → r.noAccess false = false → s.checkerReg o = true →
          s.mgrCommand o (x % 2 ^ 32) = none → write = .next (s.setLast o stState)) ∧
        (s.gated o = false → r.writable false = true → r.flds.any (fun f => f.reserved false (x % 2 ^ 32)) = false → r.noAccess false = false →
          s.checkerReg o = false → crossReserved o (x % 2 ^ 32) = false → s.mgrCommand o (x % 2 ^ 32) = none → o < 0x2000000 → s.testing o = true → write = .next (s.setLast o stTesting))))

/-- What writes and reads do to fields by their access type (R7, R8): RW takes the value, RO keeps its own, W1C clears where 1 is
written, a read clears RC and shows WO as zero. -/
def Sys2Proof.Claim.AccessTypes : Prop :=
  (∀ (f : Fld) (part : Bool) (v acc : Nat),
    (f.view part = .rw ∨ f.view part = .wo → bits (f.put part v acc) f.lo f.w = bits v f.lo f.w) ∧
    (f.view part = .w1c → ∀ i, f.lo ≤ i → i < f.lo + f.w → bit (f.put part v acc) i = (bit acc i && !bit v i)) ∧
    (f.view part = .ro ∨ f.view part = .rc ∨ f.view part = .na → f.put part v acc = acc) ∧
    (∀ i, i < f.lo ∨ f.lo + f.w ≤ i → bit (f.put part v acc) i = bit acc i)) ∧
  (∀ s : State, s.up → s.canonical = true →
    (∀ v : BitVec 64, s.rd MGT_EVT < 512 → exec (.registerWrite .pf 0x20 false v) s =
      .next ((s.wr MGT_EVT (s.rd MGT_EVT &&& (0x1FF ^^^ (v.toNat % 512)))).setLast MGT_EVT stOk)) ∧
    exec (.readClear .pf 0x30050 false) s = .next ((s.wr SEC_AUTHFAIL 0).emit (.regData (BitVec.ofNat 32 (s.rd SEC_AUTHFAIL)))) ∧
    exec (.readClear .pf 0x30010 false) s = .next (s.emit (.regData (BitVec.ofNat 32 (s.rd SEC_SESSION)))) ∧
    exec (.readClear .pf 0x30034 false) s = .next (s.emit (.regData 0)))

/-- A write of a command register is that command (R32, R439, R452, R457). -/
def Sys2Proof.Claim.CommandRegisters : Prop :=
  ∀ (s : State) (p : BitVec 8) (v : BitVec 64), s.up → s.testing MGT_MBX_CMD = false → s.testing NVS_CMD = false → s.testing BST_CMD = false →
    (v.toNat % 65536 = 8 + p.toNat * 256 → exec (.registerWrite .pf (BitVec.ofNat 26 MGT_MBX_CMD) false v) s = exec (.logClear p) s) ∧
    (v.toNat % 65536 = 4 + p.toNat * 256 → exec (.registerWrite .pf (BitVec.ofNat 26 MGT_MBX_CMD) false v) s = exec (.pairReset p) s) ∧
    (v.toNat % 4 = 1 → exec (.registerWrite .pf (BitVec.ofNat 26 NVS_CMD) false v) s = exec .store s) ∧
    (v.toNat % 4 = 2 → exec (.registerWrite .pf (BitVec.ofNat 26 NVS_CMD) false v) s = exec .reload s) ∧
    (v.toNat % 65536 = 1 + p.toNat * 256 → exec (.registerWrite .pf (BitVec.ofNat 26 BST_CMD) false v) s = exec (.unitTest p) s)

/-- A VF reaches only its partition's window (R35, R390, R410, R414): a closed VF answers all ones, a FREE partition too, with ST_STATE in
the error log; an error of a VF is recorded in its partition's error register. -/
def Sys2Proof.Claim.VfAccess : Prop :=
  ∀ (s : State) (pn : Pn) (off : BitVec 26) (v : BitVec 64), s.up →
    let o := off.toNat % 65536
    let write := exec (.registerWrite (.vf pn) off false v) s
    let read := exec (.readClear (.vf pn) off false) s
    let ones := s.emit (.hostData (List.replicate 4 0xFF))
    (s.vfOpen pn = false → write = .next s ∧ read = .next ones) ∧
    (s.vfOpen pn = true → s.pstate pn = 0 → write = .next (s.errLog stState srcHost (some pn) o) ∧ read = .next (ones.errLog stState srcHost (some pn) o)) ∧
    (s.vfOpen pn = true → s.pstate pn ≠ 0 → o % 4 = 0 →
      (o < 0x1000 → regAt (0x2000000 + pn.val * 0x1000 + o) = none → write = .next (s.partErr pn 1 stArg o) ∧ read = .next ((s.partErr pn 1 stArg o).emit (.regData 0))) ∧
      (0x1000 ≤ o → o < 0x8000 ∨ (0x8100 ≤ o ∧ o < 0x9000) ∨ 0x9008 ≤ o →
        write = .next (s.partErr pn 1 stArg o) ∧ read = .next ((s.partErr pn 1 stArg o).emit (.regData 0))) ∧
      (0x8000 ≤ o → o < 0x8100 → read = .next (s.emit (.regData (BitVec.ofNat 32 (msixWord (s.part pn).tbl (o - 0x8000)))))) ∧
      (0x9000 ≤ o → o < 0x9008 → write = .next s))

/-- HOST_BAR_ERROR_ACCESS (R36): an access that is not whole and aligned is dropped or answers all ones, with ST_ARG recorded; one that is in
no way in error is none. -/
def Sys2Proof.Claim.ErrorAccess : Prop :=
  ∀ (s : State) (off : BitVec 26) (len : BitVec 4), s.up →
    let o := off.toNat
    let n := len.toNat
    let rec' := s.errLog stArg ((blockAt o).getD 0x13) none o
    ((n ≠ 4 ∧ n ≠ 8) ∨ o % n ≠ 0 → exec (.hostBarErrorAccess .pf off true len) s = .next rec' ∧
      exec (.hostBarErrorAccess .pf off false len) s = .next (rec'.emit (.hostData (List.replicate n 0xFF)))) ∧
    (n = 4 → o % 4 = 0 → s.halfBad .pf o = false → ∀ w, exec (.hostBarErrorAccess .pf off w len) s = .next s) ∧
    (n = 4 → o % 4 = 0 → s.halfBad .pf o = true → srcReg .pf o = none →
      exec (.hostBarErrorAccess .pf off true len) s = .next rec' ∧ exec (.hostBarErrorAccess .pf off false len) s = .next (rec'.emit (.regData 0)))

/-- PF BAR2 (R34, R376): a request to an assigned page or to the key table is refused whole and recorded; any other reaches HBM. -/
def Sys2Proof.Claim.Bar2 : Prop :=
  ∀ (s : State) (a : BitVec 35) (len : BitVec 13) (data : List (BitVec 8)), s.up →
    let x := a.toNat
    let n := len.toNat
    let ones := s.emit (.hostData (List.replicate n 0xFF))
    (x % 4096 + n ≤ 4096 →
      (∀ pn, s.owner (x / 0x200000) = some pn → exec (.hostBar2Read a len) s = .next (ones.errLog stPerm 0x13 (some pn) x)) ∧
      (s.owner (x / 0x200000) = none → s.keyPage x = true →
        exec (.hostBar2Read a len) s = .next ((ones.count SEC_PERMFAIL 1).errLog stPerm 0x13 none x)) ∧
      (s.owner (x / 0x200000) = none → s.keyPage x = false → exec (.hostBar2Read a len) s = .next (s.emit (.hostData (s.hbmRead x n))))) ∧
    (x % 4096 + data.length ≤ 4096 →
      (∀ pn, s.owner (x / 0x200000) = some pn → exec (.hostBar2Write a data) s = .next (s.errLog stPerm 0x13 (some pn) x)) ∧
      (s.owner (x / 0x200000) = none → s.keyPage x = true →
        exec (.hostBar2Write a data) s = .next ((s.count SEC_PERMFAIL 1).errLog stPerm 0x13 none x)) ∧
      (s.owner (x / 0x200000) = none → s.keyPage x = false → exec (.hostBar2Write a data) s = .next (s.agentWrite x data) ∧
        (data ≠ [] → (∀ e ∈ s.clusters, e.2.l2 = []) → Memory.wf s.hbm = true →
          (∀ i, i < data.length → (s.agentWrite x data).hbmByte (x + i) = data.getD i 0) ∧
          ∀ y, y < x ∨ x + data.length ≤ y → (s.agentWrite x data).hbmByte y = s.hbmByte y)))

/-- STOP_LINK_FAILURE (R25, R431): the stop position is recorded and the device holds itself until PORn. -/
def Sys2Proof.Claim.StopFailure : Prop :=
  ∀ (s : State) (pos : Fin 26), s.up →
    let w := (Config.freeWord s.free).toNat
    ∃ t, exec (.stopLinkFailure pos) s = .next t ∧
      t = ((s.withFree (s.free + 1)).errLog (w % 16) 0x14 none pos.val).fatal (0x6000 + w / 16 % 4096) ∧
      t.hold = some .fault ∧ t.mgmt.faultn = true

/-- Host accesses to registers: PfAccess, AccessTypes, CommandRegisters, VfAccess, ErrorAccess. -/
def Sys2Proof.Claim.RegisterAccess : Prop :=
  Claim.PfAccess ∧ Claim.AccessTypes ∧ Claim.CommandRegisters ∧ Claim.VfAccess ∧ Claim.ErrorAccess
/-- Host accesses to HBM and the failure of a stop: Bar2, StopFailure. -/
def Sys2Proof.Claim.Bar2AndStopFailure : Prop := Claim.Bar2 ∧ Claim.StopFailure

/-! ## Pads, rails, clocks and boundary scan -/

/-- Rails, VID and spread (R466, R468, R473): a dip of VDD_GS stops the device until PORn, any other is recorded and starts the power-fail
sequence; VID moves by one within 20 to 50; a raise of the spread needs every slot disabled. -/
def Sys2Proof.Claim.RailsAndClocks : Prop :=
  ∀ (s : State) (rail : Fin 10) (v : BitVec 32), s.up →
    let vid := s.fget ELC_AVS 0 8
    let fss := bits v.toNat 0 8
    let css := bits v.toNat 8 8
    let raise := s.fget ELC_SSC 0 8 < fss ∨ s.fget ELC_SSC 8 8 < css
    let t := ((s.wr ELC_SSC (2 ^ 16 + css * 256 + fss)).recomputeSubs).elcLast stOk
    let bad (st : Nat) := (s.elcLast st).errLog st srcElc none ELC_SSC
    (rail = 8 → ∃ u, exec (.railDip rail) s = .next u ∧ u.hold = some .power ∧ u.regs = s.regs ∧ (s.readout.powerFail ≠ none → u.nvs.sealed = none) ∧
      (s.readout.powerFail = none → u.nvs = s.nvs)) ∧
    (rail ≠ 8 → s.readout.powerFail ≠ none → exec (.railDip rail) s = .next s) ∧
    (rail ≠ 8 → s.readout.powerFail = none → exec (.railDip rail) s =
      .next (((s.fset ELC_ST (16 + rail.val) 1 1).errLog stDown srcElc none rail.val).powerFailSeq)) ∧
    exec (.vidStep true) s = .next (if vid < 50 then s.fset ELC_AVS 0 8 (vid + 1) else s) ∧
    exec (.vidStep false) s = .next (if 20 < vid then s.fset ELC_AVS 0 8 (vid - 1) else s) ∧
    (50 < fss ∨ 50 < css → exec (.sscWrite v) s = .next (bad stArg)) ∧
    (fss ≤ 50 → css ≤ 50 →
      (raise → s.anySlot = true → exec (.sscWrite v) s = .next (s.elcLast stState)) ∧
      (s.fget ELC_SSC 0 8 < fss → s.anySlot = false → t.floorBroken = true → exec (.sscWrite v) s = .next (bad stConflict)) ∧
      (s.fget ELC_SSC 0 8 < fss → s.anySlot = false → t.floorBroken = false → exec (.sscWrite v) s = .next t) ∧
      (fss ≤ s.fget ELC_SSC 0 8 → css ≤ s.fget ELC_SSC 8 8 ∨ s.anySlot = false → exec (.sscWrite v) s = .next t)) ∧
    exec .spreadChangeDone s = .next (s.fset ELC_SSC 16 1 0)

/-- The owner of a shared ball group (R485): the first claim wins, a release always holds, Lantern trace only in MANUFACTURE and RMA. -/
def Sys2Proof.Claim.BallGroups : Prop :=
  ∀ (s : State) (g : Fin 2) (v : BitVec 32), s.up →
    let o := v.toNat % 4
    let cur := s.fget (ELC_SBG_OWN g) 0 2
    let w := exec (.sbgOwnWrite g v) s
    let shut := g = 0 ∧ o = 2 ∧ s.lcs ≠ 1 ∧ s.lcs ≠ 4
    (o = 3 → w = .next ((s.elcLast stArg).errLog stArg srcElc none (ELC_SBG_OWN g))) ∧
    (o ≠ 3 → shut → w = .next (s.elcLast stPerm)) ∧
    (o ≠ 3 → ¬shut → o ≠ 0 → cur ≠ 0 → cur ≠ o → w = .next (s.elcLast stConflict)) ∧
    (o ≠ 3 → ¬shut → o = 0 ∨ cur = 0 ∨ cur = o → w = .next ((s.wr (ELC_SBG_OWN g) o).elcLast stOk))

/-- A thermal trip (R489): THERMTRIPn with the sensor, the power-fail steps, the hold with fault code 0x6D11. -/
def Sys2Proof.Claim.ThermalTrip : Prop :=
  ∀ (s : State) (sensor : Fin 24), s.up → ∃ t, exec (.thermalTrip sensor) s = .next t ∧ t.mgmt.thermTrip = some sensor.val ∧
    t.hold = some .fault ∧ t.mgmt.faultn = true ∧ t.rd BST_FAULT = 0x80006D11 ∧ t.readout.powerFail ≠ none

/-- The JTAG TAP (R487): BYPASS, IDCODE and SAMPLE/PRELOAD act always; an instruction that drives the balls acts under PORn or in the fault
hold, and else leaves BYPASS and an entry of the error log. -/
def Sys2Proof.Claim.BoundaryScan : Prop :=
  ∀ (s : State) (cells : BitVec 64),
    let tap (i : TapIns) (c : BitVec 64) := s.withJtag { ins := i, cells := c }
    let may := s.por = true ∨ s.hold = some .fault
    let refused := (s.withJtag { s.jtag with ins := .bypass }).errLog stState srcElc none 0
    exec .bypass s = .next (tap .bypass s.jtag.cells) ∧
    exec .idcode s = .next ((tap .idcode s.jtag.cells).emit (.jtag (bitList 0x12048DE1 32))) ∧
    (∃ bs, bs.length = 64 ∧ exec (.samplePreload cells) s = .next (((s.withFree (s.free + 1)).withJtag { ins := .sample, cells := cells }).emit (.jtag bs))) ∧
    (may → exec (.extest cells) s = .next (tap .extest cells) ∧ exec (.extestPulse cells) s = .next (tap .extestPulse cells) ∧
      exec (.extestTrain cells) s = .next (tap .extestTrain cells) ∧ exec .clamp s = .next (tap .clamp s.jtag.cells) ∧
      exec .highz s = .next (tap .highz s.jtag.cells)) ∧
    (¬may → ∀ c ∈ [Instr.extest cells, .extestPulse cells, .extestTrain cells, .clamp, .highz], exec c s = .next refused)

/-- Rails, clocks and the thermal trip: RailsAndClocks, BallGroups, ThermalTrip. -/
def Sys2Proof.Claim.RailsAndPads : Prop := Claim.RailsAndClocks ∧ Claim.BallGroups ∧ Claim.ThermalTrip
/-- The JTAG TAP. -/
def Sys2Proof.Claim.JtagTap : Prop := Claim.BoundaryScan

/-! ## Statements over several families -/

/-- Integer instructions: IntegerRegisterForms, IntegerUnaryForms, ImmediateForms. -/
def Obligations.IntegerForms : Prop := Claim.IntegerRegisterForms ∧ Claim.IntegerUnaryForms ∧ Claim.ImmediateForms

/-- Instructions that set flags, saturate or trap: FlagSettingForms, SaturatingAndTrappingForms. -/
def Obligations.FlagsSaturationAndTraps : Prop := Claim.FlagSettingForms ∧ Claim.SaturatingAndTrappingForms

/-- Accumulator instructions: AccumulatorOperations, AccumulatorExtract. -/
def Obligations.Accumulators : Prop := Claim.AccumulatorOperations ∧ Claim.AccumulatorExtract

/-- Multiply-accumulate instructions: MultiplyAccumulate, DualFetchMac. -/
def Obligations.MultiplyAccumulateForms : Prop := Claim.MultiplyAccumulate ∧ Claim.DualFetchMac

/-- Loads and stores, and device accesses that do not answer: LoadsAndStores, DeviceTimeouts. -/
def Obligations.LoadsStoresAndTimeouts : Prop := Claim.LoadsAndStores ∧ Claim.DeviceTimeouts

/-- Atomics, cache operations and fences: Atomics, CacheOperationsAndFences. -/
def Obligations.AtomicsCachesAndFences : Prop := Claim.Atomics ∧ Claim.CacheOperationsAndFences

/-- Commands of clusters and the rotation of reserves: ClusterCommands, Rotation. -/
def Obligations.ClusterCommandsAndRotation : Prop := Claim.ClusterCommands ∧ Claim.Rotation

/-- Group commit, the mirror, and windows: GroupCommitAndMirror, MirrorControl, Windows. -/
def Obligations.CommitMirrorAndWindows : Prop := Claim.GroupCommitAndMirror ∧ Claim.MirrorControl ∧ Claim.Windows

/-- Caches and coherence: Coherence, CacheConfiguration. -/
def Obligations.CachesAndCoherence : Prop := Claim.Coherence ∧ Claim.CacheConfiguration

/-- The decision word, and the veto: DecisionWordFields, VetoWins. -/
def Obligations.DecisionRules : Prop := Claim.DecisionWordFields ∧ Claim.VetoWins

/-- Control of streams, subscriptions and slots: StreamControl, SubscriptionsAndSlots. -/
def Obligations.StreamsSubscriptionsAndSlots : Prop := Claim.StreamControl ∧ Claim.SubscriptionsAndSlots

/-- The timebase: TimebaseTransitions, TimingInputLink. -/
def Obligations.Timebase : Prop := Claim.TimebaseTransitions ∧ Claim.TimingInputLink

/-- Delivery to hosts and the controls of readout: RecordDelivery, PcieDelivery, ReadoutControls. -/
def Obligations.ReadoutDelivery : Prop := Claim.RecordDelivery ∧ Claim.PcieDelivery ∧ Claim.ReadoutControls

/-- Service of security commands, and the life cycle: SecurityService, LifeCycleTransitions. -/
def Obligations.SecurityServiceAndLifeCycle : Prop := Claim.SecurityService ∧ Claim.LifeCycleTransitions

/-- Commands and resets of partitions: PartitionCommands, PartitionResets. -/
def Obligations.PartitionCommandsAndResets : Prop := Claim.PartitionCommands ∧ Claim.PartitionResets

/-- Pages and shares of partitions: PageOwnership, PartitionShares. -/
def Obligations.PagesAndShares : Prop := Claim.PageOwnership ∧ Claim.PartitionShares

/-- The SMBus port, THERM and Ridgepole messages: SmbusPort, ThermAndMessages. -/
def Obligations.SmbusAndMessages : Prop := Claim.SmbusPort ∧ Claim.ThermAndMessages

/-- Host accesses to registers and HBM, and the failure of a stop: RegisterAccess, Bar2AndStopFailure. -/
def Obligations.HostAccess : Prop := Claim.RegisterAccess ∧ Claim.Bar2AndStopFailure

/-- Rails, pads, clocks and the JTAG TAP: RailsAndPads, JtagTap. -/
def Obligations.RailsPadsAndJtag : Prop := Claim.RailsAndPads ∧ Claim.JtagTap

/-! ## The block as a whole -/

/-- The fields of a core instruction hold no combination that the spec reserves: the update of a load's own target, MS and AM of a
load or store, MSX, MSY and equal pointers of a MACD, EXT of AEXT, RD of SLGET (R203, R223, R228, R231). -/
def Sys2Proof.Claim.FieldsOk : Instr → Bool
  | .lb _ r m | .lbu _ r m | .lh _ r m | .lhu _ r m | .lw _ r m | .lwu _ r m | .ld _ r m => memLoadOk m r
  | .sb _ _ m | .sh _ _ m | .sw _ _ m | .sd _ _ m => memOk m
  | .macdH4 _ m | .macdH4s _ m | .msudH4 _ m | .msudH4s _ m | .macdH1 _ m | .macdH1s _ m | .macdW2 _ m | .macdW2s _ m => macdOk m
  | .aext _ _ _ _ ext => extOk ext
  | .slget _ rd _ => slgetOk rd
  | _ => true

/-- Every core instruction whose fields are not reserved decodes from its own words, and every word that decodes is the encoding of
what it decodes to: no bit of an encoding is dropped, and no two instructions share a word (R185 to R188, R215). -/
def Obligations.DecodeOfEncode : Prop :=
  (∀ (i : Instr) (w : Nat) (v : Option Nat), encode i = some (w, v) → Claim.FieldsOk i = true →
    w < 2 ^ 32 ∧ v.getD 0 < 2 ^ 32 ∧ ∃ k, decodeWords k w (v.getD 0) = some i) ∧
  (∀ (k : CoreNo) (i : Instr) (w v : Nat), w < 2 ^ 32 → v < 2 ^ 32 → decodeWords k w v = some i →
    encode i = some (w, if w / 2 ^ 26 = 0x3F then some v else none) ∧ Claim.FieldsOk i = true)

/-- A few words written out from the spec's formats: LOOPI COUNT 4 UOFS 15, LD, AEXT, ACLR, MAX, and MACD.H4 of two words (R186, R192, R196, R202,
R203, R222, R228); an all-zero word, a reserved addressing mode and a load that updates its own target decode to nothing (R188, R203). -/
def Obligations.InstructionWords : Prop :=
  ∀ k : CoreNo,
    decodeWords k 0x5C00400F 0 = some (.loopi k 4 15) ∧
    decodeWords k 0x78C44001 0 = some (.ld k 6 { ra := 4, am := 1, ms := 0, ofs := 1 }) ∧
    decodeWords k 0xC4EC9810 0 = some (.aext k 7 12 0 0x13) ∧
    decodeWords k 0xC4000200 0 = some (.aclr k 1) ∧
    decodeWords k 0x0508380B 0 = some (.max k 8 8 7) ∧
    decodeWords k 0x08640005 0 = some (.addi k 3 4 5) ∧
    decodeWords k 0xFDF01000 0x00080008 = some (.macdH4 k { rd := 15, ra := 16, acc := 0, msx := 0, msy := 0, xinc := 8, yinc := 8 }) ∧
    decodeWords k 0 0 = none ∧
    decodeWords k 0x78840001 0 = some (.ld k 4 { ra := 4, am := 0, ms := 0, ofs := 1 }) ∧
    decodeWords k 0x78844001 0 = none ∧ decodeWords k 0x78C43001 0 = none

/-- The reset state as the spec gives it: every register at its reset value, the timebase in NOLOCK, every partition FREE, the pairs in the
places of R14, no command waiting, nothing held (R10, R14, R37, R39, R391). Memory lists nothing. -/
def Obligations.ResetState : Prop :=
  (∀ off : Nat, State.reset.rd off = (regReset off).toNat) ∧
  State.reset.up ∧ State.reset.pending = [] ∧ State.reset.hbm = [] ∧ State.reset.tstate = 0 ∧ State.reset.test = none ∧
  State.reset.canonical = true ∧
  State.reset.rd MGT_EVTVEC0 = 0x03020100 ∧ State.reset.rd (MGT_EVTVEC0 + 4) = 0x07060504 ∧ State.reset.rd (MGT_EVTVEC0 + 8) = 8 ∧
  State.reset.rd SEC_RNG = 0 ∧ State.reset.rd BST_FAULT = 0 ∧ State.reset.rd MGT_LOG_CNT = 0 ∧
  (∀ pn : Pn, State.reset.pstate pn = 0 ∧ State.reset.epoch pn = 0) ∧
  (∀ l : LpNo, State.reset.ppOf l = some (l.val / 8 * 9 + l.val % 8) ∧ State.reset.lpOf (l.val / 8 * 9 + l.val % 8) = some l.val) ∧
  (∀ c : Fin 8, State.reset.role (9 * c + 8) = 1 ∧ State.reset.lpOf (9 * c + 8) = none) ∧
  (∀ i : Fin 9, State.reset.role (72 + i) = 2)

/-- The commands that act while the device is held in reset or PORn is asserted: power-on reset, the SMBus port, the JTAG TAP (R431, R460, R487). -/
def Sys2Proof.Claim.ActsInReset (c : Instr) : Prop :=
  (∃ p, c = .powerOnReset p) ∨ c = .status ∨ c = .fault ∨ c = .temp ∨ c = .ident ∨ c = .tsensLo ∨ c = .tsensHi ∨ c = .power ∨ c = .log ∨
  (∃ d p, c = .smbusWarmReset d p) ∨ (∃ code, c = .smbusUnknownCommand code) ∨ c = .smbusClockTimeout ∨ c = .bypass ∨ c = .idcode ∨
  (∃ x, c = .samplePreload x) ∨ (∃ x, c = .extest x) ∨ (∃ x, c = .extestPulse x) ∨ (∃ x, c = .extestTrain x) ∨ c = .clamp ∨ c = .highz

/-- No other command changes a device that holds itself in reset (R360, R431, R468). -/
def Obligations.HeldDevice : Prop :=
  ∀ (s : State) (c : Instr), s.hold ≠ none ∨ s.por = true → ¬Claim.ActsInReset c → exec c s = .next s

/-- Every command completes in every state: the model has no fault and no refusal. That a command which cannot apply
leaves the state as it is, is the model's choice (assumptions 5 and 39). -/
def Obligations.EveryCommandCompletes : Prop := ∀ (c : Instr) (s : State), ∃ t, exec c s = .next t

/-- HBM and the register store stay in canonical form over every step (Safety.lean): equal contents are equal data. The form
is the model's own. -/
def Obligations.CanonicalKept : Prop := ∀ s t : State, s.canonical = true → step s = .next t → t.canonical = true

/-- A command acts on everything but the queue of waiting commands, which is the model's own (assumption 3). -/
def Obligations.QueueUntouched : Prop := ∀ (c : Instr) (s t : State), exec c s = .next t → t.pending = s.pending

/-! ## Completion: where each command that comes from outside a core has its own effect -/

/-- The commands of the lanes complete with their own effect: in UP with no frame in error (R48, R66 to R83), in the state of training that
they advance (R84 to R90), from a disabled lane (R92). -/
def Sys2Proof.Claim.LanesComplete : Prop :=
  ∀ (s : State) (l : Lane), s.up → s.canonical = true →
    (∀ arg : BitVec 16,
      (s.aligned = true → ∃ t, exec (.feCmd arg) s = .next t ∧ t.time.cmdTick = some (s.time.tick + 1)) ∧
      (s.swcmd = none → ∃ t c, exec (.swcmd arg) s = .next t ∧ t.swcmd = some c ∧ c.arg = arg.toNat ∧ s.time.tick < c.tick)) ∧
    (∀ c, s.swcmd = some c → c.written + 16 ≤ s.time.tick →
      ∃ t, exec .swcmdDrop s = .next t ∧ t.swcmd = none ∧ t.rd FEL_SWCMD_ST = stBusy) ∧
    (s.swcmd = none → exec .cmdBlockSend s = .next ((List.range 64).foldl State.cmdSendLane s)) ∧
    (s.lstate l = 4 → (s.lane l).discard = false →
      exec (.idleBlock l) s = .next (s.header l false) ∧
      (∀ base : BitVec 56, (s.lane l).frame = none → s.tstate = 2 →
        baseDelta base.toNat (s.time.tick * 16) ≤ (s.fget FEL_AHEAD 0 16 * 16 : Int) →
        ∃ t f, exec (.fstart l base) s = .next t ∧ (t.lane l).frame = some f ∧ f.hits = 0 ∧ f.timed = true) ∧
      (∀ (w : BitVec 64) (f : Frame), (s.lane l).frame = some f →
        (f.cur = none → f.hits < 254 → bits w.toNat 0 8 = 0 → bits w.toNat 12 2 = 0 → f.timed = true →
          ∃ t g h, exec (.compactHit l w) s = .next t ∧ (t.lane l).frame = some g ∧ g.hits = f.hits + 1 ∧
            (t.lane l).entryq = (s.lane l).entryq ++ [h]) ∧
        (∀ h due kept, f.cur = some (h, due, kept) → 1 < due → kept.length + 4 < bits h.toNat 0 8 →
          ∃ t g, exec (.sampleBlock l w) s = .next t ∧ (t.lane l).frame = some g ∧
            g.cur = some (h, due - 1, kept ++ blockSamples w)) ∧
        (f.cur = none → crcFinal (crcRun f.crc (leBytes 3 (w.toNat / 2 ^ 40))) = bits w.toNat 8 32 →
          bits w.toNat 56 8 = f.hits → f.hits ≠ 255 →
          ∃ t, exec (.fend l w) s = .next t ∧ (t.lane l).frame = none ∧ (t.lane l).refSeq = true)) ∧
      (∀ ty : BitVec 8, rxTypes.contains ty.toNat = false → (s.lane l).frame = none →
        exec (.reservedControlBlock l ty) s = .next ((s.header l false).count (FEL_ERR_FRAME l) 1)) ∧
      (∀ hdr cend : BitVec 64, (s.lane l).frame = none → bits hdr.toNat 40 8 = 0 → s.fbit (FEL_RXSTAT l) 0 = false →
        ctlCrc hdr.toNat [] = bits cend.toNat 8 32 → ∃ u : State, u = (s.headers l [false]).header l false ∧
          exec (.responseFrame l hdr [] cend) s = .next (((u.wr (FEL_RXSTAT l) (bits hdr.toNat 48 16 * 2 ^ 16 + 1)).wr (FEL_RXINFO l)
            (bits hdr.toNat 24 16)).felEvent l)) ∧
      (s.fbit (FEL_TXSTAT l) 8 = false → ∃ t q h, exec (.txctlGo l) s = .next t ∧ q < 2 ^ 16 ∧
        t.rd (FEL_TXSTAT l) = q * 2 ^ 16 + 0x100 ∧ t.outs = .fe l true h :: s.outs) ∧
      (∃ (u : State) (start : Int), exec (.laneLoss l) s = .next (u.loseLane l start) ∧ u.lstate l = 5)) ∧
    (s.lstate l = 3 → exec (.invalidSyncHeader l) s = .next (s.count (FEL_ERR_SYNC l) 1)) ∧
    exec (.responseRelease l) s = .next (s.fset (FEL_RXSTAT l) 0 1 0) ∧
    (s.fbit (FEL_TXSTAT l) 8 = true →
      ∃ t, exec (.controlFrameEnd l) s = .next t ∧ t.fbit (FEL_TXSTAT l) 8 = false ∧ t.fget (FEL_TXSTAT l) 0 8 = stOk) ∧
    (∀ v : BitVec 32, bits v.toNat 1 2 < 2 → bit v.toNat 0 = false → bit v.toNat 4 = false → s.underTest (106 + l / 4) = false →
      bit (s.rd (FEL_CTL l)) 0 = false →
      exec (.felCtlWrite l v) s = .next (((((s.wr (FEL_CTL l) (putBits (bits v.toNat 0 7) 4 1 0)).felLast l stOk).reeval
        (106 + l / 4)).laneStart l))) ∧
    ((s.lane l).retry = false →
      (s.lstate l = 1 → exec (.cdrLock l) s = .next (s.setLstate l 2) ∧ exec (.cdrTimeout l) s = .next (s.attemptFails l)) ∧
      (s.lstate l = 2 → exec (.blockLock l) s = .next (s.setLstate l 3) ∧
        exec (.blockLockTimeout l) s = .next (s.attemptFails l)) ∧
      (s.lstate l = 3 → exec (.trainingTimeout l) s = .next (s.attemptFails l) ∧
        exec (.trainRequest l) s = .next (s.emit (.fe l true (s.trainBlock l 1))) ∧
        ∀ (w : BitVec 64) (rtt : BitVec 20), bits w.toNat 48 4 = 2 → bits w.toNat 52 6 = l → (s.lane l).rtts.length < 15 →
          ∃ t, exec (.trainEcho l w rtt) s = .next t ∧
            (t.lane l).rtts = (if s.tstate = 0 then none else some rtt.toNat) :: (s.lane l).rtts)) ∧
    ((s.lane l).retry = true → exec (.attemptRetry l) s = .next (s.attempt l)) ∧
    (s.lstate l = 5 ∨ s.lstate l = 6 → exec (.laneRestart l) s = .next (((s.fset (FEL_STAT l) 4 4 0).attempt l).felLast l stOk)) ∧
    (s.lstate l = 5 → s.fbit (FEL_CTL l) 3 = true → exec (.lostRetrain l) s = .next (s.attempt l)) ∧
    (∀ eyeH eyeV : BitVec 8, s.lstate l = 6 → (s.lane l).checking = true → ∃ t, exec (.analogChecksDone l 1 eyeH eyeV) s = .next t ∧
      t.rd (FEL_DIAG l) = eyeV.toNat * 2 ^ 16 + eyeH.toNat * 2 ^ 8 + 1)

/-- The commands of the channel table, the slice engine and the decision fabric complete with their own effect (R94 to R118, R128 to
R147): a hit that its bank holds, a fill without error, a table that may be enabled, a slice whose instant has come. -/
def Sys2Proof.Claim.SlicesComplete : Prop :=
  ∀ (s : State) (n : Stream) (pn : Pn), s.up → s.canonical = true →
    (∀ (l : Lane) (h : Hit) (rest : List Hit) (i : Nat) (e : DescEntry), (s.lane l).entryq = h :: rest → s.fbit CTB_CTL 0 = true →
      h.cn < s.fget CTB_NCHAN 0 19 → (s.bank (l / 2)).find h.cn = some (i, e) →
      exec (.hitLookup l .ok) s = .next ((s.passOn l h rest).serveHit h e)) ∧
    (∀ (b : Fin 32) (i : Fin 16) (f : Fill), tabFind (s.bank b).fills i = some f →
      (let img := ofLe (s.hbmRead (s.descAddr f.cn) 64)
       f.waiting = false → f.ready = none → descCause f.cn img (s.isPoison (s.descAddr f.cn / 64)) = 0 →
        exec (.descriptorFill b i false) s = .next (s.fillReady b i f { cn := f.cn, image := BitVec.ofNat 512 img, poisoned := false } 0)) ∧
      exec (.fillRefetch b i) s = .next
        (s.setBank b { s.bank b with fills := tabIns (s.bank b).fills i { f with waiting := false } })) ∧
    (∀ v : BitVec 32, bit v.toNat 0 = true → s.fbit CTB_CTL 0 = false →
      s.rd64 CTB_BASE_LO + 64 * s.fget CTB_NCHAN 0 19 ≤ hbmSize → s.unassigned (s.rd64 CTB_BASE_LO) (64 * s.fget CTB_NCHAN 0 19) = true →
      exec (.ctbCtlWrite v) s = .next ((s.emptyCache.wr CTB_CTL 1).wr CTB_ST stOk)) ∧
    (s.chan.inv = none →
      (let runs (c : Instr) (lo hi : Nat) : Prop :=
        exec c s = .next ((s.withChan { s.chan with inv := some { lo := lo, hi := hi } }).fset CTB_INV_ST 8 1 1)
       let lo := s.fget CTB_INV_LO 0 18
       let hi := s.fget CTB_INV_HI 0 18
       (lo < s.fget CTB_NCHAN 0 19 → runs .invalidateCn lo lo) ∧
       (lo ≤ hi → hi < s.fget CTB_NCHAN 0 19 → runs .invalidateRange lo hi) ∧ runs .invalidateAll 0 (2 ^ 18 - 1))) ∧
    (s.chan.inv ≠ none → ∃ t, exec .invalidateComplete s = .next t ∧ t.chan.inv = none ∧ t.rd CTB_INV_ST = stOk) ∧
    (∀ (e : Fin 4) (m : Mark) (rest : List Mark), (s.eng e).inMarks = m :: rest →
      exec (.sliceMark e) s = .next ((s.setEng e { s.eng e with inMarks := rest }).applyMark e m)) ∧
    (s.strEn n = true → (s.stream n).stopEnd = none → s.closeT n (s.stream n).next ≤ s.time.tick * 16 →
      ∃ t seals f, exec (.sliceSeal n) s = .next t ∧ t.fabric.seals = seals ++ [f] ∧ f.stream = n.val ∧ f.k = (s.stream n).next) ∧
    (∀ (f : SealFlit) (rest : List SealFlit), s.fabric.seals = f :: rest → f.stream = (0 : Nat) →
      ∃ t, exec .sealFlitInject s = .next t ∧ t.fabric.seals = rest ∧ t.outs = .flit 0 0 true true :: s.outs) ∧
    (∀ (k : Nat) (r : SliceRec), (s.stream n).recs.find? (fun e => e.2.sealed && !e.2.merged) = some (k, r) → s.dirPinned n k = false →
      exec (.regionSumMerge n) s = .next ((s.setSlice n k { r with merged := true }).agentWords (s.rsumAddr n k)
        (r.sumWords 0 s.nreg ++ List.replicate (s.rblk / 8 - s.nreg) 0))) ∧
    (∀ (f : SealFlit) (q : SealSub) (rest : List (SealFlit × SealSub)) (slot : Nat), (s.sub pn).flits = (f, q) :: rest → (s.slice f.stream f.k).merged = true →
      emptyWay ((s.sub pn).entries.map (·.slot)) (s.subQd pn) = some slot → q.full = false → s.pstate pn = 2 →
      ∃ (t : State) (e : QEntry), exec (.noticeDelivery pn) s = .next t ∧ e ∈ (t.sub pn).entries ∧ e.slot = slot ∧
        e.sn = snOf f.k ∧ e.takenBy = none) ∧
    (∀ (e : Fin 4) (i k slot j : Nat), firstIdx (fun c => c.2.2 == e.val) 0 (s.sub pn).copies = some (i, k, slot, j) →
      s.copyTurn pn e k = true →
      ∃ t, exec (.hitCopy pn e) s = .next t ∧
        t.subs = (s.setSub pn { s.sub pn with copies := (s.sub pn).copies.eraseIdx i }).subs) ∧
    (∀ v : BitVec 32, s.subEn pn = true → bit v.toNat 31 = false →
      exec (.subCtlWrite pn v) s = .next ((s.subOff pn).wr (SLC_SUB_ST pn) stOk)) ∧
    (∀ (t : SlotNo) (v : BitVec 32), bit (s.rd (DCF_SLOT_CTL t)) 31 = false → bit v.toNat 31 = false →
      exec (.slotCtlWrite t v) s = .next ((((s.wr (DCF_SLOT_CTL t)
        (bits v.toNat 28 4 * 2 ^ 28 + bits v.toNat 8 19 * 2 ^ 8)).countSlots.recomputeSubs)).wr (DCF_SLOT_ST t) stOk)) ∧
    (s.strEn n = true → (s.stream n).cap < (s.stream n).next → s.sliceEnd n (s.stream n).cap + s.floor n ≤ s.time.tick + cutC s.period →
      ∃ t, exec (.slotCapture n) s = .next t ∧ (t.stream n).cap = (s.stream n).cap + 1) ∧
    (∀ c : Clus, (s.cluster c).decq ≠ [] → ∃ t, exec (.decidePacketInject c) s = .next t ∧
      t.fabric.ring = s.fabric.ring ++ (s.cluster c).decq.take 4) ∧
    (∀ (m : DecMsg) (rest : List DecMsg) (t k i : Nat) (q : SlotCap), s.fabric.ring = m :: rest → s.slotOf m.pn = some t → m.epoch = s.epoch m.pn →
      let d := s.fget (DCF_SLOT_CTL t) 28 2
      (s.strEn d && snRel m.sn (snOf (s.stream d).cut) == .earlier) = false →
      ((List.range ((s.stream d).cap - (s.stream d).cut)).map ((s.stream d).cut + ·)).find? (fun k => snOf k == m.sn) = some k →
      firstIdx (fun q => q.slot == t && q.pn == m.pn) 0 ((s.slice d k).caps.getD []) = some (i, q) → q.done = none →
      exec .decideArrival s = .next ((s.withFabric { s.fabric with ring := rest }).setSlice d k
        { s.slice d k with caps := some (setIdx ((s.slice d k).caps.getD []) i { q with done := some m.ty }) })) ∧
    (s.strEn n = true → (s.stream n).cut < (s.stream n).cap → s.cutTick n (s.stream n).cut ≤ s.time.tick →
      ∃ t, exec (.cutoff n) s = .next t ∧ (t.stream n).cut = (s.stream n).cut + 1) ∧
    (∀ x, s.strEn n = true → (s.stream n).out < (s.stream n).cut → (s.slice n (s.stream n).out).decided = some x →
      s.sliceEnd n (s.stream n).out + s.strD n ≤ s.time.tick + 1 →
      ∃ t, exec (.decisionWord n) s = .next t ∧ (t.stream n).out = (s.stream n).out + 1)

/-- The lanes, the channel table, the slices and the decisions: where their commands complete. -/
def Obligations.FrontEndCommandsComplete : Prop := Claim.LanesComplete ∧ Claim.SlicesComplete

/-- The commands of cores, pairs and caches complete with their own effect: an event that is deliverable is taken (R160, R171), a value
sampled (R271), a store drained (R257), a fill requested (R253), a configuration changed (R245, R247, R250), a group committed (R274). -/
def Sys2Proof.Claim.CoresComplete : Prop :=
  ∀ (s : State) (k : CoreNo), s.up → s.canonical = true →
    let c := s.core k
    (s.awake k = true → c.wait ≠ .halted → c.wait ≠ .fenced → ∀ m int code val, s.deliverable k = some (m, int, code, val) →
      ∃ d : CoreSt, exec (.eventDelivery k) s = .next (s.setCore k d) ∧ d.arch = c.arch.enter m int code val ∧ d.wait = .run) ∧
    (s.agent k = true → (c.arch.csrv 0x40A).toNat ≤ s.time.tick → exec (.stimerMatch k) s = .next (s.wake (k.val / 2) 2)) ∧
    (∀ (a : Nat) (t : Taken), s.agentNo k = some a → tabFind s.taken (a * 2048 + c.pn) = some t → s.agent k = true →
      s.curPn k = some c.pn → c.arch.csrf 0x400 3 1 = 1 → t.held = true → t.warned = false →
      (t.cutoff : Int) - s.time.tick - 1 ≤ c.arch.csrf 0x409 0 12 →
      exec (.deadlineWarning k) s = .next ((s.withTaken (tabIns s.taken (a * 2048 + c.pn) { t with warned := true })).setCore k
        { c with dlines := c.dlines ++ [t.sn] })) ∧
    (s.awake k = true → c.wait = .wfi → s.wfiEnds k = true → exec (.wfiWake k) s = .next (s.setCore k { c with wait := .run })) ∧
    (∀ (rd : Nat) (t : State) (w : List Word), s.awake k = true → c.wait = .slget rd → s.slgetServed k = (t, .notice w) →
      ∃ u, exec (.slgetWake k) s = .next (u.endInstr k 4 (t.core k).arch .seq) ∧
        u = (t.setCore k { t.core k with wait := .run }).slgetGot k rd (.notice w)) ∧
    (s.agent k = true → ∀ v : Word, exec (.dataInput k (.value v)) s = .next (s.setCore k (c.input (.word v)))) ∧
    (s.dstate (k.val / 2) = 0 → ∀ (st : Store) (rest : List Store), c.sb = st :: rest → st.ty = .loc →
      ∃ t, t = s.setCore k { c with sb := rest } ∧
        exec (.storeDrain k) s = .next (t.setCore k ((t.core k).putStore (st.pa - 0xE000000000) st.bytes))) ∧
    (∀ st : Store, c.sb = [st] → st.ty = .device →
      exec (.deviceStoreTimeout k) s = .next ((s.setCore k { c with sb := [] }).storeDropped k st 1)) ∧
    (∀ (line : BitVec 29) (l : L2Line), s.agent k = true → s.dstate (clusterDom (k.val / 2)) = 0 → s.l1den k = true →
      c.reqs.length < 8 → s.l2Line (k.val / 18) line.toNat = some l →
      (∃ t, exec (.gets k line) s = .next t ∧ tabFind (t.core k).reqs line.toNat =
        some { m := false, hbm := false, epoch := s.arb.epochs }) ∧
      (∃ t, exec (.getm k line) s = .next t ∧ tabFind (t.core k).reqs line.toNat =
        some { m := true, hbm := false, epoch := s.arb.epochs }) ∧
      (l.owner = some (k.val % 18) → ∃ t m, exec (.putm k line) s = .next t ∧
        t.l2Line (k.val / 18) line.toNat = some { l with owner := none, dirty := true, sharers := m })) ∧
    (∀ v : BitVec 32, s.agent k = true → c.change = none →
      (bits v.toNat 4 2 = s.lmw k → bits v.toNat 8 2 = s.ilock k → bits v.toNat 0 1 = 1 →
        exec (.l1cfgWrite k v) s = .next
          ((s.memLast k stOk).wr (MEM_C_L1CFG k) (bits v.toNat 8 2 * 2 ^ 8 + bits v.toNat 4 2 * 2 ^ 4 + 1))) ∧
      (let w := s.wr (MEM_C_ILBASE_LO k) (bits v.toNat 14 18 * 2 ^ 14)
       w.ilock k = 0 → w.ilLine k * 64 ≤ 0x800000000 → exec (.ilbaseWrite k false v) s = .next (w.memLast k stOk))) ∧
    (∀ x, c.change = some x → x.reload = false → ∃ (u : State) (d : CoreSt),
      exec (.l1cfgChangeDone k) s = .next (u.setCore k d) ∧ d.change = none ∧ u.rd (MEM_C_L1CFG k) = x.cfg % 2 ^ 32) ∧
    (∀ g, s.agent k = true → c.attempt = 0 → c.groups = [g] → 16 ≤ g.n → c.preq = [] → g.stores = 0 →
      exec (.groupCommit k) s = .next (((s.setCore k { c with groups := [] }).sbPeak k).groupCkpt k g))

/-- The commands of pairs, logical pairs and clusters complete with their own effect: retry (R275, R276), windows (R178), mirrors (R279,
R281), held regions (R250), takeover and split (R282, R290), failover (R286), rotation (R293), debug, injection and trace (R296, R297). -/
def Sys2Proof.Claim.ClustersComplete : Prop :=
  ∀ (s : State) (pp : PairNo) (lp : LpNo) (lc : LClus) (c : Clus), s.up → s.canonical = true →
    (s.compares pp = true → (s.core (2 * pp.val)).attempt = 0 → s.isSplit pp = false → ∀ (kind : MisKind) (reg : BitVec 12),
      let begun (i : Instr) : Prop := ∃ (u : State) (d : CoreSt), exec i s = .next (u.setCore (2 * pp.val) d) ∧ d.attempt = 1 ∧
        (u.rd (PAI_RTEV pp) = min (s.rd (PAI_RTEV pp) + 1) 0xFFFFFFFF)
      begun (.mismatch pp kind reg) ∧ begun (.guylineFault pp) ∧ (begun (.oneCopyError pp false))) ∧
    (∀ kind reg, 0 < (s.core (2 * pp.val)).attempt → (s.core (2 * pp.val)).attempt < 3 → s.running pp = true →
      (s.core (2 * pp.val)).wait ≠ .halted → ∃ (u : State), exec (.retryAttempt pp true kind reg) s =
        .next (u.setCore (2 * pp.val) { s.core (2 * pp.val) with attempt := (s.core (2 * pp.val)).attempt + 1 })) ∧
    (∀ q, s.ppOf lp = some q →
      let t := s.windowStatus lp
      let u := t.setDom q { t.dom q with latch := (t.dom q).latch.filter (fun e => e != 3) }
      t.running q = true → u.running q = true → (u.lp lp).tk = none → u.lpState lp = 0 → u.windowPn lp ≠ (u.lp lp).cur →
      (u.core (2 * q)).attempt = 0 → (u.commitPair q).uncommitted q = false →
        exec (.windowSwitch lp) s = .next ((u.commitPair q).switch lp q (u.windowPn lp))) ∧
    (let b := s.cbank lp
     let a := s.fget (CLU_LP_WCTL lp) 0 1
     a ≠ b → majorFrame (s.windows lp b) = 0 → s.quotaOk lp a = true → ∃ (u : State), u.cbank lp = a ∧
      exec (.majorFrameBoundary lp) s = .next (u.setLp lp { s.lp lp with wfrom := u.nextFrame lp a s.time.tick })) ∧
    (∀ i, (s.lp lp).closed = some i → i.lm = none → i.log = [] → ∃ (t : State) (x : LpSt), t = s.setLp lp x ∧ x.closed = none ∧
      exec (.logIntervalApply lp) s = .next ((t.fset (CLU_LP_CKPT lp) 16 16 (t.fget (CLU_LP_CKPT lp) 16 16 + 1)).ckptLog lp)) ∧
    (∀ m, (s.lp lp).mirror = some m → m.sl ≠ none → s.mirrored lp = true →
      ∃ t, exec (.mirrorFlush lp) s = .next t ∧ t.lp lp = { s.lp lp with flushed := some m }) ∧
    (∀ l, s.lclOf c = some l → exec (.contextWriteback c) s =
      .next ((lpsOf l).foldl (fun u l => u.setLp l { u.lp l with hbmCtx := (u.lp l).ctx }) s)) ∧
    (∀ q : HeldRegion, s.fbit (MEM_CL_HOLD_ST c) 8 = false → q = s.holdRegion c false → (q.line + q.lines) * 64 ≤ 0x800000000 →
      (s.cluster c).roomFor q = true → ∃ (u : State) (x : ClusterSt), exec (.holdAdd c) s =
        .next ((u.setCluster c x).fset (MEM_CL_HOLD_ST c) 8 1 1) ∧ x.holdCmd = some (2, q)) ∧
    (∀ q : HeldRegion, s.fbit (MEM_CL_HOLD_ST c) 8 = false → q = s.holdRegion c true → (q.line + q.lines) * 64 ≤ 0x800000000 →
      (s.cluster c).roomFor q = true → ∃ u : State, exec (.holdAddLoad c) s = .next (u.measureCode q)) ∧
    (∀ q : HeldRegion, s.fbit (MEM_CL_HOLD_ST c) 8 = false → (s.cluster c).held = [q] →
      q.line = (s.holdRegion c false).line → q.lines = (s.holdRegion c false).lines →
      ∃ (u : State) (x : ClusterSt), exec (.holdRemove c) s = .next ((u.setCluster c x).fset (MEM_CL_HOLD_ST c) 8 1 1) ∧
        x.holdCmd = some (3, s.holdRegion c false)) ∧
    (∀ h, (s.cluster c).holdCmd = some h → ∃ t, exec (.holdCommandDone c) s = .next t ∧
      t.fbit (MEM_CL_HOLD_ST c) 8 = false ∧ t.fget (MEM_CL_HOLD_ST c) 0 8 = stOk) ∧
    (∀ (addr : BitVec 35) (data : List (BitVec 8)), data ≠ [] → addr.toNat + data.length ≤ 0x800000000 →
      exec (.nonCachingWrite (.clusterStop c) addr data) s = .next (s.stopWrite c addr.toNat data)) ∧
    (∀ q, s.fbit (CLU_CMD_ST (lp.val / 8)) 8 = false → s.ppOf lp = some q → s.lpState lp = 0 → s.underTest q = false →
      (∃ u : State, exec (.takeover lp) s = .next ((u.failPair q).fset (CLU_ST (lp.val / 8)) 0 8 stOk)) ∧
      (s.pend lp % 4 = 0 → s.loadTooLong q = false →
        (s.lpSplit lp = false → ∃ u : State, exec (.split lp) s =
          .next ((u.setPend lp (s.pend lp + 1)).fset (CLU_ST (lp.val / 8)) 0 8 stOk)) ∧
        (s.lpSplit lp = true → ∃ u : State, exec (.join lp) s =
          .next ((u.setPend lp (s.pend lp + 2)).fset (CLU_ST (lp.val / 8)) 0 8 stOk)))) ∧
    (∀ q, (s.lp lp).tk = some q → q < 81 → s.running q = true → s.fget (CLU_LP_MAP lp) 0 7 ≠ q →
      ∃ t, exec (.takeoverResume lp) s = .next t ∧ t.fget (CLU_LP_MAP lp) 0 7 = q ∧ t.role q = 0) ∧
    (∀ l, (s.count (MEM_CL_COHERR c) 1).lclOf c = some l →
      exec (.coherenceProtocolError c) s = .next ((s.count (MEM_CL_COHERR c) 1).failCluster l)) ∧
    (s.fget (CLU_ST lc) 8 2 = 0 → s.rclUsable = true → exec (.deadAgent lc) s = .next ((s.resetFails lc).failover lc)) ∧
    (s.fbit CLU_SP_CMD_ST 8 = false → s.rclUsable = true → s.fget (CLU_ST lc) 8 2 = 0 →
      exec (.failover lc) s = .next (((s.failover lc).wr CLU_SP_CMD_ST 0x100).fset CLU_SP_ST 0 8 stOk)) ∧
    (s.fget (CLU_ST lc) 8 2 = 1 → s.dstate 89 = 0 → s.dphase 89 = 0 → (s.spares.take 8).all s.running = true →
      ∃ t, exec (.failoverResume lc) s = .next t ∧ t.fget (CLU_ST lc) 8 2 = 0 ∧ t.pclOf lc = 8) ∧
    (∀ q, s.fbit CLU_SPCFG 31 = true → s.fget (CLU_ST lc) 8 2 = 0 → s.lcs = 3 → s.reserveOf lc = some q → s.role q = 1 →
      s.takeoverIn lc = false → s.underTest q = false → s.fget CLU_SP_ST 16 3 ≠ 0 →
      exec (.rotationStep lc) s = .next (((s.setPair q 3 false none).fset (CLU_RSV lc) 0 3 1).reeval q)) ∧
    (s.fbit CLU_SP_CMD_ST 8 = false → ∃ u : State, exec .rotationStepNow s = .next ((u.wr CLU_SP_CMD_ST stOk).fset CLU_SP_ST 0 8 stOk)) ∧
    (∀ (misr : BitVec 64) (steps : BitVec 32), s.role pp = 3 → s.running pp = true →
      testRes pp misr.toNat steps.toNat = .pass → (s.recordTest pp misr.toNat steps.toNat .pass).reserveFor pp = none →
      ∃ u : State, exec (.rotationTestDone pp misr steps) s = .next ((u.fset CLU_SP_ST 16 3 0).reeval pp)) ∧
    (∀ q, s.reserveOf lc = some q → s.role q = 4 → s.rotationStuck lc q = true →
      ∃ u : State, exec (.rotationBlocked lc) s = .next (((u.count CLU_ROT_BLK 1).reeval q).mgrEvent 2)) ∧
    (s.paiRefused pp = 0 → (s.paiLast pp stOk).debugOk = true →
      exec (.halt pp) s = .next (((s.paiLast pp stOk).wr (PAI_DBG_CTL pp) 1).haltPair pp) ∧
      exec (.resume pp) s = .next (((s.paiLast pp stOk).wr (PAI_DBG_CTL pp) 2).resumePair pp) ∧
      exec (.step pp) s = .next (((s.paiLast pp stOk).wr (PAI_DBG_CTL pp) 4).stepPair pp) ∧
      exec (.injOne pp) s = .next ((s.paiLast pp stOk).setCore (2 * pp.val) { s.core (2 * pp.val) with injOne := true }) ∧
      ((s.paiLast pp stOk).fbit (PAI_INJ pp) 1 = false →
        exec (.injHard pp) s = .next ((s.paiLast pp stOk).fset (PAI_INJ pp) 1 1 1))) ∧
    (∀ v : BitVec 32, s.paiRefused pp = 0 → bit v.toNat 31 = false → ∃ t, exec (.traceCtlWrite pp v) s = .next t ∧
      t.fget (PAI_TRC_ST pp) 0 8 = stOk) ∧
    (∀ v : BitVec 32, v.toNat % 2 = 1 → s.fbit (CLU_CTL lc) 0 = false → ∀ r : HeldRegion,
      r = ⟨s.rd64 (CLU_MIR_LO lc) / 64, 16384, false, none⟩ → (s.cluster (s.pclOf lc)).roomFor r = true →
      exec (.cluCtlWrite lc v) s = .next (((s.setHeld (s.pclOf lc) ((s.cluster (s.pclOf lc)).held ++ [r])).wr (CLU_CTL lc) 1).fset
        (CLU_ST lc) 0 8 stOk))

/-- Cores, pairs and clusters: where their commands complete. -/
def Obligations.CoreAndClusterCommandsComplete : Prop := Claim.CoresComplete ∧ Claim.ClustersComplete

/-- The commands of readout complete with their own effect (R304 to R341, R343, R357, R358): the queues and controls that they act on permit
them. -/
def Sys2Proof.Claim.ReadoutComplete : Prop :=
  ∀ (s : State) (n : Scn) (pn : Pn) (t : Tag) (e : EngineNo), s.up → s.canonical = true →
    (s.fbit CHS_CMD_ST 8 = false →
      let c := s.subch n
      (c.state = 0 → exec (.scAssign pn n) s = .next
        ((s.setSubch n { owner := some pn, state := 1, rseq := c.rseq, session := c.session }).wr CHS_CMD_ST 0x100)) ∧
      (c.state = 1 → s.scBusy n = false → exec (.scRelease n) s = .next
        ((s.setSubch n { rseq := c.rseq, session := c.session }).wr CHS_CMD_ST 0x100)) ∧
      (s.fbit CHS_ST 16 = true → ∃ u, exec .recAck s = .next u ∧ u.fbit CHS_ST 16 = false ∧ u.rd CHS_REC = 0) ∧
      (c.owner = some pn.val →
        (c.state ≠ 1 → exec (.scDisable .mgr ⟨pn, n⟩) s = .next
          ((s.setSubch n { c with state := 1, probeInst := none }).wr CHS_CMD_ST 0x100)) ∧
        exec (.scReset .mgr ⟨pn, n⟩) s = .next ((s.scClear n 0xC).wr CHS_CMD_ST 0x100) ∧
        (c.state = 1 → c.loaded = true → s.keyLoaded pn (s.scField n 0 48 4) = true → s.scPcie n = true →
          exec (.scEnable .mgr ⟨pn, n⟩) s = .next ((s.setSubch n { c with state := 2 }).wr CHS_CMD_ST 0x100)) ∧
        (let ws := s.stageWords .mgr 16
         let w (i : Nat) := ws.getD i 0
         crc32c ((ws.flatMap (leBytes 8)).take 120) = bits (w 15) 32 32 → descOk w = true → bits (w 0) 60 4 ≠ 1 →
         s.ownsSlot pn (bits (w 0) 36 12) = true → bits (w 0) 36 12 ∈ s.readout.progs → c.state = 1 →
         ∃ v x, x.loaded = true ∧ exec (.scLoad .mgr ⟨pn, n⟩) s = .next ((State.setSubch v n x).wr CHS_CMD_ST 0x100))) ∧
      (∀ (hi : BitVec 24) (lo : BitVec 32), let a : Pn := Fin.ofNat 2048 (bits (hi ++ lo).toNat 45 11)
        let nw := bits (hi ++ lo).toNat 0 7
        s.ownsSlot a (bits (hi ++ lo).toNat 18 12) = true → nw ≠ 0 → nw ≤ 64 → progCheck (s.stageWords .mgr nw) = 0 →
        s.readout.subch = [] → ∃ v x, x.nprog = (State.part v a).nprog + 1 ∧
          exec (.pgLoad .mgr hi lo) s = .next ((v.setPart a x).wr CHS_CMD_ST 0x100))) ∧
    (∀ who, s.fbit (chsStReg who) 8 = true → exec (.chsCommandDone who) s = .next ((s.wr (chsStReg who) stOk).chsEnded who)) ∧
    (∀ q rest p l, s.creq = q :: rest → q.left = p :: l → l ≠ [] → exec .transactionCreate s = .next
      (((s.createOne p q).withCreq ({ q with left := l } :: rest)).fset CHS_CREQ 0 7 (rest.length + 1))) ∧
    (∀ (x : Txn) (f : Nat), s.txn t = some x → x.phase = .queued → s.pagesFor x.scn ≤ s.freePages → s.pickEngine x.avoid = some f →
      s.mayGrant .engines s.gatherDemand x.pn = true → ∃ (u : State) (y : Txn), y.phase = .gather ∧ y.engine = some f ∧
        exec (.gatherStart t) s = .next ((u.setTxn t y).cmpCount f)) ∧
    (∀ (x : Txn) (gen : Fin 8) (epoch : BitVec 8), s.txn t = some x → gen.val = x.gen → epoch.toNat = s.epoch x.pn →
      (∀ bs hits key u, x.phase = .gather → s.isPoison (s.dirAddr x.stream x.k / 64) = false → s.dirHolds x.stream x.k = true →
        s.gatherAll x.pn x.stream x.k ((List.range 8).map (fun i => s.hbmWord (s.dirAddr x.stream x.k + 8 * i))) (s.program x.scn) =
          .ok bs hits →
        (s.gatherReads x.pn bs.length).loadKey x.pn ((s.gatherReads x.pn bs.length).scField x.scn 0 48 4) = (some key, u) →
        ∃ y : Txn, y.phase = .sealing ∧ y.body = bs ∧ exec (.gatherComplete ⟨t, gen, epoch⟩ false) s = .next (u.setTxn t y)) ∧
      (∀ f, x.phase = .sealing → x.engine = some f → (s.heldRecords f).head?.map (·.1) = some t.val →
        ∃ (u : State) (y : Txn), y.phase = .stored ∧
          exec (.sealComplete ⟨t, gen, epoch⟩) s = .next (((u.setTxn t y).cmpCount f).pinDone x.stream x.k))) ∧
    (∀ cause : BitVec 4, s.heldRecords e = [] → ∃ u : State, exec (.engineFailure e cause) s = .next (u.fset (CMP_ST e) 16 3 3) ∧
      u.rd (CMP_LASTERR e) = 2 ^ 31 + cause.toNat * 2 ^ 24) ∧
    (∀ (misr : BitVec 64) (steps : BitVec 32), s.cmpState e = 3 → s.lcs ≠ 0 → s.lcs ≠ 5 →
      testRes (90 + e.val) misr.toNat steps.toNat = .pass →
      ∃ u v, exec (.engineTestDone e misr steps) s = .next ((State.fset u (CMP_ST e) 16 3 v).cmpCount e)) ∧
    (∀ v : BitVec 32, s.cmpState e ≠ 2 → s.cmpState e ≠ 4 → v.toNat % 2 = 1 →
      exec (.cmpCtlWrite e v) s = .next (((s.wr (CMP_CTL e) 1).cmpCount e).fset (CMP_ST e) 0 8 stOk)) ∧
    (∀ (bufs : List BufDesc) (x : Txn) (u : State), u = s.wrrGo n → s.scPcie n = false → u.scPcie n = false →
      u.nextTurn n = some (t.val, x) → u.linkReady n = true →
      u.mayGrant (u.linkOf n) (u.linkDemand (u.linkOf n)) x.pn = true → u.scField n 0 57 1 = 0 →
      ∃ (v : State) (y : Subch), exec (.recordDeliver n bufs) s = .next ((v.setSubch n y).wrrGo n)) ∧
    (∀ w : BitVec 64, let k := w.toNat / 2 ^ 32 % 2 ^ 15
      let c := s.subch k
      let db := (w.toNat % 2 ^ 16 + 65536 - c.brCi % 65536) % 65536
      let cq := (w.toNat % 2 ^ 16 + 65536 - c.cqCi % 65536) % 65536
      s.dbPermits .pf k = true →
      (db < s.brSize k → exec (.bufferDoorbell .pf w) s = .next (s.setSubch k { c with brPi := c.brCi + db })) ∧
      (cq ≤ c.cqPi - c.cqCi → s.readout.txns = [] →
        exec (.consumerDoorbell .pf w) s = .next ((s.setSubch k { c with cqCi := c.cqCi + cq }).cqLost 8192 k))) ∧
    exec .pcieLinkDown s = .next (s.loseAll 0xA (fun x => s.scPcie x.scn)) ∧
    (∃ u f, exec (.busMasterDisable pn) s = .next (State.loseAll u 0xA f) ∧ u = s.setPart pn { s.part pn with busMaster := false }) ∧
    (∀ (port : Fin 8) (a : WrrAck), s.portLive port = true → a.ver.toNat = 1 → a.ty.toNat = 2 → (s.subch a.scn).state = 2 →
      (s.subch a.scn).loaded = true → s.scDest a.scn = port.val + 8 → s.fromPeer a.scn a = true →
      (s.subch a.scn).owner = some a.pn.val → a.epoch.toNat = s.epoch a.pn → a.inst.toNat = (s.subch a.scn).inst →
      a.cum.toNat = (s.subch a.scn).psn → (s.subch a.scn).window = [] →
      ∃ (u : State) (x : Subch), exec (.wrrAck port a) s = .next (((u.setSubch a.scn x).wrrDone a.scn).wrrGo a.scn) ∧
        u.rd (WRR_RXACK (port.val / 4)) = min (s.rd (WRR_RXACK (port.val / 4)) + 1) 0xFFFFFFFF) ∧
    (∀ (psn : BitVec 32) (u : State) (c : Subch) (q : WrrPkt), u = s.pauseOver (s.scPort n) → c = u.subch n →
      u.portOpen (u.scPort n) = true → c.state = 2 → c.window = [q] → q.psn = psn.toNat → q.resends < u.scField n 8 40 4 →
      ∃ v : State, exec (.rtoExpiry n psn) s = .next (v.count (WRR_RETX (u.scPort n / 4)) 1)) ∧
    (∀ u : State, u = s.pauseOver (s.scPort n) → (s.subch n).owner = some pn.val → (u.subch n).state = 3 → u.portOpen (u.scPort n) = true →
      u.rngFail = false → ∃ v, exec (.probe n) s = .next v ∧ ∃ f, v.outs = .wrr (s.scPort n) n 0 f :: s.outs) ∧
    (s.fbit (WRR_ST (s.scPort n / 4)) (16 + s.scPort n % 4) = false → 8 ≤ s.scDest n → (s.subch n).loaded = true →
      (s.subch n).state = 2 → exec (.linkHoldExpiry n) s = .next (s.goDown n 0xA)) ∧
    (∀ port : Fin 8,
      exec (.pcsAlignmentLoss port) s = .next (s.fset (WRR_ST (port.val / 4)) (16 + port.val % 4) 1 0) ∧
      exec (.pcsAlignmentReturn port) s = .next ((s.fset (WRR_ST (port.val / 4)) (16 + port.val % 4) 1 1).portGo port) ∧
      ∀ quanta : BitVec 16, s.portLive port = true → ∃ u, exec (.pauseFrameReceived port quanta) s = .next u ∧
        (s.fbit (WRR_CTL (port.val / 4)) 3 = false → u = s.count (WRR_PAUSE (port.val / 4)) 1)) ∧
    (∀ (p : Fin 2) (v : BitVec 32), v.toNat % 8 = 1 → s.fget (WRR_CTL p) 1 2 = 0 → s.readout.subch = [] →
      ∃ u : State, exec (.wrrCtlWrite p v) s = .next ((u.reeval (122 + 2 * p.val)).reeval (123 + 2 * p.val))) ∧
    (s.fget (CHS_P_LOSS pn) 16 7 = 1 → ∃ u, exec (.pop .pf pn) s = .next u ∧ u.fget (CHS_P_LOSS pn) 16 7 = 0) ∧
    exec (.clrsum .pf pn) s = .next ((s.wr (CHS_P_LSUM pn) 0).lossTag pn 0 0) ∧
    (∀ v : BitVec 32, v.toNat % 2 = 0 → (∀ m, m < 4 → s.subsOf m subReads = []) →
      exec (.chsCtlWrite v) s = .next ((s.wr CHS_CTL 0).fset CHS_ST 0 8 stOk))

/-- The commands of the security controller, of partitions, of power and of management complete with their own effect (R359 to R386, R392
to R411, R417 to R426, R435 to R439, R442 to R457). -/
def Sys2Proof.Claim.ServicesComplete : Prop :=
  ∀ (s : State) (pn : Pn) (d : Domain) (p : BitVec 8) (v : BitVec 32), s.up → s.canonical = true →
    (s.fbit SEC_CMD_ST 8 = false → ∀ (kid : Fin 16) (scope : Bool) (tgt : BitVec 4) (confirm : BitVec 8),
      ∀ c ∈ [Instr.keyGen .mgr kid, .kxBegin .mgr kid, .keyImport .mgr kid, .keyDestroy .mgr pn kid, .attest .mgr pn scope,
        .tokenInstall pn, .tokenRevoke .mgr pn, .idRead .mgr, .certInstall, .lcChallenge, .lcAdvance tgt confirm, .svnCommit],
      ∃ t, exec c s = .next t ∧ t.fbit SEC_CMD_ST 8 = true ∧ (tabFind t.sec.runs 0).isSome = true) ∧
    (∀ who r, s.sec.serving = some who → tabFind s.sec.runs who = some r → secIssuer r.op (who == 0) = true →
      s.lcs ∈ secStates r.op → r.arg = some [] → s.secOut who r ≠ none → s.sec.worn = false → r.op = 7 →
      tabFind s.sec.tokens r.pn ≠ none → exec .secCommandDone s = .next ((s.lapse r.pn).secEnds who stOk r.epoch)) ∧
    (∀ k, tabFind s.sec.tokens pn = some k → bits (wordAt k.body 16) 4 60 < s.time.tick →
      exec (.tokenLapse pn) s = .next (s.lapse pn)) ∧
    exec .rngHealthFailure s = .next (s.fset SEC_RNG 1 1 1) ∧
    (s.fbit (PRT_CMD_ST pn) 16 = false → (s.part pn).flr = 0 → s.lcs = 3 →
      let runs (c : Instr) (op : Nat) : Prop := ∃ (u : State) (x : PartSt), exec c s = .next (u.setPart pn x) ∧
        x.cmd = some (op, s.rd (PRT_ARG pn)) ∧ u.fbit (PRT_CMD_ST pn) 16 = true
      let f := argFirst (s.rd (PRT_ARG pn))
      let l := argLast (s.rd (PRT_ARG pn))
      (s.pstate pn = 0 → runs (.create pn) 1) ∧ (s.pstate pn = 2 → runs (.quiesce pn) 3) ∧
      (s.pstate pn = 1 →
        runs (.reset pn) 4 ∧ (s.holdsOn pn = false → runs (.remove pn) 5) ∧
        (s.fget (PRT_QSD pn) 0 16 ≠ 0 → s.fget (PRT_QRD pn) 0 16 ≠ 0 → s.fget (PRT_QHBM pn) 0 16 ≠ 0 → s.fget (PRT_QCW pn) 0 11 ≠ 0 →
          (s.pageTable pn).1 + (s.pageTable pn).2 ≤ hbmSize → s.unassigned (s.pageTable pn).1 (s.pageTable pn).2 = true →
          runs (.run pn) 2) ∧
        (f ≤ l → runs (.tlbinv pn) 8 ∧
          (s.owners = [] → (∀ a ∈ s.deviceAreas, rangesMeet a (pageBytes f l) = false) → runs (.pgAssign pn) 6) ∧
          (s.ringOf pn = none → (∀ q, f ≤ q → q ≤ l → s.owner q = some pn.val) → runs (.pgRelease pn) 7)))) ∧
    ((s.part pn).flr = 0 → (∃ a, (s.part pn).cmd = some (8, a)) →
      exec (.partitionCommandDone pn) s = .next (s.prtEnds pn stOk)) ∧
    (exec (.shareWrite pn .qsd 0x00010001) s = .next ((s.wr (PRT_QSD pn) 0x00010001).fset (PRT_CMD_ST pn) 8 8 stOk)) ∧
    exec .arbitrationEpoch s = .next (s.livePns.foldl (fun t q => t.epochOf q) (s.withArb { s.arb with epochs := s.arb.epochs + 1 })) ∧
    (s.vfOpen pn = true → s.pstate pn ≠ 0 → ∃ (u : State) (x : PartSt),
      exec (.stageDataAccess pn (some v)) s = .next ((u.setPart pn x).wr (PRT_STAGE_IDX pn) ((s.fget (PRT_STAGE_IDX pn) 0 7 + 1) % 128))) ∧
    (s.pstate pn = 0 → exec (.vfFlr pn) s = .next (s.vfConfigReset pn)) ∧
    (∃ t, exec .pfFlr s = .next t ∧ t.pf.vfEnable = false ∧ t.pf.tbl = []) ∧
    (s.underTest d = false → exec (.voteWrite (.dom d) v) s = .next
      (((s.fset (PWR_D_VOTE d) 0 4 v.toNat).fset PWR_ST 0 8 stOk).reeval d)) ∧
    (s.dphase d = 0 → s.dstate d < s.target d → 81 ≤ d.val →
      exec (.entryRequest d) s = .next ((s.setDom d { s.dom d with aim := s.target d, prev := s.dstate d }).fset (PWR_D_ST d) 4 2 1)) ∧
    (s.dphase d = 1 → (s.dom d).aim ≤ s.target d → (s.dom d).aim ≠ 3 →
      exec (.pointOfNoReturn d) s = .next (s.fset (PWR_D_ST d) 4 2 2)) ∧
    (s.dphase d = 2 → ∃ u : State, exec (.entryComplete d) s = .next (u.reeval d) ∧ u.dphase d = 0 ∧ u.dstate d = (s.dom d).aim % 4) ∧
    (s.dphase d = 3 → 122 ≤ d.val → ∃ (u : State) (x : DomSt), exec (.exitComplete d) s = .next (u.setDom d x) ∧ u.dphase d = 0 ∧
      u.dstate d = 0) ∧
    (∀ src : Fin 5, src.val < wakeSources d → s.underTest d = false → s.wakeOn d src = true → s.dphase d = 2 →
      exec (.wakeEvent d src) s = .next (s.setDom d { s.dom d with latch := (s.dom d).latch ++ [src.val] })) ∧
    (s.test = none → s.lcs = 1 →
      (∀ t : BitVec 8, t.toNat < 90 → t.toNat ≠ 72 → s.underTest t.toNat = false → s.unitInService t.toNat = false →
        exec (.unitTest t) s = .next (((s.withTest (some (.unit, t.toNat))).reeval t.toNat).wr BST_CMD_ST 0x100)) ∧
      (∀ t : BitVec 8, analogTarget t.toNat = true → s.unitInService t.toNat = false →
        exec (.analog t) s = .next ((s.withTest (some (.analog, t.toNat))).wr BST_CMD_ST 0x100)) ∧
      (∀ e : Nat, s.nextEngine = some e →
        (∃ u : State, exec .rotEng s = .next (u.wr BST_CMD_ST 0x100)) ∧
        (s.fbit BST_CTL 16 = true → ∃ u : State, exec .engineRotation s = .next (u.fset BST_CMD_ST 8 1 1)))) ∧
    (∀ t : Nat, s.test = some (.unit, t) → 106 ≤ t → ∃ u : State, u.test = none ∧
      exec .testOverrun s = .next (u.wr BST_CMD_ST stIncomplete) ∧
      (s.lcs ≠ 5 → exec .abort s = .next (u.wr BST_CMD_ST stIncomplete))) ∧
    (∀ (t : Nat) (misr : BitVec 64) (steps : BitVec 32), s.test = some (.unit, t) → 106 ≤ t →
      testRes t misr.toNat steps.toNat = .pass → ∃ u : State, u.test = none ∧
        exec (.testComplete misr steps) s = .next (u.wr BST_CMD_ST stOk)) ∧
    (∀ (t : BitVec 8) (chk : BitVec 4), analogTarget t.toNat = true →
      exec (.analogMonitorTrip t chk true) s = .next (s.wr BST_ANA (t.toNat * 2 ^ 24 + chk.toNat * 2 ^ 16 + 1))) ∧
    (∀ code : BitVec 16, ∃ t, exec (.nonRedundantFault code) s = .next t ∧ t.hold = some .fault ∧ t.mgmt.faultn = true) ∧
    (∀ b : BootInput, s.readout.powerFail = none → ∃ u : State, exec (.warmnAssert b) s = .next
      (((u.warmScope).fset MGT_ST 16 4 2).boot b (fun t => t.recoveryReport (u.rd SEC_SESSION) u.journalWords))) ∧
    (∀ b : BootInput, exec (.powerOnReset b) s = .next (s.powerOn.boot b State.sealReport)) ∧
    (∃ t, exec .pcieFundamentalReset s = .next t ∧ t.pf.tbl = [] ∧ t.pf.busMaster = false) ∧
    (s.fbit MGT_MBX_ST 8 = false →
      let arg := s.rd64 MGT_MBX_ARG_LO
      let a := s.rd MGT_MBX_ARG2
      let busy (c : Instr) : Prop := ∃ t, exec c s = .next t ∧ t.fbit MGT_MBX_ST 8 = true ∧ t.fget MGT_ST 0 8 = stOk
      (arg < 2 ^ 60 → s.tstate = 1 → ∃ t, exec (.timeset 0) s = .next t ∧ t.time.setV = some arg ∧ t.fbit MGT_MBX_ST 8 = true) ∧
      (∀ b : BootInput, arg = 0xA5A5 → exec (.warmReset 0 b) s = .next (s.warm 3 b)) ∧
      (p.toNat < 8 → s.fget (CLU_ST p.toNat) 8 2 = 0 → s.takeoverIn p.toNat = false →
        ∃ t, exec (.cluReset p) s = .next t ∧ t.fbit MGT_MBX_ST 8 = true) ∧
      (∀ q, p.toNat < 64 → s.ppOf p.toNat = some q → s.lpState p.toNat = 0 →
        ∃ t, exec (.pairReset p) s = .next t ∧ t.fbit MGT_MBX_ST 8 = true) ∧
      (a % 65536 = 0 → a < flashSize → s.inBootedSlot a 65536 = false → busy (.flashErase 0)) ∧
      (a = 0 → arg % 256 = 0 → arg + 256 ≤ hbmSize → s.inBootedSlot 0 256 = false → s.unassigned arg 256 = true →
        rangesMeet (s.rd64 SEC_KTAB_LO, 0x200000) (arg, 256) = false → busy (.flashWrite 1)) ∧
      (arg ≤ 1 → busy (.bootSelect 1)) ∧ busy (.logClear 0) ∧ (s.lcs = 1 → busy (.retiredClear 0))) ∧
    (s.fbit MGT_MBX_ST 8 = true → ∃ t, exec .mailboxCommandDone s = .next t ∧ t.rd MGT_MBX_ST = s.mgmt.mbxSt % 2 ^ 32) ∧
    (s.fbit NVS_ST 8 = false →
      (s.nvs.wearA < 10 ^ 9 → s.nvs.wearB < 10 ^ 9 → ∃ t rs, exec .store s = .next t ∧ t.nvs.cmd = some (true, rs)) ∧
      (∃ t, exec .reload s = .next t ∧ t.nvs.cmd = some (false, []))) ∧
    (∀ rs failed, s.nvs.cmd = some (false, rs) → ∃ t, exec (.nvsCommandDone failed) s = .next t ∧ t.nvs.cmd = none) ∧
    (s.storing = false → ∃ t, exec (.shadowWrite false (some v)) s = .next t ∧ t.fget NVS_ST 0 8 = stOk)

/-- Readout, security, partitions, power, self-test and management: where their commands complete. -/
def Obligations.ServiceCommandsComplete : Prop := Claim.ReadoutComplete ∧ Claim.ServicesComplete
end

