-- ==== Sys2Proof/Laws/State.lean ====
section
/-! SUPPORT. Laws of State: each field and each named part of the state after a field is replaced or a named update is made.
All are true by rfl. -/

namespace Sys2Proof.Machine

variable (s : State)

theorem State.rd_of {s t : State} (h : t.regs = s.regs) {p : Nat} : t.rd p = s.rd p := by
  unfold State.rd; rw [h]
theorem State.fget_of {s t : State} (h : t.regs = s.regs) {p q r : Nat} : t.fget p q r = s.fget p q r := by
  unfold State.fget State.rd; rw [h]
theorem State.fbit_of {s t : State} (h : t.regs = s.regs) {p q : Nat} : t.fbit p q = s.fbit p q := by
  unfold State.fbit State.fget State.rd; rw [h]
theorem State.rd64_of {s t : State} (h : t.regs = s.regs) {p : Nat} : t.rd64 p = s.rd64 p := by
  unfold State.rd64 State.rd; rw [h]
theorem State.hbmByte_of {s t : State} (h : t.hbm = s.hbm) {p : Nat} : t.hbmByte p = s.hbmByte p := by
  unfold State.hbmByte; rw [h]
theorem State.part_of {s t : State} (h : t.parts = s.parts) {p : Nat} : t.part p = s.part p := by
  unfold State.part; rw [h]
theorem State.lane_of {s t : State} (h : t.lanes = s.lanes) {p : Nat} : t.lane p = s.lane p := by
  unfold State.lane; rw [h]
theorem State.stream_of {s t : State} (h : t.streams = s.streams) {p : Nat} : t.stream p = s.stream p := by
  unfold State.stream; rw [h]
theorem State.eng_of {s t : State} (h : t.engines = s.engines) {p : Nat} : t.eng p = s.eng p := by
  unfold State.eng; rw [h]
theorem State.sub_of {s t : State} (h : t.subs = s.subs) {p : Nat} : t.sub p = s.sub p := by
  unfold State.sub; rw [h]
theorem State.core_of {s t : State} (h : t.cores = s.cores) {p : Nat} : t.core p = s.core p := by
  unfold State.core; rw [h]
theorem State.cluster_of {s t : State} (h : t.clusters = s.clusters) {p : Nat} : t.cluster p = s.cluster p := by
  unfold State.cluster; rw [h]
theorem State.lp_of {s t : State} (h : t.lps = s.lps) {p : Nat} : t.lp p = s.lp p := by
  unfold State.lp; rw [h]
theorem State.dom_of {s t : State} (h : t.doms = s.doms) {p : Nat} : t.dom p = s.dom p := by
  unfold State.dom; rw [h]
theorem State.slice_of {s t : State} (h : t.streams = s.streams) {p q : Nat} : t.slice p q = s.slice p q := by
  unfold State.slice State.stream; rw [h]
theorem State.pstate_of {s t : State} (h : t.regs = s.regs) {p : Nat} : t.pstate p = s.pstate p := by
  unfold State.pstate State.fget State.rd; rw [h]
theorem State.tstate_of {s t : State} (h : t.regs = s.regs) : t.tstate = s.tstate := by
  unfold State.tstate State.fget State.rd; rw [h]
@[simp] theorem State.withPending_pending (x) : (s.withPending x).pending = x := rfl
@[simp] theorem State.withPending_free (x) : (s.withPending x).free = s.free := rfl
@[simp] theorem State.withPending_regs (x) : (s.withPending x).regs = s.regs := rfl
@[simp] theorem State.withPending_hbm (x) : (s.withPending x).hbm = s.hbm := rfl
@[simp] theorem State.withPending_poison (x) : (s.withPending x).poison = s.poison := rfl
@[simp] theorem State.withPending_outs (x) : (s.withPending x).outs = s.outs := rfl
@[simp] theorem State.withPending_hold (x) : (s.withPending x).hold = s.hold := rfl
@[simp] theorem State.withPending_por (x) : (s.withPending x).por = s.por := rfl
@[simp] theorem State.withPending_time (x) : (s.withPending x).time = s.time := rfl
@[simp] theorem State.withPending_streams (x) : (s.withPending x).streams = s.streams := rfl
@[simp] theorem State.withPending_engines (x) : (s.withPending x).engines = s.engines := rfl
@[simp] theorem State.withPending_subs (x) : (s.withPending x).subs = s.subs := rfl
@[simp] theorem State.withPending_fabric (x) : (s.withPending x).fabric = s.fabric := rfl
@[simp] theorem State.withPending_pins (x) : (s.withPending x).pins = s.pins := rfl
@[simp] theorem State.withPending_lanes (x) : (s.withPending x).lanes = s.lanes := rfl
@[simp] theorem State.withPending_swcmd (x) : (s.withPending x).swcmd = s.swcmd := rfl
@[simp] theorem State.withPending_chan (x) : (s.withPending x).chan = s.chan := rfl
@[simp] theorem State.withPending_cores (x) : (s.withPending x).cores = s.cores := rfl
@[simp] theorem State.withPending_clusters (x) : (s.withPending x).clusters = s.clusters := rfl
@[simp] theorem State.withPending_taken (x) : (s.withPending x).taken = s.taken := rfl
@[simp] theorem State.withPending_mgmt (x) : (s.withPending x).mgmt = s.mgmt := rfl
@[simp] theorem State.withPending_pf (x) : (s.withPending x).pf = s.pf := rfl
@[simp] theorem State.withPending_parts (x) : (s.withPending x).parts = s.parts := rfl
@[simp] theorem State.withPending_owners (x) : (s.withPending x).owners = s.owners := rfl
@[simp] theorem State.withPending_creq (x) : (s.withPending x).creq = s.creq := rfl
@[simp] theorem State.withPending_lps (x) : (s.withPending x).lps = s.lps := rfl
@[simp] theorem State.withPending_doms (x) : (s.withPending x).doms = s.doms := rfl
@[simp] theorem State.withPending_nvs (x) : (s.withPending x).nvs = s.nvs := rfl
@[simp] theorem State.withPending_test (x) : (s.withPending x).test = s.test := rfl
@[simp] theorem State.withPending_ages (x) : (s.withPending x).ages = s.ages := rfl
@[simp] theorem State.withPending_readout (x) : (s.withPending x).readout = s.readout := rfl
@[simp] theorem State.withPending_sec (x) : (s.withPending x).sec = s.sec := rfl
@[simp] theorem State.withPending_arb (x) : (s.withPending x).arb = s.arb := rfl
@[simp] theorem State.withPending_jtag (x) : (s.withPending x).jtag = s.jtag := rfl
@[simp] theorem State.withFree_pending (x) : (s.withFree x).pending = s.pending := rfl
@[simp] theorem State.withFree_free (x) : (s.withFree x).free = x := rfl
@[simp] theorem State.withFree_regs (x) : (s.withFree x).regs = s.regs := rfl
@[simp] theorem State.withFree_hbm (x) : (s.withFree x).hbm = s.hbm := rfl
@[simp] theorem State.withFree_poison (x) : (s.withFree x).poison = s.poison := rfl
@[simp] theorem State.withFree_outs (x) : (s.withFree x).outs = s.outs := rfl
@[simp] theorem State.withFree_hold (x) : (s.withFree x).hold = s.hold := rfl
@[simp] theorem State.withFree_por (x) : (s.withFree x).por = s.por := rfl
@[simp] theorem State.withFree_time (x) : (s.withFree x).time = s.time := rfl
@[simp] theorem State.withFree_streams (x) : (s.withFree x).streams = s.streams := rfl
@[simp] theorem State.withFree_engines (x) : (s.withFree x).engines = s.engines := rfl
@[simp] theorem State.withFree_subs (x) : (s.withFree x).subs = s.subs := rfl
@[simp] theorem State.withFree_fabric (x) : (s.withFree x).fabric = s.fabric := rfl
@[simp] theorem State.withFree_pins (x) : (s.withFree x).pins = s.pins := rfl
@[simp] theorem State.withFree_lanes (x) : (s.withFree x).lanes = s.lanes := rfl
@[simp] theorem State.withFree_swcmd (x) : (s.withFree x).swcmd = s.swcmd := rfl
@[simp] theorem State.withFree_chan (x) : (s.withFree x).chan = s.chan := rfl
@[simp] theorem State.withFree_cores (x) : (s.withFree x).cores = s.cores := rfl
@[simp] theorem State.withFree_clusters (x) : (s.withFree x).clusters = s.clusters := rfl
@[simp] theorem State.withFree_taken (x) : (s.withFree x).taken = s.taken := rfl
@[simp] theorem State.withFree_mgmt (x) : (s.withFree x).mgmt = s.mgmt := rfl
@[simp] theorem State.withFree_pf (x) : (s.withFree x).pf = s.pf := rfl
@[simp] theorem State.withFree_parts (x) : (s.withFree x).parts = s.parts := rfl
@[simp] theorem State.withFree_owners (x) : (s.withFree x).owners = s.owners := rfl
@[simp] theorem State.withFree_creq (x) : (s.withFree x).creq = s.creq := rfl
@[simp] theorem State.withFree_lps (x) : (s.withFree x).lps = s.lps := rfl
@[simp] theorem State.withFree_doms (x) : (s.withFree x).doms = s.doms := rfl
@[simp] theorem State.withFree_nvs (x) : (s.withFree x).nvs = s.nvs := rfl
@[simp] theorem State.withFree_test (x) : (s.withFree x).test = s.test := rfl
@[simp] theorem State.withFree_ages (x) : (s.withFree x).ages = s.ages := rfl
@[simp] theorem State.withFree_readout (x) : (s.withFree x).readout = s.readout := rfl
@[simp] theorem State.withFree_sec (x) : (s.withFree x).sec = s.sec := rfl
@[simp] theorem State.withFree_arb (x) : (s.withFree x).arb = s.arb := rfl
@[simp] theorem State.withFree_jtag (x) : (s.withFree x).jtag = s.jtag := rfl
@[simp] theorem State.withRegs_pending (x) : (s.withRegs x).pending = s.pending := rfl
@[simp] theorem State.withRegs_free (x) : (s.withRegs x).free = s.free := rfl
@[simp] theorem State.withRegs_regs (x) : (s.withRegs x).regs = x := rfl
@[simp] theorem State.withRegs_hbm (x) : (s.withRegs x).hbm = s.hbm := rfl
@[simp] theorem State.withRegs_poison (x) : (s.withRegs x).poison = s.poison := rfl
@[simp] theorem State.withRegs_outs (x) : (s.withRegs x).outs = s.outs := rfl
@[simp] theorem State.withRegs_hold (x) : (s.withRegs x).hold = s.hold := rfl
@[simp] theorem State.withRegs_por (x) : (s.withRegs x).por = s.por := rfl
@[simp] theorem State.withRegs_time (x) : (s.withRegs x).time = s.time := rfl
@[simp] theorem State.withRegs_streams (x) : (s.withRegs x).streams = s.streams := rfl
@[simp] theorem State.withRegs_engines (x) : (s.withRegs x).engines = s.engines := rfl
@[simp] theorem State.withRegs_subs (x) : (s.withRegs x).subs = s.subs := rfl
@[simp] theorem State.withRegs_fabric (x) : (s.withRegs x).fabric = s.fabric := rfl
@[simp] theorem State.withRegs_pins (x) : (s.withRegs x).pins = s.pins := rfl
@[simp] theorem State.withRegs_lanes (x) : (s.withRegs x).lanes = s.lanes := rfl
@[simp] theorem State.withRegs_swcmd (x) : (s.withRegs x).swcmd = s.swcmd := rfl
@[simp] theorem State.withRegs_chan (x) : (s.withRegs x).chan = s.chan := rfl
@[simp] theorem State.withRegs_cores (x) : (s.withRegs x).cores = s.cores := rfl
@[simp] theorem State.withRegs_clusters (x) : (s.withRegs x).clusters = s.clusters := rfl
@[simp] theorem State.withRegs_taken (x) : (s.withRegs x).taken = s.taken := rfl
@[simp] theorem State.withRegs_mgmt (x) : (s.withRegs x).mgmt = s.mgmt := rfl
@[simp] theorem State.withRegs_pf (x) : (s.withRegs x).pf = s.pf := rfl
@[simp] theorem State.withRegs_parts (x) : (s.withRegs x).parts = s.parts := rfl
@[simp] theorem State.withRegs_owners (x) : (s.withRegs x).owners = s.owners := rfl
@[simp] theorem State.withRegs_creq (x) : (s.withRegs x).creq = s.creq := rfl
@[simp] theorem State.withRegs_lps (x) : (s.withRegs x).lps = s.lps := rfl
@[simp] theorem State.withRegs_doms (x) : (s.withRegs x).doms = s.doms := rfl
@[simp] theorem State.withRegs_nvs (x) : (s.withRegs x).nvs = s.nvs := rfl
@[simp] theorem State.withRegs_test (x) : (s.withRegs x).test = s.test := rfl
@[simp] theorem State.withRegs_ages (x) : (s.withRegs x).ages = s.ages := rfl
@[simp] theorem State.withRegs_readout (x) : (s.withRegs x).readout = s.readout := rfl
@[simp] theorem State.withRegs_sec (x) : (s.withRegs x).sec = s.sec := rfl
@[simp] theorem State.withRegs_arb (x) : (s.withRegs x).arb = s.arb := rfl
@[simp] theorem State.withRegs_jtag (x) : (s.withRegs x).jtag = s.jtag := rfl
@[simp] theorem State.withHbm_pending (x) : (s.withHbm x).pending = s.pending := rfl
@[simp] theorem State.withHbm_free (x) : (s.withHbm x).free = s.free := rfl
@[simp] theorem State.withHbm_regs (x) : (s.withHbm x).regs = s.regs := rfl
@[simp] theorem State.withHbm_hbm (x) : (s.withHbm x).hbm = x := rfl
@[simp] theorem State.withHbm_poison (x) : (s.withHbm x).poison = s.poison := rfl
@[simp] theorem State.withHbm_outs (x) : (s.withHbm x).outs = s.outs := rfl
@[simp] theorem State.withHbm_hold (x) : (s.withHbm x).hold = s.hold := rfl
@[simp] theorem State.withHbm_por (x) : (s.withHbm x).por = s.por := rfl
@[simp] theorem State.withHbm_time (x) : (s.withHbm x).time = s.time := rfl
@[simp] theorem State.withHbm_streams (x) : (s.withHbm x).streams = s.streams := rfl
@[simp] theorem State.withHbm_engines (x) : (s.withHbm x).engines = s.engines := rfl
@[simp] theorem State.withHbm_subs (x) : (s.withHbm x).subs = s.subs := rfl
@[simp] theorem State.withHbm_fabric (x) : (s.withHbm x).fabric = s.fabric := rfl
@[simp] theorem State.withHbm_pins (x) : (s.withHbm x).pins = s.pins := rfl
@[simp] theorem State.withHbm_lanes (x) : (s.withHbm x).lanes = s.lanes := rfl
@[simp] theorem State.withHbm_swcmd (x) : (s.withHbm x).swcmd = s.swcmd := rfl
@[simp] theorem State.withHbm_chan (x) : (s.withHbm x).chan = s.chan := rfl
@[simp] theorem State.withHbm_cores (x) : (s.withHbm x).cores = s.cores := rfl
@[simp] theorem State.withHbm_clusters (x) : (s.withHbm x).clusters = s.clusters := rfl
@[simp] theorem State.withHbm_taken (x) : (s.withHbm x).taken = s.taken := rfl
@[simp] theorem State.withHbm_mgmt (x) : (s.withHbm x).mgmt = s.mgmt := rfl
@[simp] theorem State.withHbm_pf (x) : (s.withHbm x).pf = s.pf := rfl
@[simp] theorem State.withHbm_parts (x) : (s.withHbm x).parts = s.parts := rfl
@[simp] theorem State.withHbm_owners (x) : (s.withHbm x).owners = s.owners := rfl
@[simp] theorem State.withHbm_creq (x) : (s.withHbm x).creq = s.creq := rfl
@[simp] theorem State.withHbm_lps (x) : (s.withHbm x).lps = s.lps := rfl
@[simp] theorem State.withHbm_doms (x) : (s.withHbm x).doms = s.doms := rfl
@[simp] theorem State.withHbm_nvs (x) : (s.withHbm x).nvs = s.nvs := rfl
@[simp] theorem State.withHbm_test (x) : (s.withHbm x).test = s.test := rfl
@[simp] theorem State.withHbm_ages (x) : (s.withHbm x).ages = s.ages := rfl
@[simp] theorem State.withHbm_readout (x) : (s.withHbm x).readout = s.readout := rfl
@[simp] theorem State.withHbm_sec (x) : (s.withHbm x).sec = s.sec := rfl
@[simp] theorem State.withHbm_arb (x) : (s.withHbm x).arb = s.arb := rfl
@[simp] theorem State.withHbm_jtag (x) : (s.withHbm x).jtag = s.jtag := rfl
@[simp] theorem State.withPoison_pending (x) : (s.withPoison x).pending = s.pending := rfl
@[simp] theorem State.withPoison_free (x) : (s.withPoison x).free = s.free := rfl
@[simp] theorem State.withPoison_regs (x) : (s.withPoison x).regs = s.regs := rfl
@[simp] theorem State.withPoison_hbm (x) : (s.withPoison x).hbm = s.hbm := rfl
@[simp] theorem State.withPoison_poison (x) : (s.withPoison x).poison = x := rfl
@[simp] theorem State.withPoison_outs (x) : (s.withPoison x).outs = s.outs := rfl
@[simp] theorem State.withPoison_hold (x) : (s.withPoison x).hold = s.hold := rfl
@[simp] theorem State.withPoison_por (x) : (s.withPoison x).por = s.por := rfl
@[simp] theorem State.withPoison_time (x) : (s.withPoison x).time = s.time := rfl
@[simp] theorem State.withPoison_streams (x) : (s.withPoison x).streams = s.streams := rfl
@[simp] theorem State.withPoison_engines (x) : (s.withPoison x).engines = s.engines := rfl
@[simp] theorem State.withPoison_subs (x) : (s.withPoison x).subs = s.subs := rfl
@[simp] theorem State.withPoison_fabric (x) : (s.withPoison x).fabric = s.fabric := rfl
@[simp] theorem State.withPoison_pins (x) : (s.withPoison x).pins = s.pins := rfl
@[simp] theorem State.withPoison_lanes (x) : (s.withPoison x).lanes = s.lanes := rfl
@[simp] theorem State.withPoison_swcmd (x) : (s.withPoison x).swcmd = s.swcmd := rfl
@[simp] theorem State.withPoison_chan (x) : (s.withPoison x).chan = s.chan := rfl
@[simp] theorem State.withPoison_cores (x) : (s.withPoison x).cores = s.cores := rfl
@[simp] theorem State.withPoison_clusters (x) : (s.withPoison x).clusters = s.clusters := rfl
@[simp] theorem State.withPoison_taken (x) : (s.withPoison x).taken = s.taken := rfl
@[simp] theorem State.withPoison_mgmt (x) : (s.withPoison x).mgmt = s.mgmt := rfl
@[simp] theorem State.withPoison_pf (x) : (s.withPoison x).pf = s.pf := rfl
@[simp] theorem State.withPoison_parts (x) : (s.withPoison x).parts = s.parts := rfl
@[simp] theorem State.withPoison_owners (x) : (s.withPoison x).owners = s.owners := rfl
@[simp] theorem State.withPoison_creq (x) : (s.withPoison x).creq = s.creq := rfl
@[simp] theorem State.withPoison_lps (x) : (s.withPoison x).lps = s.lps := rfl
@[simp] theorem State.withPoison_doms (x) : (s.withPoison x).doms = s.doms := rfl
@[simp] theorem State.withPoison_nvs (x) : (s.withPoison x).nvs = s.nvs := rfl
@[simp] theorem State.withPoison_test (x) : (s.withPoison x).test = s.test := rfl
@[simp] theorem State.withPoison_ages (x) : (s.withPoison x).ages = s.ages := rfl
@[simp] theorem State.withPoison_readout (x) : (s.withPoison x).readout = s.readout := rfl
@[simp] theorem State.withPoison_sec (x) : (s.withPoison x).sec = s.sec := rfl
@[simp] theorem State.withPoison_arb (x) : (s.withPoison x).arb = s.arb := rfl
@[simp] theorem State.withPoison_jtag (x) : (s.withPoison x).jtag = s.jtag := rfl
@[simp] theorem State.withOuts_pending (x) : (s.withOuts x).pending = s.pending := rfl
@[simp] theorem State.withOuts_free (x) : (s.withOuts x).free = s.free := rfl
@[simp] theorem State.withOuts_regs (x) : (s.withOuts x).regs = s.regs := rfl
@[simp] theorem State.withOuts_hbm (x) : (s.withOuts x).hbm = s.hbm := rfl
@[simp] theorem State.withOuts_poison (x) : (s.withOuts x).poison = s.poison := rfl
@[simp] theorem State.withOuts_outs (x) : (s.withOuts x).outs = x := rfl
@[simp] theorem State.withOuts_hold (x) : (s.withOuts x).hold = s.hold := rfl
@[simp] theorem State.withOuts_por (x) : (s.withOuts x).por = s.por := rfl
@[simp] theorem State.withOuts_time (x) : (s.withOuts x).time = s.time := rfl
@[simp] theorem State.withOuts_streams (x) : (s.withOuts x).streams = s.streams := rfl
@[simp] theorem State.withOuts_engines (x) : (s.withOuts x).engines = s.engines := rfl
@[simp] theorem State.withOuts_subs (x) : (s.withOuts x).subs = s.subs := rfl
@[simp] theorem State.withOuts_fabric (x) : (s.withOuts x).fabric = s.fabric := rfl
@[simp] theorem State.withOuts_pins (x) : (s.withOuts x).pins = s.pins := rfl
@[simp] theorem State.withOuts_lanes (x) : (s.withOuts x).lanes = s.lanes := rfl
@[simp] theorem State.withOuts_swcmd (x) : (s.withOuts x).swcmd = s.swcmd := rfl
@[simp] theorem State.withOuts_chan (x) : (s.withOuts x).chan = s.chan := rfl
@[simp] theorem State.withOuts_cores (x) : (s.withOuts x).cores = s.cores := rfl
@[simp] theorem State.withOuts_clusters (x) : (s.withOuts x).clusters = s.clusters := rfl
@[simp] theorem State.withOuts_taken (x) : (s.withOuts x).taken = s.taken := rfl
@[simp] theorem State.withOuts_mgmt (x) : (s.withOuts x).mgmt = s.mgmt := rfl
@[simp] theorem State.withOuts_pf (x) : (s.withOuts x).pf = s.pf := rfl
@[simp] theorem State.withOuts_parts (x) : (s.withOuts x).parts = s.parts := rfl
@[simp] theorem State.withOuts_owners (x) : (s.withOuts x).owners = s.owners := rfl
@[simp] theorem State.withOuts_creq (x) : (s.withOuts x).creq = s.creq := rfl
@[simp] theorem State.withOuts_lps (x) : (s.withOuts x).lps = s.lps := rfl
@[simp] theorem State.withOuts_doms (x) : (s.withOuts x).doms = s.doms := rfl
@[simp] theorem State.withOuts_nvs (x) : (s.withOuts x).nvs = s.nvs := rfl
@[simp] theorem State.withOuts_test (x) : (s.withOuts x).test = s.test := rfl
@[simp] theorem State.withOuts_ages (x) : (s.withOuts x).ages = s.ages := rfl
@[simp] theorem State.withOuts_readout (x) : (s.withOuts x).readout = s.readout := rfl
@[simp] theorem State.withOuts_sec (x) : (s.withOuts x).sec = s.sec := rfl
@[simp] theorem State.withOuts_arb (x) : (s.withOuts x).arb = s.arb := rfl
@[simp] theorem State.withOuts_jtag (x) : (s.withOuts x).jtag = s.jtag := rfl
@[simp] theorem State.withHold_pending (x) : (s.withHold x).pending = s.pending := rfl
@[simp] theorem State.withHold_free (x) : (s.withHold x).free = s.free := rfl
@[simp] theorem State.withHold_regs (x) : (s.withHold x).regs = s.regs := rfl
@[simp] theorem State.withHold_hbm (x) : (s.withHold x).hbm = s.hbm := rfl
@[simp] theorem State.withHold_poison (x) : (s.withHold x).poison = s.poison := rfl
@[simp] theorem State.withHold_outs (x) : (s.withHold x).outs = s.outs := rfl
@[simp] theorem State.withHold_hold (x) : (s.withHold x).hold = x := rfl
@[simp] theorem State.withHold_por (x) : (s.withHold x).por = s.por := rfl
@[simp] theorem State.withHold_time (x) : (s.withHold x).time = s.time := rfl
@[simp] theorem State.withHold_streams (x) : (s.withHold x).streams = s.streams := rfl
@[simp] theorem State.withHold_engines (x) : (s.withHold x).engines = s.engines := rfl
@[simp] theorem State.withHold_subs (x) : (s.withHold x).subs = s.subs := rfl
@[simp] theorem State.withHold_fabric (x) : (s.withHold x).fabric = s.fabric := rfl
@[simp] theorem State.withHold_pins (x) : (s.withHold x).pins = s.pins := rfl
@[simp] theorem State.withHold_lanes (x) : (s.withHold x).lanes = s.lanes := rfl
@[simp] theorem State.withHold_swcmd (x) : (s.withHold x).swcmd = s.swcmd := rfl
@[simp] theorem State.withHold_chan (x) : (s.withHold x).chan = s.chan := rfl
@[simp] theorem State.withHold_cores (x) : (s.withHold x).cores = s.cores := rfl
@[simp] theorem State.withHold_clusters (x) : (s.withHold x).clusters = s.clusters := rfl
@[simp] theorem State.withHold_taken (x) : (s.withHold x).taken = s.taken := rfl
@[simp] theorem State.withHold_mgmt (x) : (s.withHold x).mgmt = s.mgmt := rfl
@[simp] theorem State.withHold_pf (x) : (s.withHold x).pf = s.pf := rfl
@[simp] theorem State.withHold_parts (x) : (s.withHold x).parts = s.parts := rfl
@[simp] theorem State.withHold_owners (x) : (s.withHold x).owners = s.owners := rfl
@[simp] theorem State.withHold_creq (x) : (s.withHold x).creq = s.creq := rfl
@[simp] theorem State.withHold_lps (x) : (s.withHold x).lps = s.lps := rfl
@[simp] theorem State.withHold_doms (x) : (s.withHold x).doms = s.doms := rfl
@[simp] theorem State.withHold_nvs (x) : (s.withHold x).nvs = s.nvs := rfl
@[simp] theorem State.withHold_test (x) : (s.withHold x).test = s.test := rfl
@[simp] theorem State.withHold_ages (x) : (s.withHold x).ages = s.ages := rfl
@[simp] theorem State.withHold_readout (x) : (s.withHold x).readout = s.readout := rfl
@[simp] theorem State.withHold_sec (x) : (s.withHold x).sec = s.sec := rfl
@[simp] theorem State.withHold_arb (x) : (s.withHold x).arb = s.arb := rfl
@[simp] theorem State.withHold_jtag (x) : (s.withHold x).jtag = s.jtag := rfl
@[simp] theorem State.withPor_pending (x) : (s.withPor x).pending = s.pending := rfl
@[simp] theorem State.withPor_free (x) : (s.withPor x).free = s.free := rfl
@[simp] theorem State.withPor_regs (x) : (s.withPor x).regs = s.regs := rfl
@[simp] theorem State.withPor_hbm (x) : (s.withPor x).hbm = s.hbm := rfl
@[simp] theorem State.withPor_poison (x) : (s.withPor x).poison = s.poison := rfl
@[simp] theorem State.withPor_outs (x) : (s.withPor x).outs = s.outs := rfl
@[simp] theorem State.withPor_hold (x) : (s.withPor x).hold = s.hold := rfl
@[simp] theorem State.withPor_por (x) : (s.withPor x).por = x := rfl
@[simp] theorem State.withPor_time (x) : (s.withPor x).time = s.time := rfl
@[simp] theorem State.withPor_streams (x) : (s.withPor x).streams = s.streams := rfl
@[simp] theorem State.withPor_engines (x) : (s.withPor x).engines = s.engines := rfl
@[simp] theorem State.withPor_subs (x) : (s.withPor x).subs = s.subs := rfl
@[simp] theorem State.withPor_fabric (x) : (s.withPor x).fabric = s.fabric := rfl
@[simp] theorem State.withPor_pins (x) : (s.withPor x).pins = s.pins := rfl
@[simp] theorem State.withPor_lanes (x) : (s.withPor x).lanes = s.lanes := rfl
@[simp] theorem State.withPor_swcmd (x) : (s.withPor x).swcmd = s.swcmd := rfl
@[simp] theorem State.withPor_chan (x) : (s.withPor x).chan = s.chan := rfl
@[simp] theorem State.withPor_cores (x) : (s.withPor x).cores = s.cores := rfl
@[simp] theorem State.withPor_clusters (x) : (s.withPor x).clusters = s.clusters := rfl
@[simp] theorem State.withPor_taken (x) : (s.withPor x).taken = s.taken := rfl
@[simp] theorem State.withPor_mgmt (x) : (s.withPor x).mgmt = s.mgmt := rfl
@[simp] theorem State.withPor_pf (x) : (s.withPor x).pf = s.pf := rfl
@[simp] theorem State.withPor_parts (x) : (s.withPor x).parts = s.parts := rfl
@[simp] theorem State.withPor_owners (x) : (s.withPor x).owners = s.owners := rfl
@[simp] theorem State.withPor_creq (x) : (s.withPor x).creq = s.creq := rfl
@[simp] theorem State.withPor_lps (x) : (s.withPor x).lps = s.lps := rfl
@[simp] theorem State.withPor_doms (x) : (s.withPor x).doms = s.doms := rfl
@[simp] theorem State.withPor_nvs (x) : (s.withPor x).nvs = s.nvs := rfl
@[simp] theorem State.withPor_test (x) : (s.withPor x).test = s.test := rfl
@[simp] theorem State.withPor_ages (x) : (s.withPor x).ages = s.ages := rfl
@[simp] theorem State.withPor_readout (x) : (s.withPor x).readout = s.readout := rfl
@[simp] theorem State.withPor_sec (x) : (s.withPor x).sec = s.sec := rfl
@[simp] theorem State.withPor_arb (x) : (s.withPor x).arb = s.arb := rfl
@[simp] theorem State.withPor_jtag (x) : (s.withPor x).jtag = s.jtag := rfl
@[simp] theorem State.withTime_pending (x) : (s.withTime x).pending = s.pending := rfl
@[simp] theorem State.withTime_free (x) : (s.withTime x).free = s.free := rfl
@[simp] theorem State.withTime_regs (x) : (s.withTime x).regs = s.regs := rfl
@[simp] theorem State.withTime_hbm (x) : (s.withTime x).hbm = s.hbm := rfl
@[simp] theorem State.withTime_poison (x) : (s.withTime x).poison = s.poison := rfl
@[simp] theorem State.withTime_outs (x) : (s.withTime x).outs = s.outs := rfl
@[simp] theorem State.withTime_hold (x) : (s.withTime x).hold = s.hold := rfl
@[simp] theorem State.withTime_por (x) : (s.withTime x).por = s.por := rfl
@[simp] theorem State.withTime_time (x) : (s.withTime x).time = x := rfl
@[simp] theorem State.withTime_streams (x) : (s.withTime x).streams = s.streams := rfl
@[simp] theorem State.withTime_engines (x) : (s.withTime x).engines = s.engines := rfl
@[simp] theorem State.withTime_subs (x) : (s.withTime x).subs = s.subs := rfl
@[simp] theorem State.withTime_fabric (x) : (s.withTime x).fabric = s.fabric := rfl
@[simp] theorem State.withTime_pins (x) : (s.withTime x).pins = s.pins := rfl
@[simp] theorem State.withTime_lanes (x) : (s.withTime x).lanes = s.lanes := rfl
@[simp] theorem State.withTime_swcmd (x) : (s.withTime x).swcmd = s.swcmd := rfl
@[simp] theorem State.withTime_chan (x) : (s.withTime x).chan = s.chan := rfl
@[simp] theorem State.withTime_cores (x) : (s.withTime x).cores = s.cores := rfl
@[simp] theorem State.withTime_clusters (x) : (s.withTime x).clusters = s.clusters := rfl
@[simp] theorem State.withTime_taken (x) : (s.withTime x).taken = s.taken := rfl
@[simp] theorem State.withTime_mgmt (x) : (s.withTime x).mgmt = s.mgmt := rfl
@[simp] theorem State.withTime_pf (x) : (s.withTime x).pf = s.pf := rfl
@[simp] theorem State.withTime_parts (x) : (s.withTime x).parts = s.parts := rfl
@[simp] theorem State.withTime_owners (x) : (s.withTime x).owners = s.owners := rfl
@[simp] theorem State.withTime_creq (x) : (s.withTime x).creq = s.creq := rfl
@[simp] theorem State.withTime_lps (x) : (s.withTime x).lps = s.lps := rfl
@[simp] theorem State.withTime_doms (x) : (s.withTime x).doms = s.doms := rfl
@[simp] theorem State.withTime_nvs (x) : (s.withTime x).nvs = s.nvs := rfl
@[simp] theorem State.withTime_test (x) : (s.withTime x).test = s.test := rfl
@[simp] theorem State.withTime_ages (x) : (s.withTime x).ages = s.ages := rfl
@[simp] theorem State.withTime_readout (x) : (s.withTime x).readout = s.readout := rfl
@[simp] theorem State.withTime_sec (x) : (s.withTime x).sec = s.sec := rfl
@[simp] theorem State.withTime_arb (x) : (s.withTime x).arb = s.arb := rfl
@[simp] theorem State.withTime_jtag (x) : (s.withTime x).jtag = s.jtag := rfl
@[simp] theorem State.withStreams_pending (x) : (s.withStreams x).pending = s.pending := rfl
@[simp] theorem State.withStreams_free (x) : (s.withStreams x).free = s.free := rfl
@[simp] theorem State.withStreams_regs (x) : (s.withStreams x).regs = s.regs := rfl
@[simp] theorem State.withStreams_hbm (x) : (s.withStreams x).hbm = s.hbm := rfl
@[simp] theorem State.withStreams_poison (x) : (s.withStreams x).poison = s.poison := rfl
@[simp] theorem State.withStreams_outs (x) : (s.withStreams x).outs = s.outs := rfl
@[simp] theorem State.withStreams_hold (x) : (s.withStreams x).hold = s.hold := rfl
@[simp] theorem State.withStreams_por (x) : (s.withStreams x).por = s.por := rfl
@[simp] theorem State.withStreams_time (x) : (s.withStreams x).time = s.time := rfl
@[simp] theorem State.withStreams_streams (x) : (s.withStreams x).streams = x := rfl
@[simp] theorem State.withStreams_engines (x) : (s.withStreams x).engines = s.engines := rfl
@[simp] theorem State.withStreams_subs (x) : (s.withStreams x).subs = s.subs := rfl
@[simp] theorem State.withStreams_fabric (x) : (s.withStreams x).fabric = s.fabric := rfl
@[simp] theorem State.withStreams_pins (x) : (s.withStreams x).pins = s.pins := rfl
@[simp] theorem State.withStreams_lanes (x) : (s.withStreams x).lanes = s.lanes := rfl
@[simp] theorem State.withStreams_swcmd (x) : (s.withStreams x).swcmd = s.swcmd := rfl
@[simp] theorem State.withStreams_chan (x) : (s.withStreams x).chan = s.chan := rfl
@[simp] theorem State.withStreams_cores (x) : (s.withStreams x).cores = s.cores := rfl
@[simp] theorem State.withStreams_clusters (x) : (s.withStreams x).clusters = s.clusters := rfl
@[simp] theorem State.withStreams_taken (x) : (s.withStreams x).taken = s.taken := rfl
@[simp] theorem State.withStreams_mgmt (x) : (s.withStreams x).mgmt = s.mgmt := rfl
@[simp] theorem State.withStreams_pf (x) : (s.withStreams x).pf = s.pf := rfl
@[simp] theorem State.withStreams_parts (x) : (s.withStreams x).parts = s.parts := rfl
@[simp] theorem State.withStreams_owners (x) : (s.withStreams x).owners = s.owners := rfl
@[simp] theorem State.withStreams_creq (x) : (s.withStreams x).creq = s.creq := rfl
@[simp] theorem State.withStreams_lps (x) : (s.withStreams x).lps = s.lps := rfl
@[simp] theorem State.withStreams_doms (x) : (s.withStreams x).doms = s.doms := rfl
@[simp] theorem State.withStreams_nvs (x) : (s.withStreams x).nvs = s.nvs := rfl
@[simp] theorem State.withStreams_test (x) : (s.withStreams x).test = s.test := rfl
@[simp] theorem State.withStreams_ages (x) : (s.withStreams x).ages = s.ages := rfl
@[simp] theorem State.withStreams_readout (x) : (s.withStreams x).readout = s.readout := rfl
@[simp] theorem State.withStreams_sec (x) : (s.withStreams x).sec = s.sec := rfl
@[simp] theorem State.withStreams_arb (x) : (s.withStreams x).arb = s.arb := rfl
@[simp] theorem State.withStreams_jtag (x) : (s.withStreams x).jtag = s.jtag := rfl
@[simp] theorem State.withEngines_pending (x) : (s.withEngines x).pending = s.pending := rfl
@[simp] theorem State.withEngines_free (x) : (s.withEngines x).free = s.free := rfl
@[simp] theorem State.withEngines_regs (x) : (s.withEngines x).regs = s.regs := rfl
@[simp] theorem State.withEngines_hbm (x) : (s.withEngines x).hbm = s.hbm := rfl
@[simp] theorem State.withEngines_poison (x) : (s.withEngines x).poison = s.poison := rfl
@[simp] theorem State.withEngines_outs (x) : (s.withEngines x).outs = s.outs := rfl
@[simp] theorem State.withEngines_hold (x) : (s.withEngines x).hold = s.hold := rfl
@[simp] theorem State.withEngines_por (x) : (s.withEngines x).por = s.por := rfl
@[simp] theorem State.withEngines_time (x) : (s.withEngines x).time = s.time := rfl
@[simp] theorem State.withEngines_streams (x) : (s.withEngines x).streams = s.streams := rfl
@[simp] theorem State.withEngines_engines (x) : (s.withEngines x).engines = x := rfl
@[simp] theorem State.withEngines_subs (x) : (s.withEngines x).subs = s.subs := rfl
@[simp] theorem State.withEngines_fabric (x) : (s.withEngines x).fabric = s.fabric := rfl
@[simp] theorem State.withEngines_pins (x) : (s.withEngines x).pins = s.pins := rfl
@[simp] theorem State.withEngines_lanes (x) : (s.withEngines x).lanes = s.lanes := rfl
@[simp] theorem State.withEngines_swcmd (x) : (s.withEngines x).swcmd = s.swcmd := rfl
@[simp] theorem State.withEngines_chan (x) : (s.withEngines x).chan = s.chan := rfl
@[simp] theorem State.withEngines_cores (x) : (s.withEngines x).cores = s.cores := rfl
@[simp] theorem State.withEngines_clusters (x) : (s.withEngines x).clusters = s.clusters := rfl
@[simp] theorem State.withEngines_taken (x) : (s.withEngines x).taken = s.taken := rfl
@[simp] theorem State.withEngines_mgmt (x) : (s.withEngines x).mgmt = s.mgmt := rfl
@[simp] theorem State.withEngines_pf (x) : (s.withEngines x).pf = s.pf := rfl
@[simp] theorem State.withEngines_parts (x) : (s.withEngines x).parts = s.parts := rfl
@[simp] theorem State.withEngines_owners (x) : (s.withEngines x).owners = s.owners := rfl
@[simp] theorem State.withEngines_creq (x) : (s.withEngines x).creq = s.creq := rfl
@[simp] theorem State.withEngines_lps (x) : (s.withEngines x).lps = s.lps := rfl
@[simp] theorem State.withEngines_doms (x) : (s.withEngines x).doms = s.doms := rfl
@[simp] theorem State.withEngines_nvs (x) : (s.withEngines x).nvs = s.nvs := rfl
@[simp] theorem State.withEngines_test (x) : (s.withEngines x).test = s.test := rfl
@[simp] theorem State.withEngines_ages (x) : (s.withEngines x).ages = s.ages := rfl
@[simp] theorem State.withEngines_readout (x) : (s.withEngines x).readout = s.readout := rfl
@[simp] theorem State.withEngines_sec (x) : (s.withEngines x).sec = s.sec := rfl
@[simp] theorem State.withEngines_arb (x) : (s.withEngines x).arb = s.arb := rfl
@[simp] theorem State.withEngines_jtag (x) : (s.withEngines x).jtag = s.jtag := rfl
@[simp] theorem State.withSubs_pending (x) : (s.withSubs x).pending = s.pending := rfl
@[simp] theorem State.withSubs_free (x) : (s.withSubs x).free = s.free := rfl
@[simp] theorem State.withSubs_regs (x) : (s.withSubs x).regs = s.regs := rfl
@[simp] theorem State.withSubs_hbm (x) : (s.withSubs x).hbm = s.hbm := rfl
@[simp] theorem State.withSubs_poison (x) : (s.withSubs x).poison = s.poison := rfl
@[simp] theorem State.withSubs_outs (x) : (s.withSubs x).outs = s.outs := rfl
@[simp] theorem State.withSubs_hold (x) : (s.withSubs x).hold = s.hold := rfl
@[simp] theorem State.withSubs_por (x) : (s.withSubs x).por = s.por := rfl
@[simp] theorem State.withSubs_time (x) : (s.withSubs x).time = s.time := rfl
@[simp] theorem State.withSubs_streams (x) : (s.withSubs x).streams = s.streams := rfl
@[simp] theorem State.withSubs_engines (x) : (s.withSubs x).engines = s.engines := rfl
@[simp] theorem State.withSubs_subs (x) : (s.withSubs x).subs = x := rfl
@[simp] theorem State.withSubs_fabric (x) : (s.withSubs x).fabric = s.fabric := rfl
@[simp] theorem State.withSubs_pins (x) : (s.withSubs x).pins = s.pins := rfl
@[simp] theorem State.withSubs_lanes (x) : (s.withSubs x).lanes = s.lanes := rfl
@[simp] theorem State.withSubs_swcmd (x) : (s.withSubs x).swcmd = s.swcmd := rfl
@[simp] theorem State.withSubs_chan (x) : (s.withSubs x).chan = s.chan := rfl
@[simp] theorem State.withSubs_cores (x) : (s.withSubs x).cores = s.cores := rfl
@[simp] theorem State.withSubs_clusters (x) : (s.withSubs x).clusters = s.clusters := rfl
@[simp] theorem State.withSubs_taken (x) : (s.withSubs x).taken = s.taken := rfl
@[simp] theorem State.withSubs_mgmt (x) : (s.withSubs x).mgmt = s.mgmt := rfl
@[simp] theorem State.withSubs_pf (x) : (s.withSubs x).pf = s.pf := rfl
@[simp] theorem State.withSubs_parts (x) : (s.withSubs x).parts = s.parts := rfl
@[simp] theorem State.withSubs_owners (x) : (s.withSubs x).owners = s.owners := rfl
@[simp] theorem State.withSubs_creq (x) : (s.withSubs x).creq = s.creq := rfl
@[simp] theorem State.withSubs_lps (x) : (s.withSubs x).lps = s.lps := rfl
@[simp] theorem State.withSubs_doms (x) : (s.withSubs x).doms = s.doms := rfl
@[simp] theorem State.withSubs_nvs (x) : (s.withSubs x).nvs = s.nvs := rfl
@[simp] theorem State.withSubs_test (x) : (s.withSubs x).test = s.test := rfl
@[simp] theorem State.withSubs_ages (x) : (s.withSubs x).ages = s.ages := rfl
@[simp] theorem State.withSubs_readout (x) : (s.withSubs x).readout = s.readout := rfl
@[simp] theorem State.withSubs_sec (x) : (s.withSubs x).sec = s.sec := rfl
@[simp] theorem State.withSubs_arb (x) : (s.withSubs x).arb = s.arb := rfl
@[simp] theorem State.withSubs_jtag (x) : (s.withSubs x).jtag = s.jtag := rfl
@[simp] theorem State.withFabric_pending (x) : (s.withFabric x).pending = s.pending := rfl
@[simp] theorem State.withFabric_free (x) : (s.withFabric x).free = s.free := rfl
@[simp] theorem State.withFabric_regs (x) : (s.withFabric x).regs = s.regs := rfl
@[simp] theorem State.withFabric_hbm (x) : (s.withFabric x).hbm = s.hbm := rfl
@[simp] theorem State.withFabric_poison (x) : (s.withFabric x).poison = s.poison := rfl
@[simp] theorem State.withFabric_outs (x) : (s.withFabric x).outs = s.outs := rfl
@[simp] theorem State.withFabric_hold (x) : (s.withFabric x).hold = s.hold := rfl
@[simp] theorem State.withFabric_por (x) : (s.withFabric x).por = s.por := rfl
@[simp] theorem State.withFabric_time (x) : (s.withFabric x).time = s.time := rfl
@[simp] theorem State.withFabric_streams (x) : (s.withFabric x).streams = s.streams := rfl
@[simp] theorem State.withFabric_engines (x) : (s.withFabric x).engines = s.engines := rfl
@[simp] theorem State.withFabric_subs (x) : (s.withFabric x).subs = s.subs := rfl
@[simp] theorem State.withFabric_fabric (x) : (s.withFabric x).fabric = x := rfl
@[simp] theorem State.withFabric_pins (x) : (s.withFabric x).pins = s.pins := rfl
@[simp] theorem State.withFabric_lanes (x) : (s.withFabric x).lanes = s.lanes := rfl
@[simp] theorem State.withFabric_swcmd (x) : (s.withFabric x).swcmd = s.swcmd := rfl
@[simp] theorem State.withFabric_chan (x) : (s.withFabric x).chan = s.chan := rfl
@[simp] theorem State.withFabric_cores (x) : (s.withFabric x).cores = s.cores := rfl
@[simp] theorem State.withFabric_clusters (x) : (s.withFabric x).clusters = s.clusters := rfl
@[simp] theorem State.withFabric_taken (x) : (s.withFabric x).taken = s.taken := rfl
@[simp] theorem State.withFabric_mgmt (x) : (s.withFabric x).mgmt = s.mgmt := rfl
@[simp] theorem State.withFabric_pf (x) : (s.withFabric x).pf = s.pf := rfl
@[simp] theorem State.withFabric_parts (x) : (s.withFabric x).parts = s.parts := rfl
@[simp] theorem State.withFabric_owners (x) : (s.withFabric x).owners = s.owners := rfl
@[simp] theorem State.withFabric_creq (x) : (s.withFabric x).creq = s.creq := rfl
@[simp] theorem State.withFabric_lps (x) : (s.withFabric x).lps = s.lps := rfl
@[simp] theorem State.withFabric_doms (x) : (s.withFabric x).doms = s.doms := rfl
@[simp] theorem State.withFabric_nvs (x) : (s.withFabric x).nvs = s.nvs := rfl
@[simp] theorem State.withFabric_test (x) : (s.withFabric x).test = s.test := rfl
@[simp] theorem State.withFabric_ages (x) : (s.withFabric x).ages = s.ages := rfl
@[simp] theorem State.withFabric_readout (x) : (s.withFabric x).readout = s.readout := rfl
@[simp] theorem State.withFabric_sec (x) : (s.withFabric x).sec = s.sec := rfl
@[simp] theorem State.withFabric_arb (x) : (s.withFabric x).arb = s.arb := rfl
@[simp] theorem State.withFabric_jtag (x) : (s.withFabric x).jtag = s.jtag := rfl
@[simp] theorem State.withPins_pending (x) : (s.withPins x).pending = s.pending := rfl
@[simp] theorem State.withPins_free (x) : (s.withPins x).free = s.free := rfl
@[simp] theorem State.withPins_regs (x) : (s.withPins x).regs = s.regs := rfl
@[simp] theorem State.withPins_hbm (x) : (s.withPins x).hbm = s.hbm := rfl
@[simp] theorem State.withPins_poison (x) : (s.withPins x).poison = s.poison := rfl
@[simp] theorem State.withPins_outs (x) : (s.withPins x).outs = s.outs := rfl
@[simp] theorem State.withPins_hold (x) : (s.withPins x).hold = s.hold := rfl
@[simp] theorem State.withPins_por (x) : (s.withPins x).por = s.por := rfl
@[simp] theorem State.withPins_time (x) : (s.withPins x).time = s.time := rfl
@[simp] theorem State.withPins_streams (x) : (s.withPins x).streams = s.streams := rfl
@[simp] theorem State.withPins_engines (x) : (s.withPins x).engines = s.engines := rfl
@[simp] theorem State.withPins_subs (x) : (s.withPins x).subs = s.subs := rfl
@[simp] theorem State.withPins_fabric (x) : (s.withPins x).fabric = s.fabric := rfl
@[simp] theorem State.withPins_pins (x) : (s.withPins x).pins = x := rfl
@[simp] theorem State.withPins_lanes (x) : (s.withPins x).lanes = s.lanes := rfl
@[simp] theorem State.withPins_swcmd (x) : (s.withPins x).swcmd = s.swcmd := rfl
@[simp] theorem State.withPins_chan (x) : (s.withPins x).chan = s.chan := rfl
@[simp] theorem State.withPins_cores (x) : (s.withPins x).cores = s.cores := rfl
@[simp] theorem State.withPins_clusters (x) : (s.withPins x).clusters = s.clusters := rfl
@[simp] theorem State.withPins_taken (x) : (s.withPins x).taken = s.taken := rfl
@[simp] theorem State.withPins_mgmt (x) : (s.withPins x).mgmt = s.mgmt := rfl
@[simp] theorem State.withPins_pf (x) : (s.withPins x).pf = s.pf := rfl
@[simp] theorem State.withPins_parts (x) : (s.withPins x).parts = s.parts := rfl
@[simp] theorem State.withPins_owners (x) : (s.withPins x).owners = s.owners := rfl
@[simp] theorem State.withPins_creq (x) : (s.withPins x).creq = s.creq := rfl
@[simp] theorem State.withPins_lps (x) : (s.withPins x).lps = s.lps := rfl
@[simp] theorem State.withPins_doms (x) : (s.withPins x).doms = s.doms := rfl
@[simp] theorem State.withPins_nvs (x) : (s.withPins x).nvs = s.nvs := rfl
@[simp] theorem State.withPins_test (x) : (s.withPins x).test = s.test := rfl
@[simp] theorem State.withPins_ages (x) : (s.withPins x).ages = s.ages := rfl
@[simp] theorem State.withPins_readout (x) : (s.withPins x).readout = s.readout := rfl
@[simp] theorem State.withPins_sec (x) : (s.withPins x).sec = s.sec := rfl
@[simp] theorem State.withPins_arb (x) : (s.withPins x).arb = s.arb := rfl
@[simp] theorem State.withPins_jtag (x) : (s.withPins x).jtag = s.jtag := rfl
@[simp] theorem State.withLanes_pending (x) : (s.withLanes x).pending = s.pending := rfl
@[simp] theorem State.withLanes_free (x) : (s.withLanes x).free = s.free := rfl
@[simp] theorem State.withLanes_regs (x) : (s.withLanes x).regs = s.regs := rfl
@[simp] theorem State.withLanes_hbm (x) : (s.withLanes x).hbm = s.hbm := rfl
@[simp] theorem State.withLanes_poison (x) : (s.withLanes x).poison = s.poison := rfl
@[simp] theorem State.withLanes_outs (x) : (s.withLanes x).outs = s.outs := rfl
@[simp] theorem State.withLanes_hold (x) : (s.withLanes x).hold = s.hold := rfl
@[simp] theorem State.withLanes_por (x) : (s.withLanes x).por = s.por := rfl
@[simp] theorem State.withLanes_time (x) : (s.withLanes x).time = s.time := rfl
@[simp] theorem State.withLanes_streams (x) : (s.withLanes x).streams = s.streams := rfl
@[simp] theorem State.withLanes_engines (x) : (s.withLanes x).engines = s.engines := rfl
@[simp] theorem State.withLanes_subs (x) : (s.withLanes x).subs = s.subs := rfl
@[simp] theorem State.withLanes_fabric (x) : (s.withLanes x).fabric = s.fabric := rfl
@[simp] theorem State.withLanes_pins (x) : (s.withLanes x).pins = s.pins := rfl
@[simp] theorem State.withLanes_lanes (x) : (s.withLanes x).lanes = x := rfl
@[simp] theorem State.withLanes_swcmd (x) : (s.withLanes x).swcmd = s.swcmd := rfl
@[simp] theorem State.withLanes_chan (x) : (s.withLanes x).chan = s.chan := rfl
@[simp] theorem State.withLanes_cores (x) : (s.withLanes x).cores = s.cores := rfl
@[simp] theorem State.withLanes_clusters (x) : (s.withLanes x).clusters = s.clusters := rfl
@[simp] theorem State.withLanes_taken (x) : (s.withLanes x).taken = s.taken := rfl
@[simp] theorem State.withLanes_mgmt (x) : (s.withLanes x).mgmt = s.mgmt := rfl
@[simp] theorem State.withLanes_pf (x) : (s.withLanes x).pf = s.pf := rfl
@[simp] theorem State.withLanes_parts (x) : (s.withLanes x).parts = s.parts := rfl
@[simp] theorem State.withLanes_owners (x) : (s.withLanes x).owners = s.owners := rfl
@[simp] theorem State.withLanes_creq (x) : (s.withLanes x).creq = s.creq := rfl
@[simp] theorem State.withLanes_lps (x) : (s.withLanes x).lps = s.lps := rfl
@[simp] theorem State.withLanes_doms (x) : (s.withLanes x).doms = s.doms := rfl
@[simp] theorem State.withLanes_nvs (x) : (s.withLanes x).nvs = s.nvs := rfl
@[simp] theorem State.withLanes_test (x) : (s.withLanes x).test = s.test := rfl
@[simp] theorem State.withLanes_ages (x) : (s.withLanes x).ages = s.ages := rfl
@[simp] theorem State.withLanes_readout (x) : (s.withLanes x).readout = s.readout := rfl
@[simp] theorem State.withLanes_sec (x) : (s.withLanes x).sec = s.sec := rfl
@[simp] theorem State.withLanes_arb (x) : (s.withLanes x).arb = s.arb := rfl
@[simp] theorem State.withLanes_jtag (x) : (s.withLanes x).jtag = s.jtag := rfl
@[simp] theorem State.withSwcmd_pending (x) : (s.withSwcmd x).pending = s.pending := rfl
@[simp] theorem State.withSwcmd_free (x) : (s.withSwcmd x).free = s.free := rfl
@[simp] theorem State.withSwcmd_regs (x) : (s.withSwcmd x).regs = s.regs := rfl
@[simp] theorem State.withSwcmd_hbm (x) : (s.withSwcmd x).hbm = s.hbm := rfl
@[simp] theorem State.withSwcmd_poison (x) : (s.withSwcmd x).poison = s.poison := rfl
@[simp] theorem State.withSwcmd_outs (x) : (s.withSwcmd x).outs = s.outs := rfl
@[simp] theorem State.withSwcmd_hold (x) : (s.withSwcmd x).hold = s.hold := rfl
@[simp] theorem State.withSwcmd_por (x) : (s.withSwcmd x).por = s.por := rfl
@[simp] theorem State.withSwcmd_time (x) : (s.withSwcmd x).time = s.time := rfl
@[simp] theorem State.withSwcmd_streams (x) : (s.withSwcmd x).streams = s.streams := rfl
@[simp] theorem State.withSwcmd_engines (x) : (s.withSwcmd x).engines = s.engines := rfl
@[simp] theorem State.withSwcmd_subs (x) : (s.withSwcmd x).subs = s.subs := rfl
@[simp] theorem State.withSwcmd_fabric (x) : (s.withSwcmd x).fabric = s.fabric := rfl
@[simp] theorem State.withSwcmd_pins (x) : (s.withSwcmd x).pins = s.pins := rfl
@[simp] theorem State.withSwcmd_lanes (x) : (s.withSwcmd x).lanes = s.lanes := rfl
@[simp] theorem State.withSwcmd_swcmd (x) : (s.withSwcmd x).swcmd = x := rfl
@[simp] theorem State.withSwcmd_chan (x) : (s.withSwcmd x).chan = s.chan := rfl
@[simp] theorem State.withSwcmd_cores (x) : (s.withSwcmd x).cores = s.cores := rfl
@[simp] theorem State.withSwcmd_clusters (x) : (s.withSwcmd x).clusters = s.clusters := rfl
@[simp] theorem State.withSwcmd_taken (x) : (s.withSwcmd x).taken = s.taken := rfl
@[simp] theorem State.withSwcmd_mgmt (x) : (s.withSwcmd x).mgmt = s.mgmt := rfl
@[simp] theorem State.withSwcmd_pf (x) : (s.withSwcmd x).pf = s.pf := rfl
@[simp] theorem State.withSwcmd_parts (x) : (s.withSwcmd x).parts = s.parts := rfl
@[simp] theorem State.withSwcmd_owners (x) : (s.withSwcmd x).owners = s.owners := rfl
@[simp] theorem State.withSwcmd_creq (x) : (s.withSwcmd x).creq = s.creq := rfl
@[simp] theorem State.withSwcmd_lps (x) : (s.withSwcmd x).lps = s.lps := rfl
@[simp] theorem State.withSwcmd_doms (x) : (s.withSwcmd x).doms = s.doms := rfl
@[simp] theorem State.withSwcmd_nvs (x) : (s.withSwcmd x).nvs = s.nvs := rfl
@[simp] theorem State.withSwcmd_test (x) : (s.withSwcmd x).test = s.test := rfl
@[simp] theorem State.withSwcmd_ages (x) : (s.withSwcmd x).ages = s.ages := rfl
@[simp] theorem State.withSwcmd_readout (x) : (s.withSwcmd x).readout = s.readout := rfl
@[simp] theorem State.withSwcmd_sec (x) : (s.withSwcmd x).sec = s.sec := rfl
@[simp] theorem State.withSwcmd_arb (x) : (s.withSwcmd x).arb = s.arb := rfl
@[simp] theorem State.withSwcmd_jtag (x) : (s.withSwcmd x).jtag = s.jtag := rfl
@[simp] theorem State.withChan_pending (x) : (s.withChan x).pending = s.pending := rfl
@[simp] theorem State.withChan_free (x) : (s.withChan x).free = s.free := rfl
@[simp] theorem State.withChan_regs (x) : (s.withChan x).regs = s.regs := rfl
@[simp] theorem State.withChan_hbm (x) : (s.withChan x).hbm = s.hbm := rfl
@[simp] theorem State.withChan_poison (x) : (s.withChan x).poison = s.poison := rfl
@[simp] theorem State.withChan_outs (x) : (s.withChan x).outs = s.outs := rfl
@[simp] theorem State.withChan_hold (x) : (s.withChan x).hold = s.hold := rfl
@[simp] theorem State.withChan_por (x) : (s.withChan x).por = s.por := rfl
@[simp] theorem State.withChan_time (x) : (s.withChan x).time = s.time := rfl
@[simp] theorem State.withChan_streams (x) : (s.withChan x).streams = s.streams := rfl
@[simp] theorem State.withChan_engines (x) : (s.withChan x).engines = s.engines := rfl
@[simp] theorem State.withChan_subs (x) : (s.withChan x).subs = s.subs := rfl
@[simp] theorem State.withChan_fabric (x) : (s.withChan x).fabric = s.fabric := rfl
@[simp] theorem State.withChan_pins (x) : (s.withChan x).pins = s.pins := rfl
@[simp] theorem State.withChan_lanes (x) : (s.withChan x).lanes = s.lanes := rfl
@[simp] theorem State.withChan_swcmd (x) : (s.withChan x).swcmd = s.swcmd := rfl
@[simp] theorem State.withChan_chan (x) : (s.withChan x).chan = x := rfl
@[simp] theorem State.withChan_cores (x) : (s.withChan x).cores = s.cores := rfl
@[simp] theorem State.withChan_clusters (x) : (s.withChan x).clusters = s.clusters := rfl
@[simp] theorem State.withChan_taken (x) : (s.withChan x).taken = s.taken := rfl
@[simp] theorem State.withChan_mgmt (x) : (s.withChan x).mgmt = s.mgmt := rfl
@[simp] theorem State.withChan_pf (x) : (s.withChan x).pf = s.pf := rfl
@[simp] theorem State.withChan_parts (x) : (s.withChan x).parts = s.parts := rfl
@[simp] theorem State.withChan_owners (x) : (s.withChan x).owners = s.owners := rfl
@[simp] theorem State.withChan_creq (x) : (s.withChan x).creq = s.creq := rfl
@[simp] theorem State.withChan_lps (x) : (s.withChan x).lps = s.lps := rfl
@[simp] theorem State.withChan_doms (x) : (s.withChan x).doms = s.doms := rfl
@[simp] theorem State.withChan_nvs (x) : (s.withChan x).nvs = s.nvs := rfl
@[simp] theorem State.withChan_test (x) : (s.withChan x).test = s.test := rfl
@[simp] theorem State.withChan_ages (x) : (s.withChan x).ages = s.ages := rfl
@[simp] theorem State.withChan_readout (x) : (s.withChan x).readout = s.readout := rfl
@[simp] theorem State.withChan_sec (x) : (s.withChan x).sec = s.sec := rfl
@[simp] theorem State.withChan_arb (x) : (s.withChan x).arb = s.arb := rfl
@[simp] theorem State.withChan_jtag (x) : (s.withChan x).jtag = s.jtag := rfl
@[simp] theorem State.withCores_pending (x) : (s.withCores x).pending = s.pending := rfl
@[simp] theorem State.withCores_free (x) : (s.withCores x).free = s.free := rfl
@[simp] theorem State.withCores_regs (x) : (s.withCores x).regs = s.regs := rfl
@[simp] theorem State.withCores_hbm (x) : (s.withCores x).hbm = s.hbm := rfl
@[simp] theorem State.withCores_poison (x) : (s.withCores x).poison = s.poison := rfl
@[simp] theorem State.withCores_outs (x) : (s.withCores x).outs = s.outs := rfl
@[simp] theorem State.withCores_hold (x) : (s.withCores x).hold = s.hold := rfl
@[simp] theorem State.withCores_por (x) : (s.withCores x).por = s.por := rfl
@[simp] theorem State.withCores_time (x) : (s.withCores x).time = s.time := rfl
@[simp] theorem State.withCores_streams (x) : (s.withCores x).streams = s.streams := rfl
@[simp] theorem State.withCores_engines (x) : (s.withCores x).engines = s.engines := rfl
@[simp] theorem State.withCores_subs (x) : (s.withCores x).subs = s.subs := rfl
@[simp] theorem State.withCores_fabric (x) : (s.withCores x).fabric = s.fabric := rfl
@[simp] theorem State.withCores_pins (x) : (s.withCores x).pins = s.pins := rfl
@[simp] theorem State.withCores_lanes (x) : (s.withCores x).lanes = s.lanes := rfl
@[simp] theorem State.withCores_swcmd (x) : (s.withCores x).swcmd = s.swcmd := rfl
@[simp] theorem State.withCores_chan (x) : (s.withCores x).chan = s.chan := rfl
@[simp] theorem State.withCores_cores (x) : (s.withCores x).cores = x := rfl
@[simp] theorem State.withCores_clusters (x) : (s.withCores x).clusters = s.clusters := rfl
@[simp] theorem State.withCores_taken (x) : (s.withCores x).taken = s.taken := rfl
@[simp] theorem State.withCores_mgmt (x) : (s.withCores x).mgmt = s.mgmt := rfl
@[simp] theorem State.withCores_pf (x) : (s.withCores x).pf = s.pf := rfl
@[simp] theorem State.withCores_parts (x) : (s.withCores x).parts = s.parts := rfl
@[simp] theorem State.withCores_owners (x) : (s.withCores x).owners = s.owners := rfl
@[simp] theorem State.withCores_creq (x) : (s.withCores x).creq = s.creq := rfl
@[simp] theorem State.withCores_lps (x) : (s.withCores x).lps = s.lps := rfl
@[simp] theorem State.withCores_doms (x) : (s.withCores x).doms = s.doms := rfl
@[simp] theorem State.withCores_nvs (x) : (s.withCores x).nvs = s.nvs := rfl
@[simp] theorem State.withCores_test (x) : (s.withCores x).test = s.test := rfl
@[simp] theorem State.withCores_ages (x) : (s.withCores x).ages = s.ages := rfl
@[simp] theorem State.withCores_readout (x) : (s.withCores x).readout = s.readout := rfl
@[simp] theorem State.withCores_sec (x) : (s.withCores x).sec = s.sec := rfl
@[simp] theorem State.withCores_arb (x) : (s.withCores x).arb = s.arb := rfl
@[simp] theorem State.withCores_jtag (x) : (s.withCores x).jtag = s.jtag := rfl
@[simp] theorem State.withClusters_pending (x) : (s.withClusters x).pending = s.pending := rfl
@[simp] theorem State.withClusters_free (x) : (s.withClusters x).free = s.free := rfl
@[simp] theorem State.withClusters_regs (x) : (s.withClusters x).regs = s.regs := rfl
@[simp] theorem State.withClusters_hbm (x) : (s.withClusters x).hbm = s.hbm := rfl
@[simp] theorem State.withClusters_poison (x) : (s.withClusters x).poison = s.poison := rfl
@[simp] theorem State.withClusters_outs (x) : (s.withClusters x).outs = s.outs := rfl
@[simp] theorem State.withClusters_hold (x) : (s.withClusters x).hold = s.hold := rfl
@[simp] theorem State.withClusters_por (x) : (s.withClusters x).por = s.por := rfl
@[simp] theorem State.withClusters_time (x) : (s.withClusters x).time = s.time := rfl
@[simp] theorem State.withClusters_streams (x) : (s.withClusters x).streams = s.streams := rfl
@[simp] theorem State.withClusters_engines (x) : (s.withClusters x).engines = s.engines := rfl
@[simp] theorem State.withClusters_subs (x) : (s.withClusters x).subs = s.subs := rfl
@[simp] theorem State.withClusters_fabric (x) : (s.withClusters x).fabric = s.fabric := rfl
@[simp] theorem State.withClusters_pins (x) : (s.withClusters x).pins = s.pins := rfl
@[simp] theorem State.withClusters_lanes (x) : (s.withClusters x).lanes = s.lanes := rfl
@[simp] theorem State.withClusters_swcmd (x) : (s.withClusters x).swcmd = s.swcmd := rfl
@[simp] theorem State.withClusters_chan (x) : (s.withClusters x).chan = s.chan := rfl
@[simp] theorem State.withClusters_cores (x) : (s.withClusters x).cores = s.cores := rfl
@[simp] theorem State.withClusters_clusters (x) : (s.withClusters x).clusters = x := rfl
@[simp] theorem State.withClusters_taken (x) : (s.withClusters x).taken = s.taken := rfl
@[simp] theorem State.withClusters_mgmt (x) : (s.withClusters x).mgmt = s.mgmt := rfl
@[simp] theorem State.withClusters_pf (x) : (s.withClusters x).pf = s.pf := rfl
@[simp] theorem State.withClusters_parts (x) : (s.withClusters x).parts = s.parts := rfl
@[simp] theorem State.withClusters_owners (x) : (s.withClusters x).owners = s.owners := rfl
@[simp] theorem State.withClusters_creq (x) : (s.withClusters x).creq = s.creq := rfl
@[simp] theorem State.withClusters_lps (x) : (s.withClusters x).lps = s.lps := rfl
@[simp] theorem State.withClusters_doms (x) : (s.withClusters x).doms = s.doms := rfl
@[simp] theorem State.withClusters_nvs (x) : (s.withClusters x).nvs = s.nvs := rfl
@[simp] theorem State.withClusters_test (x) : (s.withClusters x).test = s.test := rfl
@[simp] theorem State.withClusters_ages (x) : (s.withClusters x).ages = s.ages := rfl
@[simp] theorem State.withClusters_readout (x) : (s.withClusters x).readout = s.readout := rfl
@[simp] theorem State.withClusters_sec (x) : (s.withClusters x).sec = s.sec := rfl
@[simp] theorem State.withClusters_arb (x) : (s.withClusters x).arb = s.arb := rfl
@[simp] theorem State.withClusters_jtag (x) : (s.withClusters x).jtag = s.jtag := rfl
@[simp] theorem State.withTaken_pending (x) : (s.withTaken x).pending = s.pending := rfl
@[simp] theorem State.withTaken_free (x) : (s.withTaken x).free = s.free := rfl
@[simp] theorem State.withTaken_regs (x) : (s.withTaken x).regs = s.regs := rfl
@[simp] theorem State.withTaken_hbm (x) : (s.withTaken x).hbm = s.hbm := rfl
@[simp] theorem State.withTaken_poison (x) : (s.withTaken x).poison = s.poison := rfl
@[simp] theorem State.withTaken_outs (x) : (s.withTaken x).outs = s.outs := rfl
@[simp] theorem State.withTaken_hold (x) : (s.withTaken x).hold = s.hold := rfl
@[simp] theorem State.withTaken_por (x) : (s.withTaken x).por = s.por := rfl
@[simp] theorem State.withTaken_time (x) : (s.withTaken x).time = s.time := rfl
@[simp] theorem State.withTaken_streams (x) : (s.withTaken x).streams = s.streams := rfl
@[simp] theorem State.withTaken_engines (x) : (s.withTaken x).engines = s.engines := rfl
@[simp] theorem State.withTaken_subs (x) : (s.withTaken x).subs = s.subs := rfl
@[simp] theorem State.withTaken_fabric (x) : (s.withTaken x).fabric = s.fabric := rfl
@[simp] theorem State.withTaken_pins (x) : (s.withTaken x).pins = s.pins := rfl
@[simp] theorem State.withTaken_lanes (x) : (s.withTaken x).lanes = s.lanes := rfl
@[simp] theorem State.withTaken_swcmd (x) : (s.withTaken x).swcmd = s.swcmd := rfl
@[simp] theorem State.withTaken_chan (x) : (s.withTaken x).chan = s.chan := rfl
@[simp] theorem State.withTaken_cores (x) : (s.withTaken x).cores = s.cores := rfl
@[simp] theorem State.withTaken_clusters (x) : (s.withTaken x).clusters = s.clusters := rfl
@[simp] theorem State.withTaken_taken (x) : (s.withTaken x).taken = x := rfl
@[simp] theorem State.withTaken_mgmt (x) : (s.withTaken x).mgmt = s.mgmt := rfl
@[simp] theorem State.withTaken_pf (x) : (s.withTaken x).pf = s.pf := rfl
@[simp] theorem State.withTaken_parts (x) : (s.withTaken x).parts = s.parts := rfl
@[simp] theorem State.withTaken_owners (x) : (s.withTaken x).owners = s.owners := rfl
@[simp] theorem State.withTaken_creq (x) : (s.withTaken x).creq = s.creq := rfl
@[simp] theorem State.withTaken_lps (x) : (s.withTaken x).lps = s.lps := rfl
@[simp] theorem State.withTaken_doms (x) : (s.withTaken x).doms = s.doms := rfl
@[simp] theorem State.withTaken_nvs (x) : (s.withTaken x).nvs = s.nvs := rfl
@[simp] theorem State.withTaken_test (x) : (s.withTaken x).test = s.test := rfl
@[simp] theorem State.withTaken_ages (x) : (s.withTaken x).ages = s.ages := rfl
@[simp] theorem State.withTaken_readout (x) : (s.withTaken x).readout = s.readout := rfl
@[simp] theorem State.withTaken_sec (x) : (s.withTaken x).sec = s.sec := rfl
@[simp] theorem State.withTaken_arb (x) : (s.withTaken x).arb = s.arb := rfl
@[simp] theorem State.withTaken_jtag (x) : (s.withTaken x).jtag = s.jtag := rfl
@[simp] theorem State.withMgmt_pending (x) : (s.withMgmt x).pending = s.pending := rfl
@[simp] theorem State.withMgmt_free (x) : (s.withMgmt x).free = s.free := rfl
@[simp] theorem State.withMgmt_regs (x) : (s.withMgmt x).regs = s.regs := rfl
@[simp] theorem State.withMgmt_hbm (x) : (s.withMgmt x).hbm = s.hbm := rfl
@[simp] theorem State.withMgmt_poison (x) : (s.withMgmt x).poison = s.poison := rfl
@[simp] theorem State.withMgmt_outs (x) : (s.withMgmt x).outs = s.outs := rfl
@[simp] theorem State.withMgmt_hold (x) : (s.withMgmt x).hold = s.hold := rfl
@[simp] theorem State.withMgmt_por (x) : (s.withMgmt x).por = s.por := rfl
@[simp] theorem State.withMgmt_time (x) : (s.withMgmt x).time = s.time := rfl
@[simp] theorem State.withMgmt_streams (x) : (s.withMgmt x).streams = s.streams := rfl
@[simp] theorem State.withMgmt_engines (x) : (s.withMgmt x).engines = s.engines := rfl
@[simp] theorem State.withMgmt_subs (x) : (s.withMgmt x).subs = s.subs := rfl
@[simp] theorem State.withMgmt_fabric (x) : (s.withMgmt x).fabric = s.fabric := rfl
@[simp] theorem State.withMgmt_pins (x) : (s.withMgmt x).pins = s.pins := rfl
@[simp] theorem State.withMgmt_lanes (x) : (s.withMgmt x).lanes = s.lanes := rfl
@[simp] theorem State.withMgmt_swcmd (x) : (s.withMgmt x).swcmd = s.swcmd := rfl
@[simp] theorem State.withMgmt_chan (x) : (s.withMgmt x).chan = s.chan := rfl
@[simp] theorem State.withMgmt_cores (x) : (s.withMgmt x).cores = s.cores := rfl
@[simp] theorem State.withMgmt_clusters (x) : (s.withMgmt x).clusters = s.clusters := rfl
@[simp] theorem State.withMgmt_taken (x) : (s.withMgmt x).taken = s.taken := rfl
@[simp] theorem State.withMgmt_mgmt (x) : (s.withMgmt x).mgmt = x := rfl
@[simp] theorem State.withMgmt_pf (x) : (s.withMgmt x).pf = s.pf := rfl
@[simp] theorem State.withMgmt_parts (x) : (s.withMgmt x).parts = s.parts := rfl
@[simp] theorem State.withMgmt_owners (x) : (s.withMgmt x).owners = s.owners := rfl
@[simp] theorem State.withMgmt_creq (x) : (s.withMgmt x).creq = s.creq := rfl
@[simp] theorem State.withMgmt_lps (x) : (s.withMgmt x).lps = s.lps := rfl
@[simp] theorem State.withMgmt_doms (x) : (s.withMgmt x).doms = s.doms := rfl
@[simp] theorem State.withMgmt_nvs (x) : (s.withMgmt x).nvs = s.nvs := rfl
@[simp] theorem State.withMgmt_test (x) : (s.withMgmt x).test = s.test := rfl
@[simp] theorem State.withMgmt_ages (x) : (s.withMgmt x).ages = s.ages := rfl
@[simp] theorem State.withMgmt_readout (x) : (s.withMgmt x).readout = s.readout := rfl
@[simp] theorem State.withMgmt_sec (x) : (s.withMgmt x).sec = s.sec := rfl
@[simp] theorem State.withMgmt_arb (x) : (s.withMgmt x).arb = s.arb := rfl
@[simp] theorem State.withMgmt_jtag (x) : (s.withMgmt x).jtag = s.jtag := rfl
@[simp] theorem State.withPf_pending (x) : (s.withPf x).pending = s.pending := rfl
@[simp] theorem State.withPf_free (x) : (s.withPf x).free = s.free := rfl
@[simp] theorem State.withPf_regs (x) : (s.withPf x).regs = s.regs := rfl
@[simp] theorem State.withPf_hbm (x) : (s.withPf x).hbm = s.hbm := rfl
@[simp] theorem State.withPf_poison (x) : (s.withPf x).poison = s.poison := rfl
@[simp] theorem State.withPf_outs (x) : (s.withPf x).outs = s.outs := rfl
@[simp] theorem State.withPf_hold (x) : (s.withPf x).hold = s.hold := rfl
@[simp] theorem State.withPf_por (x) : (s.withPf x).por = s.por := rfl
@[simp] theorem State.withPf_time (x) : (s.withPf x).time = s.time := rfl
@[simp] theorem State.withPf_streams (x) : (s.withPf x).streams = s.streams := rfl
@[simp] theorem State.withPf_engines (x) : (s.withPf x).engines = s.engines := rfl
@[simp] theorem State.withPf_subs (x) : (s.withPf x).subs = s.subs := rfl
@[simp] theorem State.withPf_fabric (x) : (s.withPf x).fabric = s.fabric := rfl
@[simp] theorem State.withPf_pins (x) : (s.withPf x).pins = s.pins := rfl
@[simp] theorem State.withPf_lanes (x) : (s.withPf x).lanes = s.lanes := rfl
@[simp] theorem State.withPf_swcmd (x) : (s.withPf x).swcmd = s.swcmd := rfl
@[simp] theorem State.withPf_chan (x) : (s.withPf x).chan = s.chan := rfl
@[simp] theorem State.withPf_cores (x) : (s.withPf x).cores = s.cores := rfl
@[simp] theorem State.withPf_clusters (x) : (s.withPf x).clusters = s.clusters := rfl
@[simp] theorem State.withPf_taken (x) : (s.withPf x).taken = s.taken := rfl
@[simp] theorem State.withPf_mgmt (x) : (s.withPf x).mgmt = s.mgmt := rfl
@[simp] theorem State.withPf_pf (x) : (s.withPf x).pf = x := rfl
@[simp] theorem State.withPf_parts (x) : (s.withPf x).parts = s.parts := rfl
@[simp] theorem State.withPf_owners (x) : (s.withPf x).owners = s.owners := rfl
@[simp] theorem State.withPf_creq (x) : (s.withPf x).creq = s.creq := rfl
@[simp] theorem State.withPf_lps (x) : (s.withPf x).lps = s.lps := rfl
@[simp] theorem State.withPf_doms (x) : (s.withPf x).doms = s.doms := rfl
@[simp] theorem State.withPf_nvs (x) : (s.withPf x).nvs = s.nvs := rfl
@[simp] theorem State.withPf_test (x) : (s.withPf x).test = s.test := rfl
@[simp] theorem State.withPf_ages (x) : (s.withPf x).ages = s.ages := rfl
@[simp] theorem State.withPf_readout (x) : (s.withPf x).readout = s.readout := rfl
@[simp] theorem State.withPf_sec (x) : (s.withPf x).sec = s.sec := rfl
@[simp] theorem State.withPf_arb (x) : (s.withPf x).arb = s.arb := rfl
@[simp] theorem State.withPf_jtag (x) : (s.withPf x).jtag = s.jtag := rfl
@[simp] theorem State.withParts_pending (x) : (s.withParts x).pending = s.pending := rfl
@[simp] theorem State.withParts_free (x) : (s.withParts x).free = s.free := rfl
@[simp] theorem State.withParts_regs (x) : (s.withParts x).regs = s.regs := rfl
@[simp] theorem State.withParts_hbm (x) : (s.withParts x).hbm = s.hbm := rfl
@[simp] theorem State.withParts_poison (x) : (s.withParts x).poison = s.poison := rfl
@[simp] theorem State.withParts_outs (x) : (s.withParts x).outs = s.outs := rfl
@[simp] theorem State.withParts_hold (x) : (s.withParts x).hold = s.hold := rfl
@[simp] theorem State.withParts_por (x) : (s.withParts x).por = s.por := rfl
@[simp] theorem State.withParts_time (x) : (s.withParts x).time = s.time := rfl
@[simp] theorem State.withParts_streams (x) : (s.withParts x).streams = s.streams := rfl
@[simp] theorem State.withParts_engines (x) : (s.withParts x).engines = s.engines := rfl
@[simp] theorem State.withParts_subs (x) : (s.withParts x).subs = s.subs := rfl
@[simp] theorem State.withParts_fabric (x) : (s.withParts x).fabric = s.fabric := rfl
@[simp] theorem State.withParts_pins (x) : (s.withParts x).pins = s.pins := rfl
@[simp] theorem State.withParts_lanes (x) : (s.withParts x).lanes = s.lanes := rfl
@[simp] theorem State.withParts_swcmd (x) : (s.withParts x).swcmd = s.swcmd := rfl
@[simp] theorem State.withParts_chan (x) : (s.withParts x).chan = s.chan := rfl
@[simp] theorem State.withParts_cores (x) : (s.withParts x).cores = s.cores := rfl
@[simp] theorem State.withParts_clusters (x) : (s.withParts x).clusters = s.clusters := rfl
@[simp] theorem State.withParts_taken (x) : (s.withParts x).taken = s.taken := rfl
@[simp] theorem State.withParts_mgmt (x) : (s.withParts x).mgmt = s.mgmt := rfl
@[simp] theorem State.withParts_pf (x) : (s.withParts x).pf = s.pf := rfl
@[simp] theorem State.withParts_parts (x) : (s.withParts x).parts = x := rfl
@[simp] theorem State.withParts_owners (x) : (s.withParts x).owners = s.owners := rfl
@[simp] theorem State.withParts_creq (x) : (s.withParts x).creq = s.creq := rfl
@[simp] theorem State.withParts_lps (x) : (s.withParts x).lps = s.lps := rfl
@[simp] theorem State.withParts_doms (x) : (s.withParts x).doms = s.doms := rfl
@[simp] theorem State.withParts_nvs (x) : (s.withParts x).nvs = s.nvs := rfl
@[simp] theorem State.withParts_test (x) : (s.withParts x).test = s.test := rfl
@[simp] theorem State.withParts_ages (x) : (s.withParts x).ages = s.ages := rfl
@[simp] theorem State.withParts_readout (x) : (s.withParts x).readout = s.readout := rfl
@[simp] theorem State.withParts_sec (x) : (s.withParts x).sec = s.sec := rfl
@[simp] theorem State.withParts_arb (x) : (s.withParts x).arb = s.arb := rfl
@[simp] theorem State.withParts_jtag (x) : (s.withParts x).jtag = s.jtag := rfl
@[simp] theorem State.withOwners_pending (x) : (s.withOwners x).pending = s.pending := rfl
@[simp] theorem State.withOwners_free (x) : (s.withOwners x).free = s.free := rfl
@[simp] theorem State.withOwners_regs (x) : (s.withOwners x).regs = s.regs := rfl
@[simp] theorem State.withOwners_hbm (x) : (s.withOwners x).hbm = s.hbm := rfl
@[simp] theorem State.withOwners_poison (x) : (s.withOwners x).poison = s.poison := rfl
@[simp] theorem State.withOwners_outs (x) : (s.withOwners x).outs = s.outs := rfl
@[simp] theorem State.withOwners_hold (x) : (s.withOwners x).hold = s.hold := rfl
@[simp] theorem State.withOwners_por (x) : (s.withOwners x).por = s.por := rfl
@[simp] theorem State.withOwners_time (x) : (s.withOwners x).time = s.time := rfl
@[simp] theorem State.withOwners_streams (x) : (s.withOwners x).streams = s.streams := rfl
@[simp] theorem State.withOwners_engines (x) : (s.withOwners x).engines = s.engines := rfl
@[simp] theorem State.withOwners_subs (x) : (s.withOwners x).subs = s.subs := rfl
@[simp] theorem State.withOwners_fabric (x) : (s.withOwners x).fabric = s.fabric := rfl
@[simp] theorem State.withOwners_pins (x) : (s.withOwners x).pins = s.pins := rfl
@[simp] theorem State.withOwners_lanes (x) : (s.withOwners x).lanes = s.lanes := rfl
@[simp] theorem State.withOwners_swcmd (x) : (s.withOwners x).swcmd = s.swcmd := rfl
@[simp] theorem State.withOwners_chan (x) : (s.withOwners x).chan = s.chan := rfl
@[simp] theorem State.withOwners_cores (x) : (s.withOwners x).cores = s.cores := rfl
@[simp] theorem State.withOwners_clusters (x) : (s.withOwners x).clusters = s.clusters := rfl
@[simp] theorem State.withOwners_taken (x) : (s.withOwners x).taken = s.taken := rfl
@[simp] theorem State.withOwners_mgmt (x) : (s.withOwners x).mgmt = s.mgmt := rfl
@[simp] theorem State.withOwners_pf (x) : (s.withOwners x).pf = s.pf := rfl
@[simp] theorem State.withOwners_parts (x) : (s.withOwners x).parts = s.parts := rfl
@[simp] theorem State.withOwners_owners (x) : (s.withOwners x).owners = x := rfl
@[simp] theorem State.withOwners_creq (x) : (s.withOwners x).creq = s.creq := rfl
@[simp] theorem State.withOwners_lps (x) : (s.withOwners x).lps = s.lps := rfl
@[simp] theorem State.withOwners_doms (x) : (s.withOwners x).doms = s.doms := rfl
@[simp] theorem State.withOwners_nvs (x) : (s.withOwners x).nvs = s.nvs := rfl
@[simp] theorem State.withOwners_test (x) : (s.withOwners x).test = s.test := rfl
@[simp] theorem State.withOwners_ages (x) : (s.withOwners x).ages = s.ages := rfl
@[simp] theorem State.withOwners_readout (x) : (s.withOwners x).readout = s.readout := rfl
@[simp] theorem State.withOwners_sec (x) : (s.withOwners x).sec = s.sec := rfl
@[simp] theorem State.withOwners_arb (x) : (s.withOwners x).arb = s.arb := rfl
@[simp] theorem State.withOwners_jtag (x) : (s.withOwners x).jtag = s.jtag := rfl
@[simp] theorem State.withCreq_pending (x) : (s.withCreq x).pending = s.pending := rfl
@[simp] theorem State.withCreq_free (x) : (s.withCreq x).free = s.free := rfl
@[simp] theorem State.withCreq_regs (x) : (s.withCreq x).regs = s.regs := rfl
@[simp] theorem State.withCreq_hbm (x) : (s.withCreq x).hbm = s.hbm := rfl
@[simp] theorem State.withCreq_poison (x) : (s.withCreq x).poison = s.poison := rfl
@[simp] theorem State.withCreq_outs (x) : (s.withCreq x).outs = s.outs := rfl
@[simp] theorem State.withCreq_hold (x) : (s.withCreq x).hold = s.hold := rfl
@[simp] theorem State.withCreq_por (x) : (s.withCreq x).por = s.por := rfl
@[simp] theorem State.withCreq_time (x) : (s.withCreq x).time = s.time := rfl
@[simp] theorem State.withCreq_streams (x) : (s.withCreq x).streams = s.streams := rfl
@[simp] theorem State.withCreq_engines (x) : (s.withCreq x).engines = s.engines := rfl
@[simp] theorem State.withCreq_subs (x) : (s.withCreq x).subs = s.subs := rfl
@[simp] theorem State.withCreq_fabric (x) : (s.withCreq x).fabric = s.fabric := rfl
@[simp] theorem State.withCreq_pins (x) : (s.withCreq x).pins = s.pins := rfl
@[simp] theorem State.withCreq_lanes (x) : (s.withCreq x).lanes = s.lanes := rfl
@[simp] theorem State.withCreq_swcmd (x) : (s.withCreq x).swcmd = s.swcmd := rfl
@[simp] theorem State.withCreq_chan (x) : (s.withCreq x).chan = s.chan := rfl
@[simp] theorem State.withCreq_cores (x) : (s.withCreq x).cores = s.cores := rfl
@[simp] theorem State.withCreq_clusters (x) : (s.withCreq x).clusters = s.clusters := rfl
@[simp] theorem State.withCreq_taken (x) : (s.withCreq x).taken = s.taken := rfl
@[simp] theorem State.withCreq_mgmt (x) : (s.withCreq x).mgmt = s.mgmt := rfl
@[simp] theorem State.withCreq_pf (x) : (s.withCreq x).pf = s.pf := rfl
@[simp] theorem State.withCreq_parts (x) : (s.withCreq x).parts = s.parts := rfl
@[simp] theorem State.withCreq_owners (x) : (s.withCreq x).owners = s.owners := rfl
@[simp] theorem State.withCreq_creq (x) : (s.withCreq x).creq = x := rfl
@[simp] theorem State.withCreq_lps (x) : (s.withCreq x).lps = s.lps := rfl
@[simp] theorem State.withCreq_doms (x) : (s.withCreq x).doms = s.doms := rfl
@[simp] theorem State.withCreq_nvs (x) : (s.withCreq x).nvs = s.nvs := rfl
@[simp] theorem State.withCreq_test (x) : (s.withCreq x).test = s.test := rfl
@[simp] theorem State.withCreq_ages (x) : (s.withCreq x).ages = s.ages := rfl
@[simp] theorem State.withCreq_readout (x) : (s.withCreq x).readout = s.readout := rfl
@[simp] theorem State.withCreq_sec (x) : (s.withCreq x).sec = s.sec := rfl
@[simp] theorem State.withCreq_arb (x) : (s.withCreq x).arb = s.arb := rfl
@[simp] theorem State.withCreq_jtag (x) : (s.withCreq x).jtag = s.jtag := rfl
@[simp] theorem State.withLps_pending (x) : (s.withLps x).pending = s.pending := rfl
@[simp] theorem State.withLps_free (x) : (s.withLps x).free = s.free := rfl
@[simp] theorem State.withLps_regs (x) : (s.withLps x).regs = s.regs := rfl
@[simp] theorem State.withLps_hbm (x) : (s.withLps x).hbm = s.hbm := rfl
@[simp] theorem State.withLps_poison (x) : (s.withLps x).poison = s.poison := rfl
@[simp] theorem State.withLps_outs (x) : (s.withLps x).outs = s.outs := rfl
@[simp] theorem State.withLps_hold (x) : (s.withLps x).hold = s.hold := rfl
@[simp] theorem State.withLps_por (x) : (s.withLps x).por = s.por := rfl
@[simp] theorem State.withLps_time (x) : (s.withLps x).time = s.time := rfl
@[simp] theorem State.withLps_streams (x) : (s.withLps x).streams = s.streams := rfl
@[simp] theorem State.withLps_engines (x) : (s.withLps x).engines = s.engines := rfl
@[simp] theorem State.withLps_subs (x) : (s.withLps x).subs = s.subs := rfl
@[simp] theorem State.withLps_fabric (x) : (s.withLps x).fabric = s.fabric := rfl
@[simp] theorem State.withLps_pins (x) : (s.withLps x).pins = s.pins := rfl
@[simp] theorem State.withLps_lanes (x) : (s.withLps x).lanes = s.lanes := rfl
@[simp] theorem State.withLps_swcmd (x) : (s.withLps x).swcmd = s.swcmd := rfl
@[simp] theorem State.withLps_chan (x) : (s.withLps x).chan = s.chan := rfl
@[simp] theorem State.withLps_cores (x) : (s.withLps x).cores = s.cores := rfl
@[simp] theorem State.withLps_clusters (x) : (s.withLps x).clusters = s.clusters := rfl
@[simp] theorem State.withLps_taken (x) : (s.withLps x).taken = s.taken := rfl
@[simp] theorem State.withLps_mgmt (x) : (s.withLps x).mgmt = s.mgmt := rfl
@[simp] theorem State.withLps_pf (x) : (s.withLps x).pf = s.pf := rfl
@[simp] theorem State.withLps_parts (x) : (s.withLps x).parts = s.parts := rfl
@[simp] theorem State.withLps_owners (x) : (s.withLps x).owners = s.owners := rfl
@[simp] theorem State.withLps_creq (x) : (s.withLps x).creq = s.creq := rfl
@[simp] theorem State.withLps_lps (x) : (s.withLps x).lps = x := rfl
@[simp] theorem State.withLps_doms (x) : (s.withLps x).doms = s.doms := rfl
@[simp] theorem State.withLps_nvs (x) : (s.withLps x).nvs = s.nvs := rfl
@[simp] theorem State.withLps_test (x) : (s.withLps x).test = s.test := rfl
@[simp] theorem State.withLps_ages (x) : (s.withLps x).ages = s.ages := rfl
@[simp] theorem State.withLps_readout (x) : (s.withLps x).readout = s.readout := rfl
@[simp] theorem State.withLps_sec (x) : (s.withLps x).sec = s.sec := rfl
@[simp] theorem State.withLps_arb (x) : (s.withLps x).arb = s.arb := rfl
@[simp] theorem State.withLps_jtag (x) : (s.withLps x).jtag = s.jtag := rfl
@[simp] theorem State.withDoms_pending (x) : (s.withDoms x).pending = s.pending := rfl
@[simp] theorem State.withDoms_free (x) : (s.withDoms x).free = s.free := rfl
@[simp] theorem State.withDoms_regs (x) : (s.withDoms x).regs = s.regs := rfl
@[simp] theorem State.withDoms_hbm (x) : (s.withDoms x).hbm = s.hbm := rfl
@[simp] theorem State.withDoms_poison (x) : (s.withDoms x).poison = s.poison := rfl
@[simp] theorem State.withDoms_outs (x) : (s.withDoms x).outs = s.outs := rfl
@[simp] theorem State.withDoms_hold (x) : (s.withDoms x).hold = s.hold := rfl
@[simp] theorem State.withDoms_por (x) : (s.withDoms x).por = s.por := rfl
@[simp] theorem State.withDoms_time (x) : (s.withDoms x).time = s.time := rfl
@[simp] theorem State.withDoms_streams (x) : (s.withDoms x).streams = s.streams := rfl
@[simp] theorem State.withDoms_engines (x) : (s.withDoms x).engines = s.engines := rfl
@[simp] theorem State.withDoms_subs (x) : (s.withDoms x).subs = s.subs := rfl
@[simp] theorem State.withDoms_fabric (x) : (s.withDoms x).fabric = s.fabric := rfl
@[simp] theorem State.withDoms_pins (x) : (s.withDoms x).pins = s.pins := rfl
@[simp] theorem State.withDoms_lanes (x) : (s.withDoms x).lanes = s.lanes := rfl
@[simp] theorem State.withDoms_swcmd (x) : (s.withDoms x).swcmd = s.swcmd := rfl
@[simp] theorem State.withDoms_chan (x) : (s.withDoms x).chan = s.chan := rfl
@[simp] theorem State.withDoms_cores (x) : (s.withDoms x).cores = s.cores := rfl
@[simp] theorem State.withDoms_clusters (x) : (s.withDoms x).clusters = s.clusters := rfl
@[simp] theorem State.withDoms_taken (x) : (s.withDoms x).taken = s.taken := rfl
@[simp] theorem State.withDoms_mgmt (x) : (s.withDoms x).mgmt = s.mgmt := rfl
@[simp] theorem State.withDoms_pf (x) : (s.withDoms x).pf = s.pf := rfl
@[simp] theorem State.withDoms_parts (x) : (s.withDoms x).parts = s.parts := rfl
@[simp] theorem State.withDoms_owners (x) : (s.withDoms x).owners = s.owners := rfl
@[simp] theorem State.withDoms_creq (x) : (s.withDoms x).creq = s.creq := rfl
@[simp] theorem State.withDoms_lps (x) : (s.withDoms x).lps = s.lps := rfl
@[simp] theorem State.withDoms_doms (x) : (s.withDoms x).doms = x := rfl
@[simp] theorem State.withDoms_nvs (x) : (s.withDoms x).nvs = s.nvs := rfl
@[simp] theorem State.withDoms_test (x) : (s.withDoms x).test = s.test := rfl
@[simp] theorem State.withDoms_ages (x) : (s.withDoms x).ages = s.ages := rfl
@[simp] theorem State.withDoms_readout (x) : (s.withDoms x).readout = s.readout := rfl
@[simp] theorem State.withDoms_sec (x) : (s.withDoms x).sec = s.sec := rfl
@[simp] theorem State.withDoms_arb (x) : (s.withDoms x).arb = s.arb := rfl
@[simp] theorem State.withDoms_jtag (x) : (s.withDoms x).jtag = s.jtag := rfl
@[simp] theorem State.withNvs_pending (x) : (s.withNvs x).pending = s.pending := rfl
@[simp] theorem State.withNvs_free (x) : (s.withNvs x).free = s.free := rfl
@[simp] theorem State.withNvs_regs (x) : (s.withNvs x).regs = s.regs := rfl
@[simp] theorem State.withNvs_hbm (x) : (s.withNvs x).hbm = s.hbm := rfl
@[simp] theorem State.withNvs_poison (x) : (s.withNvs x).poison = s.poison := rfl
@[simp] theorem State.withNvs_outs (x) : (s.withNvs x).outs = s.outs := rfl
@[simp] theorem State.withNvs_hold (x) : (s.withNvs x).hold = s.hold := rfl
@[simp] theorem State.withNvs_por (x) : (s.withNvs x).por = s.por := rfl
@[simp] theorem State.withNvs_time (x) : (s.withNvs x).time = s.time := rfl
@[simp] theorem State.withNvs_streams (x) : (s.withNvs x).streams = s.streams := rfl
@[simp] theorem State.withNvs_engines (x) : (s.withNvs x).engines = s.engines := rfl
@[simp] theorem State.withNvs_subs (x) : (s.withNvs x).subs = s.subs := rfl
@[simp] theorem State.withNvs_fabric (x) : (s.withNvs x).fabric = s.fabric := rfl
@[simp] theorem State.withNvs_pins (x) : (s.withNvs x).pins = s.pins := rfl
@[simp] theorem State.withNvs_lanes (x) : (s.withNvs x).lanes = s.lanes := rfl
@[simp] theorem State.withNvs_swcmd (x) : (s.withNvs x).swcmd = s.swcmd := rfl
@[simp] theorem State.withNvs_chan (x) : (s.withNvs x).chan = s.chan := rfl
@[simp] theorem State.withNvs_cores (x) : (s.withNvs x).cores = s.cores := rfl
@[simp] theorem State.withNvs_clusters (x) : (s.withNvs x).clusters = s.clusters := rfl
@[simp] theorem State.withNvs_taken (x) : (s.withNvs x).taken = s.taken := rfl
@[simp] theorem State.withNvs_mgmt (x) : (s.withNvs x).mgmt = s.mgmt := rfl
@[simp] theorem State.withNvs_pf (x) : (s.withNvs x).pf = s.pf := rfl
@[simp] theorem State.withNvs_parts (x) : (s.withNvs x).parts = s.parts := rfl
@[simp] theorem State.withNvs_owners (x) : (s.withNvs x).owners = s.owners := rfl
@[simp] theorem State.withNvs_creq (x) : (s.withNvs x).creq = s.creq := rfl
@[simp] theorem State.withNvs_lps (x) : (s.withNvs x).lps = s.lps := rfl
@[simp] theorem State.withNvs_doms (x) : (s.withNvs x).doms = s.doms := rfl
@[simp] theorem State.withNvs_nvs (x) : (s.withNvs x).nvs = x := rfl
@[simp] theorem State.withNvs_test (x) : (s.withNvs x).test = s.test := rfl
@[simp] theorem State.withNvs_ages (x) : (s.withNvs x).ages = s.ages := rfl
@[simp] theorem State.withNvs_readout (x) : (s.withNvs x).readout = s.readout := rfl
@[simp] theorem State.withNvs_sec (x) : (s.withNvs x).sec = s.sec := rfl
@[simp] theorem State.withNvs_arb (x) : (s.withNvs x).arb = s.arb := rfl
@[simp] theorem State.withNvs_jtag (x) : (s.withNvs x).jtag = s.jtag := rfl
@[simp] theorem State.withTest_pending (x) : (s.withTest x).pending = s.pending := rfl
@[simp] theorem State.withTest_free (x) : (s.withTest x).free = s.free := rfl
@[simp] theorem State.withTest_regs (x) : (s.withTest x).regs = s.regs := rfl
@[simp] theorem State.withTest_hbm (x) : (s.withTest x).hbm = s.hbm := rfl
@[simp] theorem State.withTest_poison (x) : (s.withTest x).poison = s.poison := rfl
@[simp] theorem State.withTest_outs (x) : (s.withTest x).outs = s.outs := rfl
@[simp] theorem State.withTest_hold (x) : (s.withTest x).hold = s.hold := rfl
@[simp] theorem State.withTest_por (x) : (s.withTest x).por = s.por := rfl
@[simp] theorem State.withTest_time (x) : (s.withTest x).time = s.time := rfl
@[simp] theorem State.withTest_streams (x) : (s.withTest x).streams = s.streams := rfl
@[simp] theorem State.withTest_engines (x) : (s.withTest x).engines = s.engines := rfl
@[simp] theorem State.withTest_subs (x) : (s.withTest x).subs = s.subs := rfl
@[simp] theorem State.withTest_fabric (x) : (s.withTest x).fabric = s.fabric := rfl
@[simp] theorem State.withTest_pins (x) : (s.withTest x).pins = s.pins := rfl
@[simp] theorem State.withTest_lanes (x) : (s.withTest x).lanes = s.lanes := rfl
@[simp] theorem State.withTest_swcmd (x) : (s.withTest x).swcmd = s.swcmd := rfl
@[simp] theorem State.withTest_chan (x) : (s.withTest x).chan = s.chan := rfl
@[simp] theorem State.withTest_cores (x) : (s.withTest x).cores = s.cores := rfl
@[simp] theorem State.withTest_clusters (x) : (s.withTest x).clusters = s.clusters := rfl
@[simp] theorem State.withTest_taken (x) : (s.withTest x).taken = s.taken := rfl
@[simp] theorem State.withTest_mgmt (x) : (s.withTest x).mgmt = s.mgmt := rfl
@[simp] theorem State.withTest_pf (x) : (s.withTest x).pf = s.pf := rfl
@[simp] theorem State.withTest_parts (x) : (s.withTest x).parts = s.parts := rfl
@[simp] theorem State.withTest_owners (x) : (s.withTest x).owners = s.owners := rfl
@[simp] theorem State.withTest_creq (x) : (s.withTest x).creq = s.creq := rfl
@[simp] theorem State.withTest_lps (x) : (s.withTest x).lps = s.lps := rfl
@[simp] theorem State.withTest_doms (x) : (s.withTest x).doms = s.doms := rfl
@[simp] theorem State.withTest_nvs (x) : (s.withTest x).nvs = s.nvs := rfl
@[simp] theorem State.withTest_test (x) : (s.withTest x).test = x := rfl
@[simp] theorem State.withTest_ages (x) : (s.withTest x).ages = s.ages := rfl
@[simp] theorem State.withTest_readout (x) : (s.withTest x).readout = s.readout := rfl
@[simp] theorem State.withTest_sec (x) : (s.withTest x).sec = s.sec := rfl
@[simp] theorem State.withTest_arb (x) : (s.withTest x).arb = s.arb := rfl
@[simp] theorem State.withTest_jtag (x) : (s.withTest x).jtag = s.jtag := rfl
@[simp] theorem State.withAges_pending (x) : (s.withAges x).pending = s.pending := rfl
@[simp] theorem State.withAges_free (x) : (s.withAges x).free = s.free := rfl
@[simp] theorem State.withAges_regs (x) : (s.withAges x).regs = s.regs := rfl
@[simp] theorem State.withAges_hbm (x) : (s.withAges x).hbm = s.hbm := rfl
@[simp] theorem State.withAges_poison (x) : (s.withAges x).poison = s.poison := rfl
@[simp] theorem State.withAges_outs (x) : (s.withAges x).outs = s.outs := rfl
@[simp] theorem State.withAges_hold (x) : (s.withAges x).hold = s.hold := rfl
@[simp] theorem State.withAges_por (x) : (s.withAges x).por = s.por := rfl
@[simp] theorem State.withAges_time (x) : (s.withAges x).time = s.time := rfl
@[simp] theorem State.withAges_streams (x) : (s.withAges x).streams = s.streams := rfl
@[simp] theorem State.withAges_engines (x) : (s.withAges x).engines = s.engines := rfl
@[simp] theorem State.withAges_subs (x) : (s.withAges x).subs = s.subs := rfl
@[simp] theorem State.withAges_fabric (x) : (s.withAges x).fabric = s.fabric := rfl
@[simp] theorem State.withAges_pins (x) : (s.withAges x).pins = s.pins := rfl
@[simp] theorem State.withAges_lanes (x) : (s.withAges x).lanes = s.lanes := rfl
@[simp] theorem State.withAges_swcmd (x) : (s.withAges x).swcmd = s.swcmd := rfl
@[simp] theorem State.withAges_chan (x) : (s.withAges x).chan = s.chan := rfl
@[simp] theorem State.withAges_cores (x) : (s.withAges x).cores = s.cores := rfl
@[simp] theorem State.withAges_clusters (x) : (s.withAges x).clusters = s.clusters := rfl
@[simp] theorem State.withAges_taken (x) : (s.withAges x).taken = s.taken := rfl
@[simp] theorem State.withAges_mgmt (x) : (s.withAges x).mgmt = s.mgmt := rfl
@[simp] theorem State.withAges_pf (x) : (s.withAges x).pf = s.pf := rfl
@[simp] theorem State.withAges_parts (x) : (s.withAges x).parts = s.parts := rfl
@[simp] theorem State.withAges_owners (x) : (s.withAges x).owners = s.owners := rfl
@[simp] theorem State.withAges_creq (x) : (s.withAges x).creq = s.creq := rfl
@[simp] theorem State.withAges_lps (x) : (s.withAges x).lps = s.lps := rfl
@[simp] theorem State.withAges_doms (x) : (s.withAges x).doms = s.doms := rfl
@[simp] theorem State.withAges_nvs (x) : (s.withAges x).nvs = s.nvs := rfl
@[simp] theorem State.withAges_test (x) : (s.withAges x).test = s.test := rfl
@[simp] theorem State.withAges_ages (x) : (s.withAges x).ages = x := rfl
@[simp] theorem State.withAges_readout (x) : (s.withAges x).readout = s.readout := rfl
@[simp] theorem State.withAges_sec (x) : (s.withAges x).sec = s.sec := rfl
@[simp] theorem State.withAges_arb (x) : (s.withAges x).arb = s.arb := rfl
@[simp] theorem State.withAges_jtag (x) : (s.withAges x).jtag = s.jtag := rfl
@[simp] theorem State.withReadout_pending (x) : (s.withReadout x).pending = s.pending := rfl
@[simp] theorem State.withReadout_free (x) : (s.withReadout x).free = s.free := rfl
@[simp] theorem State.withReadout_regs (x) : (s.withReadout x).regs = s.regs := rfl
@[simp] theorem State.withReadout_hbm (x) : (s.withReadout x).hbm = s.hbm := rfl
@[simp] theorem State.withReadout_poison (x) : (s.withReadout x).poison = s.poison := rfl
@[simp] theorem State.withReadout_outs (x) : (s.withReadout x).outs = s.outs := rfl
@[simp] theorem State.withReadout_hold (x) : (s.withReadout x).hold = s.hold := rfl
@[simp] theorem State.withReadout_por (x) : (s.withReadout x).por = s.por := rfl
@[simp] theorem State.withReadout_time (x) : (s.withReadout x).time = s.time := rfl
@[simp] theorem State.withReadout_streams (x) : (s.withReadout x).streams = s.streams := rfl
@[simp] theorem State.withReadout_engines (x) : (s.withReadout x).engines = s.engines := rfl
@[simp] theorem State.withReadout_subs (x) : (s.withReadout x).subs = s.subs := rfl
@[simp] theorem State.withReadout_fabric (x) : (s.withReadout x).fabric = s.fabric := rfl
@[simp] theorem State.withReadout_pins (x) : (s.withReadout x).pins = s.pins := rfl
@[simp] theorem State.withReadout_lanes (x) : (s.withReadout x).lanes = s.lanes := rfl
@[simp] theorem State.withReadout_swcmd (x) : (s.withReadout x).swcmd = s.swcmd := rfl
@[simp] theorem State.withReadout_chan (x) : (s.withReadout x).chan = s.chan := rfl
@[simp] theorem State.withReadout_cores (x) : (s.withReadout x).cores = s.cores := rfl
@[simp] theorem State.withReadout_clusters (x) : (s.withReadout x).clusters = s.clusters := rfl
@[simp] theorem State.withReadout_taken (x) : (s.withReadout x).taken = s.taken := rfl
@[simp] theorem State.withReadout_mgmt (x) : (s.withReadout x).mgmt = s.mgmt := rfl
@[simp] theorem State.withReadout_pf (x) : (s.withReadout x).pf = s.pf := rfl
@[simp] theorem State.withReadout_parts (x) : (s.withReadout x).parts = s.parts := rfl
@[simp] theorem State.withReadout_owners (x) : (s.withReadout x).owners = s.owners := rfl
@[simp] theorem State.withReadout_creq (x) : (s.withReadout x).creq = s.creq := rfl
@[simp] theorem State.withReadout_lps (x) : (s.withReadout x).lps = s.lps := rfl
@[simp] theorem State.withReadout_doms (x) : (s.withReadout x).doms = s.doms := rfl
@[simp] theorem State.withReadout_nvs (x) : (s.withReadout x).nvs = s.nvs := rfl
@[simp] theorem State.withReadout_test (x) : (s.withReadout x).test = s.test := rfl
@[simp] theorem State.withReadout_ages (x) : (s.withReadout x).ages = s.ages := rfl
@[simp] theorem State.withReadout_readout (x) : (s.withReadout x).readout = x := rfl
@[simp] theorem State.withReadout_sec (x) : (s.withReadout x).sec = s.sec := rfl
@[simp] theorem State.withReadout_arb (x) : (s.withReadout x).arb = s.arb := rfl
@[simp] theorem State.withReadout_jtag (x) : (s.withReadout x).jtag = s.jtag := rfl
@[simp] theorem State.withSec_pending (x) : (s.withSec x).pending = s.pending := rfl
@[simp] theorem State.withSec_free (x) : (s.withSec x).free = s.free := rfl
@[simp] theorem State.withSec_regs (x) : (s.withSec x).regs = s.regs := rfl
@[simp] theorem State.withSec_hbm (x) : (s.withSec x).hbm = s.hbm := rfl
@[simp] theorem State.withSec_poison (x) : (s.withSec x).poison = s.poison := rfl
@[simp] theorem State.withSec_outs (x) : (s.withSec x).outs = s.outs := rfl
@[simp] theorem State.withSec_hold (x) : (s.withSec x).hold = s.hold := rfl
@[simp] theorem State.withSec_por (x) : (s.withSec x).por = s.por := rfl
@[simp] theorem State.withSec_time (x) : (s.withSec x).time = s.time := rfl
@[simp] theorem State.withSec_streams (x) : (s.withSec x).streams = s.streams := rfl
@[simp] theorem State.withSec_engines (x) : (s.withSec x).engines = s.engines := rfl
@[simp] theorem State.withSec_subs (x) : (s.withSec x).subs = s.subs := rfl
@[simp] theorem State.withSec_fabric (x) : (s.withSec x).fabric = s.fabric := rfl
@[simp] theorem State.withSec_pins (x) : (s.withSec x).pins = s.pins := rfl
@[simp] theorem State.withSec_lanes (x) : (s.withSec x).lanes = s.lanes := rfl
@[simp] theorem State.withSec_swcmd (x) : (s.withSec x).swcmd = s.swcmd := rfl
@[simp] theorem State.withSec_chan (x) : (s.withSec x).chan = s.chan := rfl
@[simp] theorem State.withSec_cores (x) : (s.withSec x).cores = s.cores := rfl
@[simp] theorem State.withSec_clusters (x) : (s.withSec x).clusters = s.clusters := rfl
@[simp] theorem State.withSec_taken (x) : (s.withSec x).taken = s.taken := rfl
@[simp] theorem State.withSec_mgmt (x) : (s.withSec x).mgmt = s.mgmt := rfl
@[simp] theorem State.withSec_pf (x) : (s.withSec x).pf = s.pf := rfl
@[simp] theorem State.withSec_parts (x) : (s.withSec x).parts = s.parts := rfl
@[simp] theorem State.withSec_owners (x) : (s.withSec x).owners = s.owners := rfl
@[simp] theorem State.withSec_creq (x) : (s.withSec x).creq = s.creq := rfl
@[simp] theorem State.withSec_lps (x) : (s.withSec x).lps = s.lps := rfl
@[simp] theorem State.withSec_doms (x) : (s.withSec x).doms = s.doms := rfl
@[simp] theorem State.withSec_nvs (x) : (s.withSec x).nvs = s.nvs := rfl
@[simp] theorem State.withSec_test (x) : (s.withSec x).test = s.test := rfl
@[simp] theorem State.withSec_ages (x) : (s.withSec x).ages = s.ages := rfl
@[simp] theorem State.withSec_readout (x) : (s.withSec x).readout = s.readout := rfl
@[simp] theorem State.withSec_sec (x) : (s.withSec x).sec = x := rfl
@[simp] theorem State.withSec_arb (x) : (s.withSec x).arb = s.arb := rfl
@[simp] theorem State.withSec_jtag (x) : (s.withSec x).jtag = s.jtag := rfl
@[simp] theorem State.withArb_pending (x) : (s.withArb x).pending = s.pending := rfl
@[simp] theorem State.withArb_free (x) : (s.withArb x).free = s.free := rfl
@[simp] theorem State.withArb_regs (x) : (s.withArb x).regs = s.regs := rfl
@[simp] theorem State.withArb_hbm (x) : (s.withArb x).hbm = s.hbm := rfl
@[simp] theorem State.withArb_poison (x) : (s.withArb x).poison = s.poison := rfl
@[simp] theorem State.withArb_outs (x) : (s.withArb x).outs = s.outs := rfl
@[simp] theorem State.withArb_hold (x) : (s.withArb x).hold = s.hold := rfl
@[simp] theorem State.withArb_por (x) : (s.withArb x).por = s.por := rfl
@[simp] theorem State.withArb_time (x) : (s.withArb x).time = s.time := rfl
@[simp] theorem State.withArb_streams (x) : (s.withArb x).streams = s.streams := rfl
@[simp] theorem State.withArb_engines (x) : (s.withArb x).engines = s.engines := rfl
@[simp] theorem State.withArb_subs (x) : (s.withArb x).subs = s.subs := rfl
@[simp] theorem State.withArb_fabric (x) : (s.withArb x).fabric = s.fabric := rfl
@[simp] theorem State.withArb_pins (x) : (s.withArb x).pins = s.pins := rfl
@[simp] theorem State.withArb_lanes (x) : (s.withArb x).lanes = s.lanes := rfl
@[simp] theorem State.withArb_swcmd (x) : (s.withArb x).swcmd = s.swcmd := rfl
@[simp] theorem State.withArb_chan (x) : (s.withArb x).chan = s.chan := rfl
@[simp] theorem State.withArb_cores (x) : (s.withArb x).cores = s.cores := rfl
@[simp] theorem State.withArb_clusters (x) : (s.withArb x).clusters = s.clusters := rfl
@[simp] theorem State.withArb_taken (x) : (s.withArb x).taken = s.taken := rfl
@[simp] theorem State.withArb_mgmt (x) : (s.withArb x).mgmt = s.mgmt := rfl
@[simp] theorem State.withArb_pf (x) : (s.withArb x).pf = s.pf := rfl
@[simp] theorem State.withArb_parts (x) : (s.withArb x).parts = s.parts := rfl
@[simp] theorem State.withArb_owners (x) : (s.withArb x).owners = s.owners := rfl
@[simp] theorem State.withArb_creq (x) : (s.withArb x).creq = s.creq := rfl
@[simp] theorem State.withArb_lps (x) : (s.withArb x).lps = s.lps := rfl
@[simp] theorem State.withArb_doms (x) : (s.withArb x).doms = s.doms := rfl
@[simp] theorem State.withArb_nvs (x) : (s.withArb x).nvs = s.nvs := rfl
@[simp] theorem State.withArb_test (x) : (s.withArb x).test = s.test := rfl
@[simp] theorem State.withArb_ages (x) : (s.withArb x).ages = s.ages := rfl
@[simp] theorem State.withArb_readout (x) : (s.withArb x).readout = s.readout := rfl
@[simp] theorem State.withArb_sec (x) : (s.withArb x).sec = s.sec := rfl
@[simp] theorem State.withArb_arb (x) : (s.withArb x).arb = x := rfl
@[simp] theorem State.withArb_jtag (x) : (s.withArb x).jtag = s.jtag := rfl
@[simp] theorem State.withJtag_pending (x) : (s.withJtag x).pending = s.pending := rfl
@[simp] theorem State.withJtag_free (x) : (s.withJtag x).free = s.free := rfl
@[simp] theorem State.withJtag_regs (x) : (s.withJtag x).regs = s.regs := rfl
@[simp] theorem State.withJtag_hbm (x) : (s.withJtag x).hbm = s.hbm := rfl
@[simp] theorem State.withJtag_poison (x) : (s.withJtag x).poison = s.poison := rfl
@[simp] theorem State.withJtag_outs (x) : (s.withJtag x).outs = s.outs := rfl
@[simp] theorem State.withJtag_hold (x) : (s.withJtag x).hold = s.hold := rfl
@[simp] theorem State.withJtag_por (x) : (s.withJtag x).por = s.por := rfl
@[simp] theorem State.withJtag_time (x) : (s.withJtag x).time = s.time := rfl
@[simp] theorem State.withJtag_streams (x) : (s.withJtag x).streams = s.streams := rfl
@[simp] theorem State.withJtag_engines (x) : (s.withJtag x).engines = s.engines := rfl
@[simp] theorem State.withJtag_subs (x) : (s.withJtag x).subs = s.subs := rfl
@[simp] theorem State.withJtag_fabric (x) : (s.withJtag x).fabric = s.fabric := rfl
@[simp] theorem State.withJtag_pins (x) : (s.withJtag x).pins = s.pins := rfl
@[simp] theorem State.withJtag_lanes (x) : (s.withJtag x).lanes = s.lanes := rfl
@[simp] theorem State.withJtag_swcmd (x) : (s.withJtag x).swcmd = s.swcmd := rfl
@[simp] theorem State.withJtag_chan (x) : (s.withJtag x).chan = s.chan := rfl
@[simp] theorem State.withJtag_cores (x) : (s.withJtag x).cores = s.cores := rfl
@[simp] theorem State.withJtag_clusters (x) : (s.withJtag x).clusters = s.clusters := rfl
@[simp] theorem State.withJtag_taken (x) : (s.withJtag x).taken = s.taken := rfl
@[simp] theorem State.withJtag_mgmt (x) : (s.withJtag x).mgmt = s.mgmt := rfl
@[simp] theorem State.withJtag_pf (x) : (s.withJtag x).pf = s.pf := rfl
@[simp] theorem State.withJtag_parts (x) : (s.withJtag x).parts = s.parts := rfl
@[simp] theorem State.withJtag_owners (x) : (s.withJtag x).owners = s.owners := rfl
@[simp] theorem State.withJtag_creq (x) : (s.withJtag x).creq = s.creq := rfl
@[simp] theorem State.withJtag_lps (x) : (s.withJtag x).lps = s.lps := rfl
@[simp] theorem State.withJtag_doms (x) : (s.withJtag x).doms = s.doms := rfl
@[simp] theorem State.withJtag_nvs (x) : (s.withJtag x).nvs = s.nvs := rfl
@[simp] theorem State.withJtag_test (x) : (s.withJtag x).test = s.test := rfl
@[simp] theorem State.withJtag_ages (x) : (s.withJtag x).ages = s.ages := rfl
@[simp] theorem State.withJtag_readout (x) : (s.withJtag x).readout = s.readout := rfl
@[simp] theorem State.withJtag_sec (x) : (s.withJtag x).sec = s.sec := rfl
@[simp] theorem State.withJtag_arb (x) : (s.withJtag x).arb = s.arb := rfl
@[simp] theorem State.withJtag_jtag (x) : (s.withJtag x).jtag = x := rfl
@[simp] theorem State.wr_pending (o v : Nat) : (s.wr o v).pending = s.pending := State.withRegs_pending s _
@[simp] theorem State.wr_free (o v : Nat) : (s.wr o v).free = s.free := State.withRegs_free s _
@[simp] theorem State.wr_hbm (o v : Nat) : (s.wr o v).hbm = s.hbm := State.withRegs_hbm s _
@[simp] theorem State.wr_poison (o v : Nat) : (s.wr o v).poison = s.poison := State.withRegs_poison s _
@[simp] theorem State.wr_outs (o v : Nat) : (s.wr o v).outs = s.outs := State.withRegs_outs s _
@[simp] theorem State.wr_hold (o v : Nat) : (s.wr o v).hold = s.hold := State.withRegs_hold s _
@[simp] theorem State.wr_por (o v : Nat) : (s.wr o v).por = s.por := State.withRegs_por s _
@[simp] theorem State.wr_time (o v : Nat) : (s.wr o v).time = s.time := State.withRegs_time s _
@[simp] theorem State.wr_streams (o v : Nat) : (s.wr o v).streams = s.streams := State.withRegs_streams s _
@[simp] theorem State.wr_engines (o v : Nat) : (s.wr o v).engines = s.engines := State.withRegs_engines s _
@[simp] theorem State.wr_subs (o v : Nat) : (s.wr o v).subs = s.subs := State.withRegs_subs s _
@[simp] theorem State.wr_fabric (o v : Nat) : (s.wr o v).fabric = s.fabric := State.withRegs_fabric s _
@[simp] theorem State.wr_pins (o v : Nat) : (s.wr o v).pins = s.pins := State.withRegs_pins s _
@[simp] theorem State.wr_lanes (o v : Nat) : (s.wr o v).lanes = s.lanes := State.withRegs_lanes s _
@[simp] theorem State.wr_swcmd (o v : Nat) : (s.wr o v).swcmd = s.swcmd := State.withRegs_swcmd s _
@[simp] theorem State.wr_chan (o v : Nat) : (s.wr o v).chan = s.chan := State.withRegs_chan s _
@[simp] theorem State.wr_cores (o v : Nat) : (s.wr o v).cores = s.cores := State.withRegs_cores s _
@[simp] theorem State.wr_clusters (o v : Nat) : (s.wr o v).clusters = s.clusters := State.withRegs_clusters s _
@[simp] theorem State.wr_taken (o v : Nat) : (s.wr o v).taken = s.taken := State.withRegs_taken s _
@[simp] theorem State.wr_mgmt (o v : Nat) : (s.wr o v).mgmt = s.mgmt := State.withRegs_mgmt s _
@[simp] theorem State.wr_pf (o v : Nat) : (s.wr o v).pf = s.pf := State.withRegs_pf s _
@[simp] theorem State.wr_parts (o v : Nat) : (s.wr o v).parts = s.parts := State.withRegs_parts s _
@[simp] theorem State.wr_owners (o v : Nat) : (s.wr o v).owners = s.owners := State.withRegs_owners s _
@[simp] theorem State.wr_creq (o v : Nat) : (s.wr o v).creq = s.creq := State.withRegs_creq s _
@[simp] theorem State.wr_lps (o v : Nat) : (s.wr o v).lps = s.lps := State.withRegs_lps s _
@[simp] theorem State.wr_doms (o v : Nat) : (s.wr o v).doms = s.doms := State.withRegs_doms s _
@[simp] theorem State.wr_nvs (o v : Nat) : (s.wr o v).nvs = s.nvs := State.withRegs_nvs s _
@[simp] theorem State.wr_test (o v : Nat) : (s.wr o v).test = s.test := State.withRegs_test s _
@[simp] theorem State.wr_ages (o v : Nat) : (s.wr o v).ages = s.ages := State.withRegs_ages s _
@[simp] theorem State.wr_readout (o v : Nat) : (s.wr o v).readout = s.readout := State.withRegs_readout s _
@[simp] theorem State.wr_sec (o v : Nat) : (s.wr o v).sec = s.sec := State.withRegs_sec s _
@[simp] theorem State.wr_arb (o v : Nat) : (s.wr o v).arb = s.arb := State.withRegs_arb s _
@[simp] theorem State.wr_jtag (o v : Nat) : (s.wr o v).jtag = s.jtag := State.withRegs_jtag s _
@[simp] theorem State.fset_pending (o l w v : Nat) : (s.fset o l w v).pending = s.pending := State.wr_pending _ _ _
@[simp] theorem State.fset_free (o l w v : Nat) : (s.fset o l w v).free = s.free := State.wr_free _ _ _
@[simp] theorem State.fset_hbm (o l w v : Nat) : (s.fset o l w v).hbm = s.hbm := State.wr_hbm _ _ _
@[simp] theorem State.fset_poison (o l w v : Nat) : (s.fset o l w v).poison = s.poison := State.wr_poison _ _ _
@[simp] theorem State.fset_outs (o l w v : Nat) : (s.fset o l w v).outs = s.outs := State.wr_outs _ _ _
@[simp] theorem State.fset_hold (o l w v : Nat) : (s.fset o l w v).hold = s.hold := State.wr_hold _ _ _
@[simp] theorem State.fset_por (o l w v : Nat) : (s.fset o l w v).por = s.por := State.wr_por _ _ _
@[simp] theorem State.fset_time (o l w v : Nat) : (s.fset o l w v).time = s.time := State.wr_time _ _ _
@[simp] theorem State.fset_streams (o l w v : Nat) : (s.fset o l w v).streams = s.streams := State.wr_streams _ _ _
@[simp] theorem State.fset_engines (o l w v : Nat) : (s.fset o l w v).engines = s.engines := State.wr_engines _ _ _
@[simp] theorem State.fset_subs (o l w v : Nat) : (s.fset o l w v).subs = s.subs := State.wr_subs _ _ _
@[simp] theorem State.fset_fabric (o l w v : Nat) : (s.fset o l w v).fabric = s.fabric := State.wr_fabric _ _ _
@[simp] theorem State.fset_pins (o l w v : Nat) : (s.fset o l w v).pins = s.pins := State.wr_pins _ _ _
@[simp] theorem State.fset_lanes (o l w v : Nat) : (s.fset o l w v).lanes = s.lanes := State.wr_lanes _ _ _
@[simp] theorem State.fset_swcmd (o l w v : Nat) : (s.fset o l w v).swcmd = s.swcmd := State.wr_swcmd _ _ _
@[simp] theorem State.fset_chan (o l w v : Nat) : (s.fset o l w v).chan = s.chan := State.wr_chan _ _ _
@[simp] theorem State.fset_cores (o l w v : Nat) : (s.fset o l w v).cores = s.cores := State.wr_cores _ _ _
@[simp] theorem State.fset_clusters (o l w v : Nat) : (s.fset o l w v).clusters = s.clusters := State.wr_clusters _ _ _
@[simp] theorem State.fset_taken (o l w v : Nat) : (s.fset o l w v).taken = s.taken := State.wr_taken _ _ _
@[simp] theorem State.fset_mgmt (o l w v : Nat) : (s.fset o l w v).mgmt = s.mgmt := State.wr_mgmt _ _ _
@[simp] theorem State.fset_pf (o l w v : Nat) : (s.fset o l w v).pf = s.pf := State.wr_pf _ _ _
@[simp] theorem State.fset_parts (o l w v : Nat) : (s.fset o l w v).parts = s.parts := State.wr_parts _ _ _
@[simp] theorem State.fset_owners (o l w v : Nat) : (s.fset o l w v).owners = s.owners := State.wr_owners _ _ _
@[simp] theorem State.fset_creq (o l w v : Nat) : (s.fset o l w v).creq = s.creq := State.wr_creq _ _ _
@[simp] theorem State.fset_lps (o l w v : Nat) : (s.fset o l w v).lps = s.lps := State.wr_lps _ _ _
@[simp] theorem State.fset_doms (o l w v : Nat) : (s.fset o l w v).doms = s.doms := State.wr_doms _ _ _
@[simp] theorem State.fset_nvs (o l w v : Nat) : (s.fset o l w v).nvs = s.nvs := State.wr_nvs _ _ _
@[simp] theorem State.fset_test (o l w v : Nat) : (s.fset o l w v).test = s.test := State.wr_test _ _ _
@[simp] theorem State.fset_ages (o l w v : Nat) : (s.fset o l w v).ages = s.ages := State.wr_ages _ _ _
@[simp] theorem State.fset_readout (o l w v : Nat) : (s.fset o l w v).readout = s.readout := State.wr_readout _ _ _
@[simp] theorem State.fset_sec (o l w v : Nat) : (s.fset o l w v).sec = s.sec := State.wr_sec _ _ _
@[simp] theorem State.fset_arb (o l w v : Nat) : (s.fset o l w v).arb = s.arb := State.wr_arb _ _ _
@[simp] theorem State.fset_jtag (o l w v : Nat) : (s.fset o l w v).jtag = s.jtag := State.wr_jtag _ _ _
@[simp] theorem State.count_pending (o n : Nat) : (s.count o n).pending = s.pending := State.wr_pending _ _ _
@[simp] theorem State.count_free (o n : Nat) : (s.count o n).free = s.free := State.wr_free _ _ _
@[simp] theorem State.count_hbm (o n : Nat) : (s.count o n).hbm = s.hbm := State.wr_hbm _ _ _
@[simp] theorem State.count_poison (o n : Nat) : (s.count o n).poison = s.poison := State.wr_poison _ _ _
@[simp] theorem State.count_outs (o n : Nat) : (s.count o n).outs = s.outs := State.wr_outs _ _ _
@[simp] theorem State.count_hold (o n : Nat) : (s.count o n).hold = s.hold := State.wr_hold _ _ _
@[simp] theorem State.count_por (o n : Nat) : (s.count o n).por = s.por := State.wr_por _ _ _
@[simp] theorem State.count_time (o n : Nat) : (s.count o n).time = s.time := State.wr_time _ _ _
@[simp] theorem State.count_streams (o n : Nat) : (s.count o n).streams = s.streams := State.wr_streams _ _ _
@[simp] theorem State.count_engines (o n : Nat) : (s.count o n).engines = s.engines := State.wr_engines _ _ _
@[simp] theorem State.count_subs (o n : Nat) : (s.count o n).subs = s.subs := State.wr_subs _ _ _
@[simp] theorem State.count_fabric (o n : Nat) : (s.count o n).fabric = s.fabric := State.wr_fabric _ _ _
@[simp] theorem State.count_pins (o n : Nat) : (s.count o n).pins = s.pins := State.wr_pins _ _ _
@[simp] theorem State.count_lanes (o n : Nat) : (s.count o n).lanes = s.lanes := State.wr_lanes _ _ _
@[simp] theorem State.count_swcmd (o n : Nat) : (s.count o n).swcmd = s.swcmd := State.wr_swcmd _ _ _
@[simp] theorem State.count_chan (o n : Nat) : (s.count o n).chan = s.chan := State.wr_chan _ _ _
@[simp] theorem State.count_cores (o n : Nat) : (s.count o n).cores = s.cores := State.wr_cores _ _ _
@[simp] theorem State.count_clusters (o n : Nat) : (s.count o n).clusters = s.clusters := State.wr_clusters _ _ _
@[simp] theorem State.count_taken (o n : Nat) : (s.count o n).taken = s.taken := State.wr_taken _ _ _
@[simp] theorem State.count_mgmt (o n : Nat) : (s.count o n).mgmt = s.mgmt := State.wr_mgmt _ _ _
@[simp] theorem State.count_pf (o n : Nat) : (s.count o n).pf = s.pf := State.wr_pf _ _ _
@[simp] theorem State.count_parts (o n : Nat) : (s.count o n).parts = s.parts := State.wr_parts _ _ _
@[simp] theorem State.count_owners (o n : Nat) : (s.count o n).owners = s.owners := State.wr_owners _ _ _
@[simp] theorem State.count_creq (o n : Nat) : (s.count o n).creq = s.creq := State.wr_creq _ _ _
@[simp] theorem State.count_lps (o n : Nat) : (s.count o n).lps = s.lps := State.wr_lps _ _ _
@[simp] theorem State.count_doms (o n : Nat) : (s.count o n).doms = s.doms := State.wr_doms _ _ _
@[simp] theorem State.count_nvs (o n : Nat) : (s.count o n).nvs = s.nvs := State.wr_nvs _ _ _
@[simp] theorem State.count_test (o n : Nat) : (s.count o n).test = s.test := State.wr_test _ _ _
@[simp] theorem State.count_ages (o n : Nat) : (s.count o n).ages = s.ages := State.wr_ages _ _ _
@[simp] theorem State.count_readout (o n : Nat) : (s.count o n).readout = s.readout := State.wr_readout _ _ _
@[simp] theorem State.count_sec (o n : Nat) : (s.count o n).sec = s.sec := State.wr_sec _ _ _
@[simp] theorem State.count_arb (o n : Nat) : (s.count o n).arb = s.arb := State.wr_arb _ _ _
@[simp] theorem State.count_jtag (o n : Nat) : (s.count o n).jtag = s.jtag := State.wr_jtag _ _ _
@[simp] theorem State.wr64_pending (o v : Nat) : (s.wr64 o v).pending = s.pending := (State.wr_pending _ _ _).trans (State.wr_pending _ _ _)
@[simp] theorem State.wr64_free (o v : Nat) : (s.wr64 o v).free = s.free := (State.wr_free _ _ _).trans (State.wr_free _ _ _)
@[simp] theorem State.wr64_hbm (o v : Nat) : (s.wr64 o v).hbm = s.hbm := (State.wr_hbm _ _ _).trans (State.wr_hbm _ _ _)
@[simp] theorem State.wr64_poison (o v : Nat) : (s.wr64 o v).poison = s.poison := (State.wr_poison _ _ _).trans (State.wr_poison _ _ _)
@[simp] theorem State.wr64_outs (o v : Nat) : (s.wr64 o v).outs = s.outs := (State.wr_outs _ _ _).trans (State.wr_outs _ _ _)
@[simp] theorem State.wr64_hold (o v : Nat) : (s.wr64 o v).hold = s.hold := (State.wr_hold _ _ _).trans (State.wr_hold _ _ _)
@[simp] theorem State.wr64_por (o v : Nat) : (s.wr64 o v).por = s.por := (State.wr_por _ _ _).trans (State.wr_por _ _ _)
@[simp] theorem State.wr64_time (o v : Nat) : (s.wr64 o v).time = s.time := (State.wr_time _ _ _).trans (State.wr_time _ _ _)
@[simp] theorem State.wr64_streams (o v : Nat) : (s.wr64 o v).streams = s.streams := (State.wr_streams _ _ _).trans (State.wr_streams _ _ _)
@[simp] theorem State.wr64_engines (o v : Nat) : (s.wr64 o v).engines = s.engines := (State.wr_engines _ _ _).trans (State.wr_engines _ _ _)
@[simp] theorem State.wr64_subs (o v : Nat) : (s.wr64 o v).subs = s.subs := (State.wr_subs _ _ _).trans (State.wr_subs _ _ _)
@[simp] theorem State.wr64_fabric (o v : Nat) : (s.wr64 o v).fabric = s.fabric := (State.wr_fabric _ _ _).trans (State.wr_fabric _ _ _)
@[simp] theorem State.wr64_pins (o v : Nat) : (s.wr64 o v).pins = s.pins := (State.wr_pins _ _ _).trans (State.wr_pins _ _ _)
@[simp] theorem State.wr64_lanes (o v : Nat) : (s.wr64 o v).lanes = s.lanes := (State.wr_lanes _ _ _).trans (State.wr_lanes _ _ _)
@[simp] theorem State.wr64_swcmd (o v : Nat) : (s.wr64 o v).swcmd = s.swcmd := (State.wr_swcmd _ _ _).trans (State.wr_swcmd _ _ _)
@[simp] theorem State.wr64_chan (o v : Nat) : (s.wr64 o v).chan = s.chan := (State.wr_chan _ _ _).trans (State.wr_chan _ _ _)
@[simp] theorem State.wr64_cores (o v : Nat) : (s.wr64 o v).cores = s.cores := (State.wr_cores _ _ _).trans (State.wr_cores _ _ _)
@[simp] theorem State.wr64_clusters (o v : Nat) : (s.wr64 o v).clusters = s.clusters := (State.wr_clusters _ _ _).trans (State.wr_clusters _ _ _)
@[simp] theorem State.wr64_taken (o v : Nat) : (s.wr64 o v).taken = s.taken := (State.wr_taken _ _ _).trans (State.wr_taken _ _ _)
@[simp] theorem State.wr64_mgmt (o v : Nat) : (s.wr64 o v).mgmt = s.mgmt := (State.wr_mgmt _ _ _).trans (State.wr_mgmt _ _ _)
@[simp] theorem State.wr64_pf (o v : Nat) : (s.wr64 o v).pf = s.pf := (State.wr_pf _ _ _).trans (State.wr_pf _ _ _)
@[simp] theorem State.wr64_parts (o v : Nat) : (s.wr64 o v).parts = s.parts := (State.wr_parts _ _ _).trans (State.wr_parts _ _ _)
@[simp] theorem State.wr64_owners (o v : Nat) : (s.wr64 o v).owners = s.owners := (State.wr_owners _ _ _).trans (State.wr_owners _ _ _)
@[simp] theorem State.wr64_creq (o v : Nat) : (s.wr64 o v).creq = s.creq := (State.wr_creq _ _ _).trans (State.wr_creq _ _ _)
@[simp] theorem State.wr64_lps (o v : Nat) : (s.wr64 o v).lps = s.lps := (State.wr_lps _ _ _).trans (State.wr_lps _ _ _)
@[simp] theorem State.wr64_doms (o v : Nat) : (s.wr64 o v).doms = s.doms := (State.wr_doms _ _ _).trans (State.wr_doms _ _ _)
@[simp] theorem State.wr64_nvs (o v : Nat) : (s.wr64 o v).nvs = s.nvs := (State.wr_nvs _ _ _).trans (State.wr_nvs _ _ _)
@[simp] theorem State.wr64_test (o v : Nat) : (s.wr64 o v).test = s.test := (State.wr_test _ _ _).trans (State.wr_test _ _ _)
@[simp] theorem State.wr64_ages (o v : Nat) : (s.wr64 o v).ages = s.ages := (State.wr_ages _ _ _).trans (State.wr_ages _ _ _)
@[simp] theorem State.wr64_readout (o v : Nat) : (s.wr64 o v).readout = s.readout := (State.wr_readout _ _ _).trans (State.wr_readout _ _ _)
@[simp] theorem State.wr64_sec (o v : Nat) : (s.wr64 o v).sec = s.sec := (State.wr_sec _ _ _).trans (State.wr_sec _ _ _)
@[simp] theorem State.wr64_arb (o v : Nat) : (s.wr64 o v).arb = s.arb := (State.wr_arb _ _ _).trans (State.wr_arb _ _ _)
@[simp] theorem State.wr64_jtag (o v : Nat) : (s.wr64 o v).jtag = s.jtag := (State.wr_jtag _ _ _).trans (State.wr_jtag _ _ _)
@[simp] theorem State.countWrap_pending (o n : Nat) : (s.countWrap o n).pending = s.pending := State.wr_pending _ _ _
@[simp] theorem State.countWrap_free (o n : Nat) : (s.countWrap o n).free = s.free := State.wr_free _ _ _
@[simp] theorem State.countWrap_hbm (o n : Nat) : (s.countWrap o n).hbm = s.hbm := State.wr_hbm _ _ _
@[simp] theorem State.countWrap_poison (o n : Nat) : (s.countWrap o n).poison = s.poison := State.wr_poison _ _ _
@[simp] theorem State.countWrap_outs (o n : Nat) : (s.countWrap o n).outs = s.outs := State.wr_outs _ _ _
@[simp] theorem State.countWrap_hold (o n : Nat) : (s.countWrap o n).hold = s.hold := State.wr_hold _ _ _
@[simp] theorem State.countWrap_por (o n : Nat) : (s.countWrap o n).por = s.por := State.wr_por _ _ _
@[simp] theorem State.countWrap_time (o n : Nat) : (s.countWrap o n).time = s.time := State.wr_time _ _ _
@[simp] theorem State.countWrap_streams (o n : Nat) : (s.countWrap o n).streams = s.streams := State.wr_streams _ _ _
@[simp] theorem State.countWrap_engines (o n : Nat) : (s.countWrap o n).engines = s.engines := State.wr_engines _ _ _
@[simp] theorem State.countWrap_subs (o n : Nat) : (s.countWrap o n).subs = s.subs := State.wr_subs _ _ _
@[simp] theorem State.countWrap_fabric (o n : Nat) : (s.countWrap o n).fabric = s.fabric := State.wr_fabric _ _ _
@[simp] theorem State.countWrap_pins (o n : Nat) : (s.countWrap o n).pins = s.pins := State.wr_pins _ _ _
@[simp] theorem State.countWrap_lanes (o n : Nat) : (s.countWrap o n).lanes = s.lanes := State.wr_lanes _ _ _
@[simp] theorem State.countWrap_swcmd (o n : Nat) : (s.countWrap o n).swcmd = s.swcmd := State.wr_swcmd _ _ _
@[simp] theorem State.countWrap_chan (o n : Nat) : (s.countWrap o n).chan = s.chan := State.wr_chan _ _ _
@[simp] theorem State.countWrap_cores (o n : Nat) : (s.countWrap o n).cores = s.cores := State.wr_cores _ _ _
@[simp] theorem State.countWrap_clusters (o n : Nat) : (s.countWrap o n).clusters = s.clusters := State.wr_clusters _ _ _
@[simp] theorem State.countWrap_taken (o n : Nat) : (s.countWrap o n).taken = s.taken := State.wr_taken _ _ _
@[simp] theorem State.countWrap_mgmt (o n : Nat) : (s.countWrap o n).mgmt = s.mgmt := State.wr_mgmt _ _ _
@[simp] theorem State.countWrap_pf (o n : Nat) : (s.countWrap o n).pf = s.pf := State.wr_pf _ _ _
@[simp] theorem State.countWrap_parts (o n : Nat) : (s.countWrap o n).parts = s.parts := State.wr_parts _ _ _
@[simp] theorem State.countWrap_owners (o n : Nat) : (s.countWrap o n).owners = s.owners := State.wr_owners _ _ _
@[simp] theorem State.countWrap_creq (o n : Nat) : (s.countWrap o n).creq = s.creq := State.wr_creq _ _ _
@[simp] theorem State.countWrap_lps (o n : Nat) : (s.countWrap o n).lps = s.lps := State.wr_lps _ _ _
@[simp] theorem State.countWrap_doms (o n : Nat) : (s.countWrap o n).doms = s.doms := State.wr_doms _ _ _
@[simp] theorem State.countWrap_nvs (o n : Nat) : (s.countWrap o n).nvs = s.nvs := State.wr_nvs _ _ _
@[simp] theorem State.countWrap_test (o n : Nat) : (s.countWrap o n).test = s.test := State.wr_test _ _ _
@[simp] theorem State.countWrap_ages (o n : Nat) : (s.countWrap o n).ages = s.ages := State.wr_ages _ _ _
@[simp] theorem State.countWrap_readout (o n : Nat) : (s.countWrap o n).readout = s.readout := State.wr_readout _ _ _
@[simp] theorem State.countWrap_sec (o n : Nat) : (s.countWrap o n).sec = s.sec := State.wr_sec _ _ _
@[simp] theorem State.countWrap_arb (o n : Nat) : (s.countWrap o n).arb = s.arb := State.wr_arb _ _ _
@[simp] theorem State.countWrap_jtag (o n : Nat) : (s.countWrap o n).jtag = s.jtag := State.wr_jtag _ _ _
@[simp] theorem State.count64_pending (o n : Nat) : (s.count64 o n).pending = s.pending := State.wr64_pending _ _ _
@[simp] theorem State.count64_free (o n : Nat) : (s.count64 o n).free = s.free := State.wr64_free _ _ _
@[simp] theorem State.count64_hbm (o n : Nat) : (s.count64 o n).hbm = s.hbm := State.wr64_hbm _ _ _
@[simp] theorem State.count64_poison (o n : Nat) : (s.count64 o n).poison = s.poison := State.wr64_poison _ _ _
@[simp] theorem State.count64_outs (o n : Nat) : (s.count64 o n).outs = s.outs := State.wr64_outs _ _ _
@[simp] theorem State.count64_hold (o n : Nat) : (s.count64 o n).hold = s.hold := State.wr64_hold _ _ _
@[simp] theorem State.count64_por (o n : Nat) : (s.count64 o n).por = s.por := State.wr64_por _ _ _
@[simp] theorem State.count64_time (o n : Nat) : (s.count64 o n).time = s.time := State.wr64_time _ _ _
@[simp] theorem State.count64_streams (o n : Nat) : (s.count64 o n).streams = s.streams := State.wr64_streams _ _ _
@[simp] theorem State.count64_engines (o n : Nat) : (s.count64 o n).engines = s.engines := State.wr64_engines _ _ _
@[simp] theorem State.count64_subs (o n : Nat) : (s.count64 o n).subs = s.subs := State.wr64_subs _ _ _
@[simp] theorem State.count64_fabric (o n : Nat) : (s.count64 o n).fabric = s.fabric := State.wr64_fabric _ _ _
@[simp] theorem State.count64_pins (o n : Nat) : (s.count64 o n).pins = s.pins := State.wr64_pins _ _ _
@[simp] theorem State.count64_lanes (o n : Nat) : (s.count64 o n).lanes = s.lanes := State.wr64_lanes _ _ _
@[simp] theorem State.count64_swcmd (o n : Nat) : (s.count64 o n).swcmd = s.swcmd := State.wr64_swcmd _ _ _
@[simp] theorem State.count64_chan (o n : Nat) : (s.count64 o n).chan = s.chan := State.wr64_chan _ _ _
@[simp] theorem State.count64_cores (o n : Nat) : (s.count64 o n).cores = s.cores := State.wr64_cores _ _ _
@[simp] theorem State.count64_clusters (o n : Nat) : (s.count64 o n).clusters = s.clusters := State.wr64_clusters _ _ _
@[simp] theorem State.count64_taken (o n : Nat) : (s.count64 o n).taken = s.taken := State.wr64_taken _ _ _
@[simp] theorem State.count64_mgmt (o n : Nat) : (s.count64 o n).mgmt = s.mgmt := State.wr64_mgmt _ _ _
@[simp] theorem State.count64_pf (o n : Nat) : (s.count64 o n).pf = s.pf := State.wr64_pf _ _ _
@[simp] theorem State.count64_parts (o n : Nat) : (s.count64 o n).parts = s.parts := State.wr64_parts _ _ _
@[simp] theorem State.count64_owners (o n : Nat) : (s.count64 o n).owners = s.owners := State.wr64_owners _ _ _
@[simp] theorem State.count64_creq (o n : Nat) : (s.count64 o n).creq = s.creq := State.wr64_creq _ _ _
@[simp] theorem State.count64_lps (o n : Nat) : (s.count64 o n).lps = s.lps := State.wr64_lps _ _ _
@[simp] theorem State.count64_doms (o n : Nat) : (s.count64 o n).doms = s.doms := State.wr64_doms _ _ _
@[simp] theorem State.count64_nvs (o n : Nat) : (s.count64 o n).nvs = s.nvs := State.wr64_nvs _ _ _
@[simp] theorem State.count64_test (o n : Nat) : (s.count64 o n).test = s.test := State.wr64_test _ _ _
@[simp] theorem State.count64_ages (o n : Nat) : (s.count64 o n).ages = s.ages := State.wr64_ages _ _ _
@[simp] theorem State.count64_readout (o n : Nat) : (s.count64 o n).readout = s.readout := State.wr64_readout _ _ _
@[simp] theorem State.count64_sec (o n : Nat) : (s.count64 o n).sec = s.sec := State.wr64_sec _ _ _
@[simp] theorem State.count64_arb (o n : Nat) : (s.count64 o n).arb = s.arb := State.wr64_arb _ _ _
@[simp] theorem State.count64_jtag (o n : Nat) : (s.count64 o n).jtag = s.jtag := State.wr64_jtag _ _ _
@[simp] theorem State.resetRegs_pending (l h : Nat) : (s.resetRegs l h).pending = s.pending := State.withRegs_pending s _
@[simp] theorem State.resetRegs_free (l h : Nat) : (s.resetRegs l h).free = s.free := State.withRegs_free s _
@[simp] theorem State.resetRegs_hbm (l h : Nat) : (s.resetRegs l h).hbm = s.hbm := State.withRegs_hbm s _
@[simp] theorem State.resetRegs_poison (l h : Nat) : (s.resetRegs l h).poison = s.poison := State.withRegs_poison s _
@[simp] theorem State.resetRegs_outs (l h : Nat) : (s.resetRegs l h).outs = s.outs := State.withRegs_outs s _
@[simp] theorem State.resetRegs_hold (l h : Nat) : (s.resetRegs l h).hold = s.hold := State.withRegs_hold s _
@[simp] theorem State.resetRegs_por (l h : Nat) : (s.resetRegs l h).por = s.por := State.withRegs_por s _
@[simp] theorem State.resetRegs_time (l h : Nat) : (s.resetRegs l h).time = s.time := State.withRegs_time s _
@[simp] theorem State.resetRegs_streams (l h : Nat) : (s.resetRegs l h).streams = s.streams := State.withRegs_streams s _
@[simp] theorem State.resetRegs_engines (l h : Nat) : (s.resetRegs l h).engines = s.engines := State.withRegs_engines s _
@[simp] theorem State.resetRegs_subs (l h : Nat) : (s.resetRegs l h).subs = s.subs := State.withRegs_subs s _
@[simp] theorem State.resetRegs_fabric (l h : Nat) : (s.resetRegs l h).fabric = s.fabric := State.withRegs_fabric s _
@[simp] theorem State.resetRegs_pins (l h : Nat) : (s.resetRegs l h).pins = s.pins := State.withRegs_pins s _
@[simp] theorem State.resetRegs_lanes (l h : Nat) : (s.resetRegs l h).lanes = s.lanes := State.withRegs_lanes s _
@[simp] theorem State.resetRegs_swcmd (l h : Nat) : (s.resetRegs l h).swcmd = s.swcmd := State.withRegs_swcmd s _
@[simp] theorem State.resetRegs_chan (l h : Nat) : (s.resetRegs l h).chan = s.chan := State.withRegs_chan s _
@[simp] theorem State.resetRegs_cores (l h : Nat) : (s.resetRegs l h).cores = s.cores := State.withRegs_cores s _
@[simp] theorem State.resetRegs_clusters (l h : Nat) : (s.resetRegs l h).clusters = s.clusters := State.withRegs_clusters s _
@[simp] theorem State.resetRegs_taken (l h : Nat) : (s.resetRegs l h).taken = s.taken := State.withRegs_taken s _
@[simp] theorem State.resetRegs_mgmt (l h : Nat) : (s.resetRegs l h).mgmt = s.mgmt := State.withRegs_mgmt s _
@[simp] theorem State.resetRegs_pf (l h : Nat) : (s.resetRegs l h).pf = s.pf := State.withRegs_pf s _
@[simp] theorem State.resetRegs_parts (l h : Nat) : (s.resetRegs l h).parts = s.parts := State.withRegs_parts s _
@[simp] theorem State.resetRegs_owners (l h : Nat) : (s.resetRegs l h).owners = s.owners := State.withRegs_owners s _
@[simp] theorem State.resetRegs_creq (l h : Nat) : (s.resetRegs l h).creq = s.creq := State.withRegs_creq s _
@[simp] theorem State.resetRegs_lps (l h : Nat) : (s.resetRegs l h).lps = s.lps := State.withRegs_lps s _
@[simp] theorem State.resetRegs_doms (l h : Nat) : (s.resetRegs l h).doms = s.doms := State.withRegs_doms s _
@[simp] theorem State.resetRegs_nvs (l h : Nat) : (s.resetRegs l h).nvs = s.nvs := State.withRegs_nvs s _
@[simp] theorem State.resetRegs_test (l h : Nat) : (s.resetRegs l h).test = s.test := State.withRegs_test s _
@[simp] theorem State.resetRegs_ages (l h : Nat) : (s.resetRegs l h).ages = s.ages := State.withRegs_ages s _
@[simp] theorem State.resetRegs_readout (l h : Nat) : (s.resetRegs l h).readout = s.readout := State.withRegs_readout s _
@[simp] theorem State.resetRegs_sec (l h : Nat) : (s.resetRegs l h).sec = s.sec := State.withRegs_sec s _
@[simp] theorem State.resetRegs_arb (l h : Nat) : (s.resetRegs l h).arb = s.arb := State.withRegs_arb s _
@[simp] theorem State.resetRegs_jtag (l h : Nat) : (s.resetRegs l h).jtag = s.jtag := State.withRegs_jtag s _
@[simp] theorem State.emit_pending (x : Out) : (s.emit x).pending = s.pending := State.withOuts_pending s _
@[simp] theorem State.emit_free (x : Out) : (s.emit x).free = s.free := State.withOuts_free s _
@[simp] theorem State.emit_regs (x : Out) : (s.emit x).regs = s.regs := State.withOuts_regs s _
@[simp] theorem State.emit_hbm (x : Out) : (s.emit x).hbm = s.hbm := State.withOuts_hbm s _
@[simp] theorem State.emit_poison (x : Out) : (s.emit x).poison = s.poison := State.withOuts_poison s _
@[simp] theorem State.emit_hold (x : Out) : (s.emit x).hold = s.hold := State.withOuts_hold s _
@[simp] theorem State.emit_por (x : Out) : (s.emit x).por = s.por := State.withOuts_por s _
@[simp] theorem State.emit_time (x : Out) : (s.emit x).time = s.time := State.withOuts_time s _
@[simp] theorem State.emit_streams (x : Out) : (s.emit x).streams = s.streams := State.withOuts_streams s _
@[simp] theorem State.emit_engines (x : Out) : (s.emit x).engines = s.engines := State.withOuts_engines s _
@[simp] theorem State.emit_subs (x : Out) : (s.emit x).subs = s.subs := State.withOuts_subs s _
@[simp] theorem State.emit_fabric (x : Out) : (s.emit x).fabric = s.fabric := State.withOuts_fabric s _
@[simp] theorem State.emit_pins (x : Out) : (s.emit x).pins = s.pins := State.withOuts_pins s _
@[simp] theorem State.emit_lanes (x : Out) : (s.emit x).lanes = s.lanes := State.withOuts_lanes s _
@[simp] theorem State.emit_swcmd (x : Out) : (s.emit x).swcmd = s.swcmd := State.withOuts_swcmd s _
@[simp] theorem State.emit_chan (x : Out) : (s.emit x).chan = s.chan := State.withOuts_chan s _
@[simp] theorem State.emit_cores (x : Out) : (s.emit x).cores = s.cores := State.withOuts_cores s _
@[simp] theorem State.emit_clusters (x : Out) : (s.emit x).clusters = s.clusters := State.withOuts_clusters s _
@[simp] theorem State.emit_taken (x : Out) : (s.emit x).taken = s.taken := State.withOuts_taken s _
@[simp] theorem State.emit_mgmt (x : Out) : (s.emit x).mgmt = s.mgmt := State.withOuts_mgmt s _
@[simp] theorem State.emit_pf (x : Out) : (s.emit x).pf = s.pf := State.withOuts_pf s _
@[simp] theorem State.emit_parts (x : Out) : (s.emit x).parts = s.parts := State.withOuts_parts s _
@[simp] theorem State.emit_owners (x : Out) : (s.emit x).owners = s.owners := State.withOuts_owners s _
@[simp] theorem State.emit_creq (x : Out) : (s.emit x).creq = s.creq := State.withOuts_creq s _
@[simp] theorem State.emit_lps (x : Out) : (s.emit x).lps = s.lps := State.withOuts_lps s _
@[simp] theorem State.emit_doms (x : Out) : (s.emit x).doms = s.doms := State.withOuts_doms s _
@[simp] theorem State.emit_nvs (x : Out) : (s.emit x).nvs = s.nvs := State.withOuts_nvs s _
@[simp] theorem State.emit_test (x : Out) : (s.emit x).test = s.test := State.withOuts_test s _
@[simp] theorem State.emit_ages (x : Out) : (s.emit x).ages = s.ages := State.withOuts_ages s _
@[simp] theorem State.emit_readout (x : Out) : (s.emit x).readout = s.readout := State.withOuts_readout s _
@[simp] theorem State.emit_sec (x : Out) : (s.emit x).sec = s.sec := State.withOuts_sec s _
@[simp] theorem State.emit_arb (x : Out) : (s.emit x).arb = s.arb := State.withOuts_arb s _
@[simp] theorem State.emit_jtag (x : Out) : (s.emit x).jtag = s.jtag := State.withOuts_jtag s _
@[simp] theorem State.hbmPut_pending (a : Nat) (b : Byte) : (s.hbmPut a b).pending = s.pending := State.withHbm_pending s _
@[simp] theorem State.hbmPut_free (a : Nat) (b : Byte) : (s.hbmPut a b).free = s.free := State.withHbm_free s _
@[simp] theorem State.hbmPut_regs (a : Nat) (b : Byte) : (s.hbmPut a b).regs = s.regs := State.withHbm_regs s _
@[simp] theorem State.hbmPut_poison (a : Nat) (b : Byte) : (s.hbmPut a b).poison = s.poison := State.withHbm_poison s _
@[simp] theorem State.hbmPut_outs (a : Nat) (b : Byte) : (s.hbmPut a b).outs = s.outs := State.withHbm_outs s _
@[simp] theorem State.hbmPut_hold (a : Nat) (b : Byte) : (s.hbmPut a b).hold = s.hold := State.withHbm_hold s _
@[simp] theorem State.hbmPut_por (a : Nat) (b : Byte) : (s.hbmPut a b).por = s.por := State.withHbm_por s _
@[simp] theorem State.hbmPut_time (a : Nat) (b : Byte) : (s.hbmPut a b).time = s.time := State.withHbm_time s _
@[simp] theorem State.hbmPut_streams (a : Nat) (b : Byte) : (s.hbmPut a b).streams = s.streams := State.withHbm_streams s _
@[simp] theorem State.hbmPut_engines (a : Nat) (b : Byte) : (s.hbmPut a b).engines = s.engines := State.withHbm_engines s _
@[simp] theorem State.hbmPut_subs (a : Nat) (b : Byte) : (s.hbmPut a b).subs = s.subs := State.withHbm_subs s _
@[simp] theorem State.hbmPut_fabric (a : Nat) (b : Byte) : (s.hbmPut a b).fabric = s.fabric := State.withHbm_fabric s _
@[simp] theorem State.hbmPut_pins (a : Nat) (b : Byte) : (s.hbmPut a b).pins = s.pins := State.withHbm_pins s _
@[simp] theorem State.hbmPut_lanes (a : Nat) (b : Byte) : (s.hbmPut a b).lanes = s.lanes := State.withHbm_lanes s _
@[simp] theorem State.hbmPut_swcmd (a : Nat) (b : Byte) : (s.hbmPut a b).swcmd = s.swcmd := State.withHbm_swcmd s _
@[simp] theorem State.hbmPut_chan (a : Nat) (b : Byte) : (s.hbmPut a b).chan = s.chan := State.withHbm_chan s _
@[simp] theorem State.hbmPut_cores (a : Nat) (b : Byte) : (s.hbmPut a b).cores = s.cores := State.withHbm_cores s _
@[simp] theorem State.hbmPut_clusters (a : Nat) (b : Byte) : (s.hbmPut a b).clusters = s.clusters := State.withHbm_clusters s _
@[simp] theorem State.hbmPut_taken (a : Nat) (b : Byte) : (s.hbmPut a b).taken = s.taken := State.withHbm_taken s _
@[simp] theorem State.hbmPut_mgmt (a : Nat) (b : Byte) : (s.hbmPut a b).mgmt = s.mgmt := State.withHbm_mgmt s _
@[simp] theorem State.hbmPut_pf (a : Nat) (b : Byte) : (s.hbmPut a b).pf = s.pf := State.withHbm_pf s _
@[simp] theorem State.hbmPut_parts (a : Nat) (b : Byte) : (s.hbmPut a b).parts = s.parts := State.withHbm_parts s _
@[simp] theorem State.hbmPut_owners (a : Nat) (b : Byte) : (s.hbmPut a b).owners = s.owners := State.withHbm_owners s _
@[simp] theorem State.hbmPut_creq (a : Nat) (b : Byte) : (s.hbmPut a b).creq = s.creq := State.withHbm_creq s _
@[simp] theorem State.hbmPut_lps (a : Nat) (b : Byte) : (s.hbmPut a b).lps = s.lps := State.withHbm_lps s _
@[simp] theorem State.hbmPut_doms (a : Nat) (b : Byte) : (s.hbmPut a b).doms = s.doms := State.withHbm_doms s _
@[simp] theorem State.hbmPut_nvs (a : Nat) (b : Byte) : (s.hbmPut a b).nvs = s.nvs := State.withHbm_nvs s _
@[simp] theorem State.hbmPut_test (a : Nat) (b : Byte) : (s.hbmPut a b).test = s.test := State.withHbm_test s _
@[simp] theorem State.hbmPut_ages (a : Nat) (b : Byte) : (s.hbmPut a b).ages = s.ages := State.withHbm_ages s _
@[simp] theorem State.hbmPut_readout (a : Nat) (b : Byte) : (s.hbmPut a b).readout = s.readout := State.withHbm_readout s _
@[simp] theorem State.hbmPut_sec (a : Nat) (b : Byte) : (s.hbmPut a b).sec = s.sec := State.withHbm_sec s _
@[simp] theorem State.hbmPut_arb (a : Nat) (b : Byte) : (s.hbmPut a b).arb = s.arb := State.withHbm_arb s _
@[simp] theorem State.hbmPut_jtag (a : Nat) (b : Byte) : (s.hbmPut a b).jtag = s.jtag := State.withHbm_jtag s _
@[simp] theorem State.hbmZero_pending (a n : Nat) : (s.hbmZero a n).pending = s.pending := State.withHbm_pending s _
@[simp] theorem State.hbmZero_free (a n : Nat) : (s.hbmZero a n).free = s.free := State.withHbm_free s _
@[simp] theorem State.hbmZero_regs (a n : Nat) : (s.hbmZero a n).regs = s.regs := State.withHbm_regs s _
@[simp] theorem State.hbmZero_poison (a n : Nat) : (s.hbmZero a n).poison = s.poison := State.withHbm_poison s _
@[simp] theorem State.hbmZero_outs (a n : Nat) : (s.hbmZero a n).outs = s.outs := State.withHbm_outs s _
@[simp] theorem State.hbmZero_hold (a n : Nat) : (s.hbmZero a n).hold = s.hold := State.withHbm_hold s _
@[simp] theorem State.hbmZero_por (a n : Nat) : (s.hbmZero a n).por = s.por := State.withHbm_por s _
@[simp] theorem State.hbmZero_time (a n : Nat) : (s.hbmZero a n).time = s.time := State.withHbm_time s _
@[simp] theorem State.hbmZero_streams (a n : Nat) : (s.hbmZero a n).streams = s.streams := State.withHbm_streams s _
@[simp] theorem State.hbmZero_engines (a n : Nat) : (s.hbmZero a n).engines = s.engines := State.withHbm_engines s _
@[simp] theorem State.hbmZero_subs (a n : Nat) : (s.hbmZero a n).subs = s.subs := State.withHbm_subs s _
@[simp] theorem State.hbmZero_fabric (a n : Nat) : (s.hbmZero a n).fabric = s.fabric := State.withHbm_fabric s _
@[simp] theorem State.hbmZero_pins (a n : Nat) : (s.hbmZero a n).pins = s.pins := State.withHbm_pins s _
@[simp] theorem State.hbmZero_lanes (a n : Nat) : (s.hbmZero a n).lanes = s.lanes := State.withHbm_lanes s _
@[simp] theorem State.hbmZero_swcmd (a n : Nat) : (s.hbmZero a n).swcmd = s.swcmd := State.withHbm_swcmd s _
@[simp] theorem State.hbmZero_chan (a n : Nat) : (s.hbmZero a n).chan = s.chan := State.withHbm_chan s _
@[simp] theorem State.hbmZero_cores (a n : Nat) : (s.hbmZero a n).cores = s.cores := State.withHbm_cores s _
@[simp] theorem State.hbmZero_clusters (a n : Nat) : (s.hbmZero a n).clusters = s.clusters := State.withHbm_clusters s _
@[simp] theorem State.hbmZero_taken (a n : Nat) : (s.hbmZero a n).taken = s.taken := State.withHbm_taken s _
@[simp] theorem State.hbmZero_mgmt (a n : Nat) : (s.hbmZero a n).mgmt = s.mgmt := State.withHbm_mgmt s _
@[simp] theorem State.hbmZero_pf (a n : Nat) : (s.hbmZero a n).pf = s.pf := State.withHbm_pf s _
@[simp] theorem State.hbmZero_parts (a n : Nat) : (s.hbmZero a n).parts = s.parts := State.withHbm_parts s _
@[simp] theorem State.hbmZero_owners (a n : Nat) : (s.hbmZero a n).owners = s.owners := State.withHbm_owners s _
@[simp] theorem State.hbmZero_creq (a n : Nat) : (s.hbmZero a n).creq = s.creq := State.withHbm_creq s _
@[simp] theorem State.hbmZero_lps (a n : Nat) : (s.hbmZero a n).lps = s.lps := State.withHbm_lps s _
@[simp] theorem State.hbmZero_doms (a n : Nat) : (s.hbmZero a n).doms = s.doms := State.withHbm_doms s _
@[simp] theorem State.hbmZero_nvs (a n : Nat) : (s.hbmZero a n).nvs = s.nvs := State.withHbm_nvs s _
@[simp] theorem State.hbmZero_test (a n : Nat) : (s.hbmZero a n).test = s.test := State.withHbm_test s _
@[simp] theorem State.hbmZero_ages (a n : Nat) : (s.hbmZero a n).ages = s.ages := State.withHbm_ages s _
@[simp] theorem State.hbmZero_readout (a n : Nat) : (s.hbmZero a n).readout = s.readout := State.withHbm_readout s _
@[simp] theorem State.hbmZero_sec (a n : Nat) : (s.hbmZero a n).sec = s.sec := State.withHbm_sec s _
@[simp] theorem State.hbmZero_arb (a n : Nat) : (s.hbmZero a n).arb = s.arb := State.withHbm_arb s _
@[simp] theorem State.hbmZero_jtag (a n : Nat) : (s.hbmZero a n).jtag = s.jtag := State.withHbm_jtag s _
@[simp] theorem State.setPoison_pending (ln : Nat) (b : Bool) : (s.setPoison ln b).pending = s.pending := State.withPoison_pending s _
@[simp] theorem State.setPoison_free (ln : Nat) (b : Bool) : (s.setPoison ln b).free = s.free := State.withPoison_free s _
@[simp] theorem State.setPoison_regs (ln : Nat) (b : Bool) : (s.setPoison ln b).regs = s.regs := State.withPoison_regs s _
@[simp] theorem State.setPoison_hbm (ln : Nat) (b : Bool) : (s.setPoison ln b).hbm = s.hbm := State.withPoison_hbm s _
@[simp] theorem State.setPoison_outs (ln : Nat) (b : Bool) : (s.setPoison ln b).outs = s.outs := State.withPoison_outs s _
@[simp] theorem State.setPoison_hold (ln : Nat) (b : Bool) : (s.setPoison ln b).hold = s.hold := State.withPoison_hold s _
@[simp] theorem State.setPoison_por (ln : Nat) (b : Bool) : (s.setPoison ln b).por = s.por := State.withPoison_por s _
@[simp] theorem State.setPoison_time (ln : Nat) (b : Bool) : (s.setPoison ln b).time = s.time := State.withPoison_time s _
@[simp] theorem State.setPoison_streams (ln : Nat) (b : Bool) : (s.setPoison ln b).streams = s.streams := State.withPoison_streams s _
@[simp] theorem State.setPoison_engines (ln : Nat) (b : Bool) : (s.setPoison ln b).engines = s.engines := State.withPoison_engines s _
@[simp] theorem State.setPoison_subs (ln : Nat) (b : Bool) : (s.setPoison ln b).subs = s.subs := State.withPoison_subs s _
@[simp] theorem State.setPoison_fabric (ln : Nat) (b : Bool) : (s.setPoison ln b).fabric = s.fabric := State.withPoison_fabric s _
@[simp] theorem State.setPoison_pins (ln : Nat) (b : Bool) : (s.setPoison ln b).pins = s.pins := State.withPoison_pins s _
@[simp] theorem State.setPoison_lanes (ln : Nat) (b : Bool) : (s.setPoison ln b).lanes = s.lanes := State.withPoison_lanes s _
@[simp] theorem State.setPoison_swcmd (ln : Nat) (b : Bool) : (s.setPoison ln b).swcmd = s.swcmd := State.withPoison_swcmd s _
@[simp] theorem State.setPoison_chan (ln : Nat) (b : Bool) : (s.setPoison ln b).chan = s.chan := State.withPoison_chan s _
@[simp] theorem State.setPoison_cores (ln : Nat) (b : Bool) : (s.setPoison ln b).cores = s.cores := State.withPoison_cores s _
@[simp] theorem State.setPoison_clusters (ln : Nat) (b : Bool) : (s.setPoison ln b).clusters = s.clusters := State.withPoison_clusters s _
@[simp] theorem State.setPoison_taken (ln : Nat) (b : Bool) : (s.setPoison ln b).taken = s.taken := State.withPoison_taken s _
@[simp] theorem State.setPoison_mgmt (ln : Nat) (b : Bool) : (s.setPoison ln b).mgmt = s.mgmt := State.withPoison_mgmt s _
@[simp] theorem State.setPoison_pf (ln : Nat) (b : Bool) : (s.setPoison ln b).pf = s.pf := State.withPoison_pf s _
@[simp] theorem State.setPoison_parts (ln : Nat) (b : Bool) : (s.setPoison ln b).parts = s.parts := State.withPoison_parts s _
@[simp] theorem State.setPoison_owners (ln : Nat) (b : Bool) : (s.setPoison ln b).owners = s.owners := State.withPoison_owners s _
@[simp] theorem State.setPoison_creq (ln : Nat) (b : Bool) : (s.setPoison ln b).creq = s.creq := State.withPoison_creq s _
@[simp] theorem State.setPoison_lps (ln : Nat) (b : Bool) : (s.setPoison ln b).lps = s.lps := State.withPoison_lps s _
@[simp] theorem State.setPoison_doms (ln : Nat) (b : Bool) : (s.setPoison ln b).doms = s.doms := State.withPoison_doms s _
@[simp] theorem State.setPoison_nvs (ln : Nat) (b : Bool) : (s.setPoison ln b).nvs = s.nvs := State.withPoison_nvs s _
@[simp] theorem State.setPoison_test (ln : Nat) (b : Bool) : (s.setPoison ln b).test = s.test := State.withPoison_test s _
@[simp] theorem State.setPoison_ages (ln : Nat) (b : Bool) : (s.setPoison ln b).ages = s.ages := State.withPoison_ages s _
@[simp] theorem State.setPoison_readout (ln : Nat) (b : Bool) : (s.setPoison ln b).readout = s.readout := State.withPoison_readout s _
@[simp] theorem State.setPoison_sec (ln : Nat) (b : Bool) : (s.setPoison ln b).sec = s.sec := State.withPoison_sec s _
@[simp] theorem State.setPoison_arb (ln : Nat) (b : Bool) : (s.setPoison ln b).arb = s.arb := State.withPoison_arb s _
@[simp] theorem State.setPoison_jtag (ln : Nat) (b : Bool) : (s.setPoison ln b).jtag = s.jtag := State.withPoison_jtag s _
@[simp] theorem State.setPart_pending (i : Nat) (x : PartSt) : (s.setPart i x).pending = s.pending := State.withParts_pending s _
@[simp] theorem State.setPart_free (i : Nat) (x : PartSt) : (s.setPart i x).free = s.free := State.withParts_free s _
@[simp] theorem State.setPart_regs (i : Nat) (x : PartSt) : (s.setPart i x).regs = s.regs := State.withParts_regs s _
@[simp] theorem State.setPart_hbm (i : Nat) (x : PartSt) : (s.setPart i x).hbm = s.hbm := State.withParts_hbm s _
@[simp] theorem State.setPart_poison (i : Nat) (x : PartSt) : (s.setPart i x).poison = s.poison := State.withParts_poison s _
@[simp] theorem State.setPart_outs (i : Nat) (x : PartSt) : (s.setPart i x).outs = s.outs := State.withParts_outs s _
@[simp] theorem State.setPart_hold (i : Nat) (x : PartSt) : (s.setPart i x).hold = s.hold := State.withParts_hold s _
@[simp] theorem State.setPart_por (i : Nat) (x : PartSt) : (s.setPart i x).por = s.por := State.withParts_por s _
@[simp] theorem State.setPart_time (i : Nat) (x : PartSt) : (s.setPart i x).time = s.time := State.withParts_time s _
@[simp] theorem State.setPart_streams (i : Nat) (x : PartSt) : (s.setPart i x).streams = s.streams := State.withParts_streams s _
@[simp] theorem State.setPart_engines (i : Nat) (x : PartSt) : (s.setPart i x).engines = s.engines := State.withParts_engines s _
@[simp] theorem State.setPart_subs (i : Nat) (x : PartSt) : (s.setPart i x).subs = s.subs := State.withParts_subs s _
@[simp] theorem State.setPart_fabric (i : Nat) (x : PartSt) : (s.setPart i x).fabric = s.fabric := State.withParts_fabric s _
@[simp] theorem State.setPart_pins (i : Nat) (x : PartSt) : (s.setPart i x).pins = s.pins := State.withParts_pins s _
@[simp] theorem State.setPart_lanes (i : Nat) (x : PartSt) : (s.setPart i x).lanes = s.lanes := State.withParts_lanes s _
@[simp] theorem State.setPart_swcmd (i : Nat) (x : PartSt) : (s.setPart i x).swcmd = s.swcmd := State.withParts_swcmd s _
@[simp] theorem State.setPart_chan (i : Nat) (x : PartSt) : (s.setPart i x).chan = s.chan := State.withParts_chan s _
@[simp] theorem State.setPart_cores (i : Nat) (x : PartSt) : (s.setPart i x).cores = s.cores := State.withParts_cores s _
@[simp] theorem State.setPart_clusters (i : Nat) (x : PartSt) : (s.setPart i x).clusters = s.clusters := State.withParts_clusters s _
@[simp] theorem State.setPart_taken (i : Nat) (x : PartSt) : (s.setPart i x).taken = s.taken := State.withParts_taken s _
@[simp] theorem State.setPart_mgmt (i : Nat) (x : PartSt) : (s.setPart i x).mgmt = s.mgmt := State.withParts_mgmt s _
@[simp] theorem State.setPart_pf (i : Nat) (x : PartSt) : (s.setPart i x).pf = s.pf := State.withParts_pf s _
@[simp] theorem State.setPart_owners (i : Nat) (x : PartSt) : (s.setPart i x).owners = s.owners := State.withParts_owners s _
@[simp] theorem State.setPart_creq (i : Nat) (x : PartSt) : (s.setPart i x).creq = s.creq := State.withParts_creq s _
@[simp] theorem State.setPart_lps (i : Nat) (x : PartSt) : (s.setPart i x).lps = s.lps := State.withParts_lps s _
@[simp] theorem State.setPart_doms (i : Nat) (x : PartSt) : (s.setPart i x).doms = s.doms := State.withParts_doms s _
@[simp] theorem State.setPart_nvs (i : Nat) (x : PartSt) : (s.setPart i x).nvs = s.nvs := State.withParts_nvs s _
@[simp] theorem State.setPart_test (i : Nat) (x : PartSt) : (s.setPart i x).test = s.test := State.withParts_test s _
@[simp] theorem State.setPart_ages (i : Nat) (x : PartSt) : (s.setPart i x).ages = s.ages := State.withParts_ages s _
@[simp] theorem State.setPart_readout (i : Nat) (x : PartSt) : (s.setPart i x).readout = s.readout := State.withParts_readout s _
@[simp] theorem State.setPart_sec (i : Nat) (x : PartSt) : (s.setPart i x).sec = s.sec := State.withParts_sec s _
@[simp] theorem State.setPart_arb (i : Nat) (x : PartSt) : (s.setPart i x).arb = s.arb := State.withParts_arb s _
@[simp] theorem State.setPart_jtag (i : Nat) (x : PartSt) : (s.setPart i x).jtag = s.jtag := State.withParts_jtag s _
@[simp] theorem State.setLane_pending (i : Nat) (x : LaneSt) : (s.setLane i x).pending = s.pending := State.withLanes_pending s _
@[simp] theorem State.setLane_free (i : Nat) (x : LaneSt) : (s.setLane i x).free = s.free := State.withLanes_free s _
@[simp] theorem State.setLane_regs (i : Nat) (x : LaneSt) : (s.setLane i x).regs = s.regs := State.withLanes_regs s _
@[simp] theorem State.setLane_hbm (i : Nat) (x : LaneSt) : (s.setLane i x).hbm = s.hbm := State.withLanes_hbm s _
@[simp] theorem State.setLane_poison (i : Nat) (x : LaneSt) : (s.setLane i x).poison = s.poison := State.withLanes_poison s _
@[simp] theorem State.setLane_outs (i : Nat) (x : LaneSt) : (s.setLane i x).outs = s.outs := State.withLanes_outs s _
@[simp] theorem State.setLane_hold (i : Nat) (x : LaneSt) : (s.setLane i x).hold = s.hold := State.withLanes_hold s _
@[simp] theorem State.setLane_por (i : Nat) (x : LaneSt) : (s.setLane i x).por = s.por := State.withLanes_por s _
@[simp] theorem State.setLane_time (i : Nat) (x : LaneSt) : (s.setLane i x).time = s.time := State.withLanes_time s _
@[simp] theorem State.setLane_streams (i : Nat) (x : LaneSt) : (s.setLane i x).streams = s.streams := State.withLanes_streams s _
@[simp] theorem State.setLane_engines (i : Nat) (x : LaneSt) : (s.setLane i x).engines = s.engines := State.withLanes_engines s _
@[simp] theorem State.setLane_subs (i : Nat) (x : LaneSt) : (s.setLane i x).subs = s.subs := State.withLanes_subs s _
@[simp] theorem State.setLane_fabric (i : Nat) (x : LaneSt) : (s.setLane i x).fabric = s.fabric := State.withLanes_fabric s _
@[simp] theorem State.setLane_pins (i : Nat) (x : LaneSt) : (s.setLane i x).pins = s.pins := State.withLanes_pins s _
@[simp] theorem State.setLane_swcmd (i : Nat) (x : LaneSt) : (s.setLane i x).swcmd = s.swcmd := State.withLanes_swcmd s _
@[simp] theorem State.setLane_chan (i : Nat) (x : LaneSt) : (s.setLane i x).chan = s.chan := State.withLanes_chan s _
@[simp] theorem State.setLane_cores (i : Nat) (x : LaneSt) : (s.setLane i x).cores = s.cores := State.withLanes_cores s _
@[simp] theorem State.setLane_clusters (i : Nat) (x : LaneSt) : (s.setLane i x).clusters = s.clusters := State.withLanes_clusters s _
@[simp] theorem State.setLane_taken (i : Nat) (x : LaneSt) : (s.setLane i x).taken = s.taken := State.withLanes_taken s _
@[simp] theorem State.setLane_mgmt (i : Nat) (x : LaneSt) : (s.setLane i x).mgmt = s.mgmt := State.withLanes_mgmt s _
@[simp] theorem State.setLane_pf (i : Nat) (x : LaneSt) : (s.setLane i x).pf = s.pf := State.withLanes_pf s _
@[simp] theorem State.setLane_parts (i : Nat) (x : LaneSt) : (s.setLane i x).parts = s.parts := State.withLanes_parts s _
@[simp] theorem State.setLane_owners (i : Nat) (x : LaneSt) : (s.setLane i x).owners = s.owners := State.withLanes_owners s _
@[simp] theorem State.setLane_creq (i : Nat) (x : LaneSt) : (s.setLane i x).creq = s.creq := State.withLanes_creq s _
@[simp] theorem State.setLane_lps (i : Nat) (x : LaneSt) : (s.setLane i x).lps = s.lps := State.withLanes_lps s _
@[simp] theorem State.setLane_doms (i : Nat) (x : LaneSt) : (s.setLane i x).doms = s.doms := State.withLanes_doms s _
@[simp] theorem State.setLane_nvs (i : Nat) (x : LaneSt) : (s.setLane i x).nvs = s.nvs := State.withLanes_nvs s _
@[simp] theorem State.setLane_test (i : Nat) (x : LaneSt) : (s.setLane i x).test = s.test := State.withLanes_test s _
@[simp] theorem State.setLane_ages (i : Nat) (x : LaneSt) : (s.setLane i x).ages = s.ages := State.withLanes_ages s _
@[simp] theorem State.setLane_readout (i : Nat) (x : LaneSt) : (s.setLane i x).readout = s.readout := State.withLanes_readout s _
@[simp] theorem State.setLane_sec (i : Nat) (x : LaneSt) : (s.setLane i x).sec = s.sec := State.withLanes_sec s _
@[simp] theorem State.setLane_arb (i : Nat) (x : LaneSt) : (s.setLane i x).arb = s.arb := State.withLanes_arb s _
@[simp] theorem State.setLane_jtag (i : Nat) (x : LaneSt) : (s.setLane i x).jtag = s.jtag := State.withLanes_jtag s _
@[simp] theorem State.setStream_pending (i : Nat) (x : StreamSt) : (s.setStream i x).pending = s.pending := State.withStreams_pending s _
@[simp] theorem State.setStream_free (i : Nat) (x : StreamSt) : (s.setStream i x).free = s.free := State.withStreams_free s _
@[simp] theorem State.setStream_regs (i : Nat) (x : StreamSt) : (s.setStream i x).regs = s.regs := State.withStreams_regs s _
@[simp] theorem State.setStream_hbm (i : Nat) (x : StreamSt) : (s.setStream i x).hbm = s.hbm := State.withStreams_hbm s _
@[simp] theorem State.setStream_poison (i : Nat) (x : StreamSt) : (s.setStream i x).poison = s.poison := State.withStreams_poison s _
@[simp] theorem State.setStream_outs (i : Nat) (x : StreamSt) : (s.setStream i x).outs = s.outs := State.withStreams_outs s _
@[simp] theorem State.setStream_hold (i : Nat) (x : StreamSt) : (s.setStream i x).hold = s.hold := State.withStreams_hold s _
@[simp] theorem State.setStream_por (i : Nat) (x : StreamSt) : (s.setStream i x).por = s.por := State.withStreams_por s _
@[simp] theorem State.setStream_time (i : Nat) (x : StreamSt) : (s.setStream i x).time = s.time := State.withStreams_time s _
@[simp] theorem State.setStream_engines (i : Nat) (x : StreamSt) : (s.setStream i x).engines = s.engines := State.withStreams_engines s _
@[simp] theorem State.setStream_subs (i : Nat) (x : StreamSt) : (s.setStream i x).subs = s.subs := State.withStreams_subs s _
@[simp] theorem State.setStream_fabric (i : Nat) (x : StreamSt) : (s.setStream i x).fabric = s.fabric := State.withStreams_fabric s _
@[simp] theorem State.setStream_pins (i : Nat) (x : StreamSt) : (s.setStream i x).pins = s.pins := State.withStreams_pins s _
@[simp] theorem State.setStream_lanes (i : Nat) (x : StreamSt) : (s.setStream i x).lanes = s.lanes := State.withStreams_lanes s _
@[simp] theorem State.setStream_swcmd (i : Nat) (x : StreamSt) : (s.setStream i x).swcmd = s.swcmd := State.withStreams_swcmd s _
@[simp] theorem State.setStream_chan (i : Nat) (x : StreamSt) : (s.setStream i x).chan = s.chan := State.withStreams_chan s _
@[simp] theorem State.setStream_cores (i : Nat) (x : StreamSt) : (s.setStream i x).cores = s.cores := State.withStreams_cores s _
@[simp] theorem State.setStream_clusters (i : Nat) (x : StreamSt) : (s.setStream i x).clusters = s.clusters := State.withStreams_clusters s _
@[simp] theorem State.setStream_taken (i : Nat) (x : StreamSt) : (s.setStream i x).taken = s.taken := State.withStreams_taken s _
@[simp] theorem State.setStream_mgmt (i : Nat) (x : StreamSt) : (s.setStream i x).mgmt = s.mgmt := State.withStreams_mgmt s _
@[simp] theorem State.setStream_pf (i : Nat) (x : StreamSt) : (s.setStream i x).pf = s.pf := State.withStreams_pf s _
@[simp] theorem State.setStream_parts (i : Nat) (x : StreamSt) : (s.setStream i x).parts = s.parts := State.withStreams_parts s _
@[simp] theorem State.setStream_owners (i : Nat) (x : StreamSt) : (s.setStream i x).owners = s.owners := State.withStreams_owners s _
@[simp] theorem State.setStream_creq (i : Nat) (x : StreamSt) : (s.setStream i x).creq = s.creq := State.withStreams_creq s _
@[simp] theorem State.setStream_lps (i : Nat) (x : StreamSt) : (s.setStream i x).lps = s.lps := State.withStreams_lps s _
@[simp] theorem State.setStream_doms (i : Nat) (x : StreamSt) : (s.setStream i x).doms = s.doms := State.withStreams_doms s _
@[simp] theorem State.setStream_nvs (i : Nat) (x : StreamSt) : (s.setStream i x).nvs = s.nvs := State.withStreams_nvs s _
@[simp] theorem State.setStream_test (i : Nat) (x : StreamSt) : (s.setStream i x).test = s.test := State.withStreams_test s _
@[simp] theorem State.setStream_ages (i : Nat) (x : StreamSt) : (s.setStream i x).ages = s.ages := State.withStreams_ages s _
@[simp] theorem State.setStream_readout (i : Nat) (x : StreamSt) : (s.setStream i x).readout = s.readout := State.withStreams_readout s _
@[simp] theorem State.setStream_sec (i : Nat) (x : StreamSt) : (s.setStream i x).sec = s.sec := State.withStreams_sec s _
@[simp] theorem State.setStream_arb (i : Nat) (x : StreamSt) : (s.setStream i x).arb = s.arb := State.withStreams_arb s _
@[simp] theorem State.setStream_jtag (i : Nat) (x : StreamSt) : (s.setStream i x).jtag = s.jtag := State.withStreams_jtag s _
@[simp] theorem State.setEng_pending (i : Nat) (x : EngSt) : (s.setEng i x).pending = s.pending := State.withEngines_pending s _
@[simp] theorem State.setEng_free (i : Nat) (x : EngSt) : (s.setEng i x).free = s.free := State.withEngines_free s _
@[simp] theorem State.setEng_regs (i : Nat) (x : EngSt) : (s.setEng i x).regs = s.regs := State.withEngines_regs s _
@[simp] theorem State.setEng_hbm (i : Nat) (x : EngSt) : (s.setEng i x).hbm = s.hbm := State.withEngines_hbm s _
@[simp] theorem State.setEng_poison (i : Nat) (x : EngSt) : (s.setEng i x).poison = s.poison := State.withEngines_poison s _
@[simp] theorem State.setEng_outs (i : Nat) (x : EngSt) : (s.setEng i x).outs = s.outs := State.withEngines_outs s _
@[simp] theorem State.setEng_hold (i : Nat) (x : EngSt) : (s.setEng i x).hold = s.hold := State.withEngines_hold s _
@[simp] theorem State.setEng_por (i : Nat) (x : EngSt) : (s.setEng i x).por = s.por := State.withEngines_por s _
@[simp] theorem State.setEng_time (i : Nat) (x : EngSt) : (s.setEng i x).time = s.time := State.withEngines_time s _
@[simp] theorem State.setEng_streams (i : Nat) (x : EngSt) : (s.setEng i x).streams = s.streams := State.withEngines_streams s _
@[simp] theorem State.setEng_subs (i : Nat) (x : EngSt) : (s.setEng i x).subs = s.subs := State.withEngines_subs s _
@[simp] theorem State.setEng_fabric (i : Nat) (x : EngSt) : (s.setEng i x).fabric = s.fabric := State.withEngines_fabric s _
@[simp] theorem State.setEng_pins (i : Nat) (x : EngSt) : (s.setEng i x).pins = s.pins := State.withEngines_pins s _
@[simp] theorem State.setEng_lanes (i : Nat) (x : EngSt) : (s.setEng i x).lanes = s.lanes := State.withEngines_lanes s _
@[simp] theorem State.setEng_swcmd (i : Nat) (x : EngSt) : (s.setEng i x).swcmd = s.swcmd := State.withEngines_swcmd s _
@[simp] theorem State.setEng_chan (i : Nat) (x : EngSt) : (s.setEng i x).chan = s.chan := State.withEngines_chan s _
@[simp] theorem State.setEng_cores (i : Nat) (x : EngSt) : (s.setEng i x).cores = s.cores := State.withEngines_cores s _
@[simp] theorem State.setEng_clusters (i : Nat) (x : EngSt) : (s.setEng i x).clusters = s.clusters := State.withEngines_clusters s _
@[simp] theorem State.setEng_taken (i : Nat) (x : EngSt) : (s.setEng i x).taken = s.taken := State.withEngines_taken s _
@[simp] theorem State.setEng_mgmt (i : Nat) (x : EngSt) : (s.setEng i x).mgmt = s.mgmt := State.withEngines_mgmt s _
@[simp] theorem State.setEng_pf (i : Nat) (x : EngSt) : (s.setEng i x).pf = s.pf := State.withEngines_pf s _
@[simp] theorem State.setEng_parts (i : Nat) (x : EngSt) : (s.setEng i x).parts = s.parts := State.withEngines_parts s _
@[simp] theorem State.setEng_owners (i : Nat) (x : EngSt) : (s.setEng i x).owners = s.owners := State.withEngines_owners s _
@[simp] theorem State.setEng_creq (i : Nat) (x : EngSt) : (s.setEng i x).creq = s.creq := State.withEngines_creq s _
@[simp] theorem State.setEng_lps (i : Nat) (x : EngSt) : (s.setEng i x).lps = s.lps := State.withEngines_lps s _
@[simp] theorem State.setEng_doms (i : Nat) (x : EngSt) : (s.setEng i x).doms = s.doms := State.withEngines_doms s _
@[simp] theorem State.setEng_nvs (i : Nat) (x : EngSt) : (s.setEng i x).nvs = s.nvs := State.withEngines_nvs s _
@[simp] theorem State.setEng_test (i : Nat) (x : EngSt) : (s.setEng i x).test = s.test := State.withEngines_test s _
@[simp] theorem State.setEng_ages (i : Nat) (x : EngSt) : (s.setEng i x).ages = s.ages := State.withEngines_ages s _
@[simp] theorem State.setEng_readout (i : Nat) (x : EngSt) : (s.setEng i x).readout = s.readout := State.withEngines_readout s _
@[simp] theorem State.setEng_sec (i : Nat) (x : EngSt) : (s.setEng i x).sec = s.sec := State.withEngines_sec s _
@[simp] theorem State.setEng_arb (i : Nat) (x : EngSt) : (s.setEng i x).arb = s.arb := State.withEngines_arb s _
@[simp] theorem State.setEng_jtag (i : Nat) (x : EngSt) : (s.setEng i x).jtag = s.jtag := State.withEngines_jtag s _
@[simp] theorem State.setSub_pending (i : Nat) (x : SubSt) : (s.setSub i x).pending = s.pending := State.withSubs_pending s _
@[simp] theorem State.setSub_free (i : Nat) (x : SubSt) : (s.setSub i x).free = s.free := State.withSubs_free s _
@[simp] theorem State.setSub_regs (i : Nat) (x : SubSt) : (s.setSub i x).regs = s.regs := State.withSubs_regs s _
@[simp] theorem State.setSub_hbm (i : Nat) (x : SubSt) : (s.setSub i x).hbm = s.hbm := State.withSubs_hbm s _
@[simp] theorem State.setSub_poison (i : Nat) (x : SubSt) : (s.setSub i x).poison = s.poison := State.withSubs_poison s _
@[simp] theorem State.setSub_outs (i : Nat) (x : SubSt) : (s.setSub i x).outs = s.outs := State.withSubs_outs s _
@[simp] theorem State.setSub_hold (i : Nat) (x : SubSt) : (s.setSub i x).hold = s.hold := State.withSubs_hold s _
@[simp] theorem State.setSub_por (i : Nat) (x : SubSt) : (s.setSub i x).por = s.por := State.withSubs_por s _
@[simp] theorem State.setSub_time (i : Nat) (x : SubSt) : (s.setSub i x).time = s.time := State.withSubs_time s _
@[simp] theorem State.setSub_streams (i : Nat) (x : SubSt) : (s.setSub i x).streams = s.streams := State.withSubs_streams s _
@[simp] theorem State.setSub_engines (i : Nat) (x : SubSt) : (s.setSub i x).engines = s.engines := State.withSubs_engines s _
@[simp] theorem State.setSub_fabric (i : Nat) (x : SubSt) : (s.setSub i x).fabric = s.fabric := State.withSubs_fabric s _
@[simp] theorem State.setSub_pins (i : Nat) (x : SubSt) : (s.setSub i x).pins = s.pins := State.withSubs_pins s _
@[simp] theorem State.setSub_lanes (i : Nat) (x : SubSt) : (s.setSub i x).lanes = s.lanes := State.withSubs_lanes s _
@[simp] theorem State.setSub_swcmd (i : Nat) (x : SubSt) : (s.setSub i x).swcmd = s.swcmd := State.withSubs_swcmd s _
@[simp] theorem State.setSub_chan (i : Nat) (x : SubSt) : (s.setSub i x).chan = s.chan := State.withSubs_chan s _
@[simp] theorem State.setSub_cores (i : Nat) (x : SubSt) : (s.setSub i x).cores = s.cores := State.withSubs_cores s _
@[simp] theorem State.setSub_clusters (i : Nat) (x : SubSt) : (s.setSub i x).clusters = s.clusters := State.withSubs_clusters s _
@[simp] theorem State.setSub_taken (i : Nat) (x : SubSt) : (s.setSub i x).taken = s.taken := State.withSubs_taken s _
@[simp] theorem State.setSub_mgmt (i : Nat) (x : SubSt) : (s.setSub i x).mgmt = s.mgmt := State.withSubs_mgmt s _
@[simp] theorem State.setSub_pf (i : Nat) (x : SubSt) : (s.setSub i x).pf = s.pf := State.withSubs_pf s _
@[simp] theorem State.setSub_parts (i : Nat) (x : SubSt) : (s.setSub i x).parts = s.parts := State.withSubs_parts s _
@[simp] theorem State.setSub_owners (i : Nat) (x : SubSt) : (s.setSub i x).owners = s.owners := State.withSubs_owners s _
@[simp] theorem State.setSub_creq (i : Nat) (x : SubSt) : (s.setSub i x).creq = s.creq := State.withSubs_creq s _
@[simp] theorem State.setSub_lps (i : Nat) (x : SubSt) : (s.setSub i x).lps = s.lps := State.withSubs_lps s _
@[simp] theorem State.setSub_doms (i : Nat) (x : SubSt) : (s.setSub i x).doms = s.doms := State.withSubs_doms s _
@[simp] theorem State.setSub_nvs (i : Nat) (x : SubSt) : (s.setSub i x).nvs = s.nvs := State.withSubs_nvs s _
@[simp] theorem State.setSub_test (i : Nat) (x : SubSt) : (s.setSub i x).test = s.test := State.withSubs_test s _
@[simp] theorem State.setSub_ages (i : Nat) (x : SubSt) : (s.setSub i x).ages = s.ages := State.withSubs_ages s _
@[simp] theorem State.setSub_readout (i : Nat) (x : SubSt) : (s.setSub i x).readout = s.readout := State.withSubs_readout s _
@[simp] theorem State.setSub_sec (i : Nat) (x : SubSt) : (s.setSub i x).sec = s.sec := State.withSubs_sec s _
@[simp] theorem State.setSub_arb (i : Nat) (x : SubSt) : (s.setSub i x).arb = s.arb := State.withSubs_arb s _
@[simp] theorem State.setSub_jtag (i : Nat) (x : SubSt) : (s.setSub i x).jtag = s.jtag := State.withSubs_jtag s _
@[simp] theorem State.setCore_pending (i : Nat) (x : CoreSt) : (s.setCore i x).pending = s.pending := State.withCores_pending s _
@[simp] theorem State.setCore_free (i : Nat) (x : CoreSt) : (s.setCore i x).free = s.free := State.withCores_free s _
@[simp] theorem State.setCore_regs (i : Nat) (x : CoreSt) : (s.setCore i x).regs = s.regs := State.withCores_regs s _
@[simp] theorem State.setCore_hbm (i : Nat) (x : CoreSt) : (s.setCore i x).hbm = s.hbm := State.withCores_hbm s _
@[simp] theorem State.setCore_poison (i : Nat) (x : CoreSt) : (s.setCore i x).poison = s.poison := State.withCores_poison s _
@[simp] theorem State.setCore_outs (i : Nat) (x : CoreSt) : (s.setCore i x).outs = s.outs := State.withCores_outs s _
@[simp] theorem State.setCore_hold (i : Nat) (x : CoreSt) : (s.setCore i x).hold = s.hold := State.withCores_hold s _
@[simp] theorem State.setCore_por (i : Nat) (x : CoreSt) : (s.setCore i x).por = s.por := State.withCores_por s _
@[simp] theorem State.setCore_time (i : Nat) (x : CoreSt) : (s.setCore i x).time = s.time := State.withCores_time s _
@[simp] theorem State.setCore_streams (i : Nat) (x : CoreSt) : (s.setCore i x).streams = s.streams := State.withCores_streams s _
@[simp] theorem State.setCore_engines (i : Nat) (x : CoreSt) : (s.setCore i x).engines = s.engines := State.withCores_engines s _
@[simp] theorem State.setCore_subs (i : Nat) (x : CoreSt) : (s.setCore i x).subs = s.subs := State.withCores_subs s _
@[simp] theorem State.setCore_fabric (i : Nat) (x : CoreSt) : (s.setCore i x).fabric = s.fabric := State.withCores_fabric s _
@[simp] theorem State.setCore_pins (i : Nat) (x : CoreSt) : (s.setCore i x).pins = s.pins := State.withCores_pins s _
@[simp] theorem State.setCore_lanes (i : Nat) (x : CoreSt) : (s.setCore i x).lanes = s.lanes := State.withCores_lanes s _
@[simp] theorem State.setCore_swcmd (i : Nat) (x : CoreSt) : (s.setCore i x).swcmd = s.swcmd := State.withCores_swcmd s _
@[simp] theorem State.setCore_chan (i : Nat) (x : CoreSt) : (s.setCore i x).chan = s.chan := State.withCores_chan s _
@[simp] theorem State.setCore_clusters (i : Nat) (x : CoreSt) : (s.setCore i x).clusters = s.clusters := State.withCores_clusters s _
@[simp] theorem State.setCore_taken (i : Nat) (x : CoreSt) : (s.setCore i x).taken = s.taken := State.withCores_taken s _
@[simp] theorem State.setCore_mgmt (i : Nat) (x : CoreSt) : (s.setCore i x).mgmt = s.mgmt := State.withCores_mgmt s _
@[simp] theorem State.setCore_pf (i : Nat) (x : CoreSt) : (s.setCore i x).pf = s.pf := State.withCores_pf s _
@[simp] theorem State.setCore_parts (i : Nat) (x : CoreSt) : (s.setCore i x).parts = s.parts := State.withCores_parts s _
@[simp] theorem State.setCore_owners (i : Nat) (x : CoreSt) : (s.setCore i x).owners = s.owners := State.withCores_owners s _
@[simp] theorem State.setCore_creq (i : Nat) (x : CoreSt) : (s.setCore i x).creq = s.creq := State.withCores_creq s _
@[simp] theorem State.setCore_lps (i : Nat) (x : CoreSt) : (s.setCore i x).lps = s.lps := State.withCores_lps s _
@[simp] theorem State.setCore_doms (i : Nat) (x : CoreSt) : (s.setCore i x).doms = s.doms := State.withCores_doms s _
@[simp] theorem State.setCore_nvs (i : Nat) (x : CoreSt) : (s.setCore i x).nvs = s.nvs := State.withCores_nvs s _
@[simp] theorem State.setCore_test (i : Nat) (x : CoreSt) : (s.setCore i x).test = s.test := State.withCores_test s _
@[simp] theorem State.setCore_ages (i : Nat) (x : CoreSt) : (s.setCore i x).ages = s.ages := State.withCores_ages s _
@[simp] theorem State.setCore_readout (i : Nat) (x : CoreSt) : (s.setCore i x).readout = s.readout := State.withCores_readout s _
@[simp] theorem State.setCore_sec (i : Nat) (x : CoreSt) : (s.setCore i x).sec = s.sec := State.withCores_sec s _
@[simp] theorem State.setCore_arb (i : Nat) (x : CoreSt) : (s.setCore i x).arb = s.arb := State.withCores_arb s _
@[simp] theorem State.setCore_jtag (i : Nat) (x : CoreSt) : (s.setCore i x).jtag = s.jtag := State.withCores_jtag s _
@[simp] theorem State.setCluster_pending (i : Nat) (x : ClusterSt) : (s.setCluster i x).pending = s.pending := State.withClusters_pending s _
@[simp] theorem State.setCluster_free (i : Nat) (x : ClusterSt) : (s.setCluster i x).free = s.free := State.withClusters_free s _
@[simp] theorem State.setCluster_regs (i : Nat) (x : ClusterSt) : (s.setCluster i x).regs = s.regs := State.withClusters_regs s _
@[simp] theorem State.setCluster_hbm (i : Nat) (x : ClusterSt) : (s.setCluster i x).hbm = s.hbm := State.withClusters_hbm s _
@[simp] theorem State.setCluster_poison (i : Nat) (x : ClusterSt) : (s.setCluster i x).poison = s.poison := State.withClusters_poison s _
@[simp] theorem State.setCluster_outs (i : Nat) (x : ClusterSt) : (s.setCluster i x).outs = s.outs := State.withClusters_outs s _
@[simp] theorem State.setCluster_hold (i : Nat) (x : ClusterSt) : (s.setCluster i x).hold = s.hold := State.withClusters_hold s _
@[simp] theorem State.setCluster_por (i : Nat) (x : ClusterSt) : (s.setCluster i x).por = s.por := State.withClusters_por s _
@[simp] theorem State.setCluster_time (i : Nat) (x : ClusterSt) : (s.setCluster i x).time = s.time := State.withClusters_time s _
@[simp] theorem State.setCluster_streams (i : Nat) (x : ClusterSt) : (s.setCluster i x).streams = s.streams := State.withClusters_streams s _
@[simp] theorem State.setCluster_engines (i : Nat) (x : ClusterSt) : (s.setCluster i x).engines = s.engines := State.withClusters_engines s _
@[simp] theorem State.setCluster_subs (i : Nat) (x : ClusterSt) : (s.setCluster i x).subs = s.subs := State.withClusters_subs s _
@[simp] theorem State.setCluster_fabric (i : Nat) (x : ClusterSt) : (s.setCluster i x).fabric = s.fabric := State.withClusters_fabric s _
@[simp] theorem State.setCluster_pins (i : Nat) (x : ClusterSt) : (s.setCluster i x).pins = s.pins := State.withClusters_pins s _
@[simp] theorem State.setCluster_lanes (i : Nat) (x : ClusterSt) : (s.setCluster i x).lanes = s.lanes := State.withClusters_lanes s _
@[simp] theorem State.setCluster_swcmd (i : Nat) (x : ClusterSt) : (s.setCluster i x).swcmd = s.swcmd := State.withClusters_swcmd s _
@[simp] theorem State.setCluster_chan (i : Nat) (x : ClusterSt) : (s.setCluster i x).chan = s.chan := State.withClusters_chan s _
@[simp] theorem State.setCluster_cores (i : Nat) (x : ClusterSt) : (s.setCluster i x).cores = s.cores := State.withClusters_cores s _
@[simp] theorem State.setCluster_taken (i : Nat) (x : ClusterSt) : (s.setCluster i x).taken = s.taken := State.withClusters_taken s _
@[simp] theorem State.setCluster_mgmt (i : Nat) (x : ClusterSt) : (s.setCluster i x).mgmt = s.mgmt := State.withClusters_mgmt s _
@[simp] theorem State.setCluster_pf (i : Nat) (x : ClusterSt) : (s.setCluster i x).pf = s.pf := State.withClusters_pf s _
@[simp] theorem State.setCluster_parts (i : Nat) (x : ClusterSt) : (s.setCluster i x).parts = s.parts := State.withClusters_parts s _
@[simp] theorem State.setCluster_owners (i : Nat) (x : ClusterSt) : (s.setCluster i x).owners = s.owners := State.withClusters_owners s _
@[simp] theorem State.setCluster_creq (i : Nat) (x : ClusterSt) : (s.setCluster i x).creq = s.creq := State.withClusters_creq s _
@[simp] theorem State.setCluster_lps (i : Nat) (x : ClusterSt) : (s.setCluster i x).lps = s.lps := State.withClusters_lps s _
@[simp] theorem State.setCluster_doms (i : Nat) (x : ClusterSt) : (s.setCluster i x).doms = s.doms := State.withClusters_doms s _
@[simp] theorem State.setCluster_nvs (i : Nat) (x : ClusterSt) : (s.setCluster i x).nvs = s.nvs := State.withClusters_nvs s _
@[simp] theorem State.setCluster_test (i : Nat) (x : ClusterSt) : (s.setCluster i x).test = s.test := State.withClusters_test s _
@[simp] theorem State.setCluster_ages (i : Nat) (x : ClusterSt) : (s.setCluster i x).ages = s.ages := State.withClusters_ages s _
@[simp] theorem State.setCluster_readout (i : Nat) (x : ClusterSt) : (s.setCluster i x).readout = s.readout := State.withClusters_readout s _
@[simp] theorem State.setCluster_sec (i : Nat) (x : ClusterSt) : (s.setCluster i x).sec = s.sec := State.withClusters_sec s _
@[simp] theorem State.setCluster_arb (i : Nat) (x : ClusterSt) : (s.setCluster i x).arb = s.arb := State.withClusters_arb s _
@[simp] theorem State.setCluster_jtag (i : Nat) (x : ClusterSt) : (s.setCluster i x).jtag = s.jtag := State.withClusters_jtag s _
@[simp] theorem State.setLp_pending (i : Nat) (x : LpSt) : (s.setLp i x).pending = s.pending := State.withLps_pending s _
@[simp] theorem State.setLp_free (i : Nat) (x : LpSt) : (s.setLp i x).free = s.free := State.withLps_free s _
@[simp] theorem State.setLp_regs (i : Nat) (x : LpSt) : (s.setLp i x).regs = s.regs := State.withLps_regs s _
@[simp] theorem State.setLp_hbm (i : Nat) (x : LpSt) : (s.setLp i x).hbm = s.hbm := State.withLps_hbm s _
@[simp] theorem State.setLp_poison (i : Nat) (x : LpSt) : (s.setLp i x).poison = s.poison := State.withLps_poison s _
@[simp] theorem State.setLp_outs (i : Nat) (x : LpSt) : (s.setLp i x).outs = s.outs := State.withLps_outs s _
@[simp] theorem State.setLp_hold (i : Nat) (x : LpSt) : (s.setLp i x).hold = s.hold := State.withLps_hold s _
@[simp] theorem State.setLp_por (i : Nat) (x : LpSt) : (s.setLp i x).por = s.por := State.withLps_por s _
@[simp] theorem State.setLp_time (i : Nat) (x : LpSt) : (s.setLp i x).time = s.time := State.withLps_time s _
@[simp] theorem State.setLp_streams (i : Nat) (x : LpSt) : (s.setLp i x).streams = s.streams := State.withLps_streams s _
@[simp] theorem State.setLp_engines (i : Nat) (x : LpSt) : (s.setLp i x).engines = s.engines := State.withLps_engines s _
@[simp] theorem State.setLp_subs (i : Nat) (x : LpSt) : (s.setLp i x).subs = s.subs := State.withLps_subs s _
@[simp] theorem State.setLp_fabric (i : Nat) (x : LpSt) : (s.setLp i x).fabric = s.fabric := State.withLps_fabric s _
@[simp] theorem State.setLp_pins (i : Nat) (x : LpSt) : (s.setLp i x).pins = s.pins := State.withLps_pins s _
@[simp] theorem State.setLp_lanes (i : Nat) (x : LpSt) : (s.setLp i x).lanes = s.lanes := State.withLps_lanes s _
@[simp] theorem State.setLp_swcmd (i : Nat) (x : LpSt) : (s.setLp i x).swcmd = s.swcmd := State.withLps_swcmd s _
@[simp] theorem State.setLp_chan (i : Nat) (x : LpSt) : (s.setLp i x).chan = s.chan := State.withLps_chan s _
@[simp] theorem State.setLp_cores (i : Nat) (x : LpSt) : (s.setLp i x).cores = s.cores := State.withLps_cores s _
@[simp] theorem State.setLp_clusters (i : Nat) (x : LpSt) : (s.setLp i x).clusters = s.clusters := State.withLps_clusters s _
@[simp] theorem State.setLp_taken (i : Nat) (x : LpSt) : (s.setLp i x).taken = s.taken := State.withLps_taken s _
@[simp] theorem State.setLp_mgmt (i : Nat) (x : LpSt) : (s.setLp i x).mgmt = s.mgmt := State.withLps_mgmt s _
@[simp] theorem State.setLp_pf (i : Nat) (x : LpSt) : (s.setLp i x).pf = s.pf := State.withLps_pf s _
@[simp] theorem State.setLp_parts (i : Nat) (x : LpSt) : (s.setLp i x).parts = s.parts := State.withLps_parts s _
@[simp] theorem State.setLp_owners (i : Nat) (x : LpSt) : (s.setLp i x).owners = s.owners := State.withLps_owners s _
@[simp] theorem State.setLp_creq (i : Nat) (x : LpSt) : (s.setLp i x).creq = s.creq := State.withLps_creq s _
@[simp] theorem State.setLp_doms (i : Nat) (x : LpSt) : (s.setLp i x).doms = s.doms := State.withLps_doms s _
@[simp] theorem State.setLp_nvs (i : Nat) (x : LpSt) : (s.setLp i x).nvs = s.nvs := State.withLps_nvs s _
@[simp] theorem State.setLp_test (i : Nat) (x : LpSt) : (s.setLp i x).test = s.test := State.withLps_test s _
@[simp] theorem State.setLp_ages (i : Nat) (x : LpSt) : (s.setLp i x).ages = s.ages := State.withLps_ages s _
@[simp] theorem State.setLp_readout (i : Nat) (x : LpSt) : (s.setLp i x).readout = s.readout := State.withLps_readout s _
@[simp] theorem State.setLp_sec (i : Nat) (x : LpSt) : (s.setLp i x).sec = s.sec := State.withLps_sec s _
@[simp] theorem State.setLp_arb (i : Nat) (x : LpSt) : (s.setLp i x).arb = s.arb := State.withLps_arb s _
@[simp] theorem State.setLp_jtag (i : Nat) (x : LpSt) : (s.setLp i x).jtag = s.jtag := State.withLps_jtag s _
@[simp] theorem State.setDom_pending (i : Nat) (x : DomSt) : (s.setDom i x).pending = s.pending := State.withDoms_pending s _
@[simp] theorem State.setDom_free (i : Nat) (x : DomSt) : (s.setDom i x).free = s.free := State.withDoms_free s _
@[simp] theorem State.setDom_regs (i : Nat) (x : DomSt) : (s.setDom i x).regs = s.regs := State.withDoms_regs s _
@[simp] theorem State.setDom_hbm (i : Nat) (x : DomSt) : (s.setDom i x).hbm = s.hbm := State.withDoms_hbm s _
@[simp] theorem State.setDom_poison (i : Nat) (x : DomSt) : (s.setDom i x).poison = s.poison := State.withDoms_poison s _
@[simp] theorem State.setDom_outs (i : Nat) (x : DomSt) : (s.setDom i x).outs = s.outs := State.withDoms_outs s _
@[simp] theorem State.setDom_hold (i : Nat) (x : DomSt) : (s.setDom i x).hold = s.hold := State.withDoms_hold s _
@[simp] theorem State.setDom_por (i : Nat) (x : DomSt) : (s.setDom i x).por = s.por := State.withDoms_por s _
@[simp] theorem State.setDom_time (i : Nat) (x : DomSt) : (s.setDom i x).time = s.time := State.withDoms_time s _
@[simp] theorem State.setDom_streams (i : Nat) (x : DomSt) : (s.setDom i x).streams = s.streams := State.withDoms_streams s _
@[simp] theorem State.setDom_engines (i : Nat) (x : DomSt) : (s.setDom i x).engines = s.engines := State.withDoms_engines s _
@[simp] theorem State.setDom_subs (i : Nat) (x : DomSt) : (s.setDom i x).subs = s.subs := State.withDoms_subs s _
@[simp] theorem State.setDom_fabric (i : Nat) (x : DomSt) : (s.setDom i x).fabric = s.fabric := State.withDoms_fabric s _
@[simp] theorem State.setDom_pins (i : Nat) (x : DomSt) : (s.setDom i x).pins = s.pins := State.withDoms_pins s _
@[simp] theorem State.setDom_lanes (i : Nat) (x : DomSt) : (s.setDom i x).lanes = s.lanes := State.withDoms_lanes s _
@[simp] theorem State.setDom_swcmd (i : Nat) (x : DomSt) : (s.setDom i x).swcmd = s.swcmd := State.withDoms_swcmd s _
@[simp] theorem State.setDom_chan (i : Nat) (x : DomSt) : (s.setDom i x).chan = s.chan := State.withDoms_chan s _
@[simp] theorem State.setDom_cores (i : Nat) (x : DomSt) : (s.setDom i x).cores = s.cores := State.withDoms_cores s _
@[simp] theorem State.setDom_clusters (i : Nat) (x : DomSt) : (s.setDom i x).clusters = s.clusters := State.withDoms_clusters s _
@[simp] theorem State.setDom_taken (i : Nat) (x : DomSt) : (s.setDom i x).taken = s.taken := State.withDoms_taken s _
@[simp] theorem State.setDom_mgmt (i : Nat) (x : DomSt) : (s.setDom i x).mgmt = s.mgmt := State.withDoms_mgmt s _
@[simp] theorem State.setDom_pf (i : Nat) (x : DomSt) : (s.setDom i x).pf = s.pf := State.withDoms_pf s _
@[simp] theorem State.setDom_parts (i : Nat) (x : DomSt) : (s.setDom i x).parts = s.parts := State.withDoms_parts s _
@[simp] theorem State.setDom_owners (i : Nat) (x : DomSt) : (s.setDom i x).owners = s.owners := State.withDoms_owners s _
@[simp] theorem State.setDom_creq (i : Nat) (x : DomSt) : (s.setDom i x).creq = s.creq := State.withDoms_creq s _
@[simp] theorem State.setDom_lps (i : Nat) (x : DomSt) : (s.setDom i x).lps = s.lps := State.withDoms_lps s _
@[simp] theorem State.setDom_nvs (i : Nat) (x : DomSt) : (s.setDom i x).nvs = s.nvs := State.withDoms_nvs s _
@[simp] theorem State.setDom_test (i : Nat) (x : DomSt) : (s.setDom i x).test = s.test := State.withDoms_test s _
@[simp] theorem State.setDom_ages (i : Nat) (x : DomSt) : (s.setDom i x).ages = s.ages := State.withDoms_ages s _
@[simp] theorem State.setDom_readout (i : Nat) (x : DomSt) : (s.setDom i x).readout = s.readout := State.withDoms_readout s _
@[simp] theorem State.setDom_sec (i : Nat) (x : DomSt) : (s.setDom i x).sec = s.sec := State.withDoms_sec s _
@[simp] theorem State.setDom_arb (i : Nat) (x : DomSt) : (s.setDom i x).arb = s.arb := State.withDoms_arb s _
@[simp] theorem State.setDom_jtag (i : Nat) (x : DomSt) : (s.setDom i x).jtag = s.jtag := State.withDoms_jtag s _
@[simp] theorem State.setSlice_pending (n k : Nat) (x : SliceRec) : (s.setSlice n k x).pending = s.pending := State.setStream_pending _ _ _
@[simp] theorem State.setSlice_free (n k : Nat) (x : SliceRec) : (s.setSlice n k x).free = s.free := State.setStream_free _ _ _
@[simp] theorem State.setSlice_regs (n k : Nat) (x : SliceRec) : (s.setSlice n k x).regs = s.regs := State.setStream_regs _ _ _
@[simp] theorem State.setSlice_hbm (n k : Nat) (x : SliceRec) : (s.setSlice n k x).hbm = s.hbm := State.setStream_hbm _ _ _
@[simp] theorem State.setSlice_poison (n k : Nat) (x : SliceRec) : (s.setSlice n k x).poison = s.poison := State.setStream_poison _ _ _
@[simp] theorem State.setSlice_outs (n k : Nat) (x : SliceRec) : (s.setSlice n k x).outs = s.outs := State.setStream_outs _ _ _
@[simp] theorem State.setSlice_hold (n k : Nat) (x : SliceRec) : (s.setSlice n k x).hold = s.hold := State.setStream_hold _ _ _
@[simp] theorem State.setSlice_por (n k : Nat) (x : SliceRec) : (s.setSlice n k x).por = s.por := State.setStream_por _ _ _
@[simp] theorem State.setSlice_time (n k : Nat) (x : SliceRec) : (s.setSlice n k x).time = s.time := State.setStream_time _ _ _
@[simp] theorem State.setSlice_engines (n k : Nat) (x : SliceRec) : (s.setSlice n k x).engines = s.engines := State.setStream_engines _ _ _
@[simp] theorem State.setSlice_subs (n k : Nat) (x : SliceRec) : (s.setSlice n k x).subs = s.subs := State.setStream_subs _ _ _
@[simp] theorem State.setSlice_fabric (n k : Nat) (x : SliceRec) : (s.setSlice n k x).fabric = s.fabric := State.setStream_fabric _ _ _
@[simp] theorem State.setSlice_pins (n k : Nat) (x : SliceRec) : (s.setSlice n k x).pins = s.pins := State.setStream_pins _ _ _
@[simp] theorem State.setSlice_lanes (n k : Nat) (x : SliceRec) : (s.setSlice n k x).lanes = s.lanes := State.setStream_lanes _ _ _
@[simp] theorem State.setSlice_swcmd (n k : Nat) (x : SliceRec) : (s.setSlice n k x).swcmd = s.swcmd := State.setStream_swcmd _ _ _
@[simp] theorem State.setSlice_chan (n k : Nat) (x : SliceRec) : (s.setSlice n k x).chan = s.chan := State.setStream_chan _ _ _
@[simp] theorem State.setSlice_cores (n k : Nat) (x : SliceRec) : (s.setSlice n k x).cores = s.cores := State.setStream_cores _ _ _
@[simp] theorem State.setSlice_clusters (n k : Nat) (x : SliceRec) : (s.setSlice n k x).clusters = s.clusters := State.setStream_clusters _ _ _
@[simp] theorem State.setSlice_taken (n k : Nat) (x : SliceRec) : (s.setSlice n k x).taken = s.taken := State.setStream_taken _ _ _
@[simp] theorem State.setSlice_mgmt (n k : Nat) (x : SliceRec) : (s.setSlice n k x).mgmt = s.mgmt := State.setStream_mgmt _ _ _
@[simp] theorem State.setSlice_pf (n k : Nat) (x : SliceRec) : (s.setSlice n k x).pf = s.pf := State.setStream_pf _ _ _
@[simp] theorem State.setSlice_parts (n k : Nat) (x : SliceRec) : (s.setSlice n k x).parts = s.parts := State.setStream_parts _ _ _
@[simp] theorem State.setSlice_owners (n k : Nat) (x : SliceRec) : (s.setSlice n k x).owners = s.owners := State.setStream_owners _ _ _
@[simp] theorem State.setSlice_creq (n k : Nat) (x : SliceRec) : (s.setSlice n k x).creq = s.creq := State.setStream_creq _ _ _
@[simp] theorem State.setSlice_lps (n k : Nat) (x : SliceRec) : (s.setSlice n k x).lps = s.lps := State.setStream_lps _ _ _
@[simp] theorem State.setSlice_doms (n k : Nat) (x : SliceRec) : (s.setSlice n k x).doms = s.doms := State.setStream_doms _ _ _
@[simp] theorem State.setSlice_nvs (n k : Nat) (x : SliceRec) : (s.setSlice n k x).nvs = s.nvs := State.setStream_nvs _ _ _
@[simp] theorem State.setSlice_test (n k : Nat) (x : SliceRec) : (s.setSlice n k x).test = s.test := State.setStream_test _ _ _
@[simp] theorem State.setSlice_ages (n k : Nat) (x : SliceRec) : (s.setSlice n k x).ages = s.ages := State.setStream_ages _ _ _
@[simp] theorem State.setSlice_readout (n k : Nat) (x : SliceRec) : (s.setSlice n k x).readout = s.readout := State.setStream_readout _ _ _
@[simp] theorem State.setSlice_sec (n k : Nat) (x : SliceRec) : (s.setSlice n k x).sec = s.sec := State.setStream_sec _ _ _
@[simp] theorem State.setSlice_arb (n k : Nat) (x : SliceRec) : (s.setSlice n k x).arb = s.arb := State.setStream_arb _ _ _
@[simp] theorem State.setSlice_jtag (n k : Nat) (x : SliceRec) : (s.setSlice n k x).jtag = s.jtag := State.setStream_jtag _ _ _
@[simp] theorem State.withPending_rd_eq (x) (p : Nat) : (s.withPending x).rd p = s.rd p := State.rd_of (State.withPending_regs s x)
@[simp] theorem State.withFree_rd_eq (x) (p : Nat) : (s.withFree x).rd p = s.rd p := State.rd_of (State.withFree_regs s x)
@[simp] theorem State.withHbm_rd_eq (x) (p : Nat) : (s.withHbm x).rd p = s.rd p := State.rd_of (State.withHbm_regs s x)
@[simp] theorem State.withPoison_rd_eq (x) (p : Nat) : (s.withPoison x).rd p = s.rd p := State.rd_of (State.withPoison_regs s x)
@[simp] theorem State.withOuts_rd_eq (x) (p : Nat) : (s.withOuts x).rd p = s.rd p := State.rd_of (State.withOuts_regs s x)
@[simp] theorem State.withHold_rd_eq (x) (p : Nat) : (s.withHold x).rd p = s.rd p := State.rd_of (State.withHold_regs s x)
@[simp] theorem State.withPor_rd_eq (x) (p : Nat) : (s.withPor x).rd p = s.rd p := State.rd_of (State.withPor_regs s x)
@[simp] theorem State.withTime_rd_eq (x) (p : Nat) : (s.withTime x).rd p = s.rd p := State.rd_of (State.withTime_regs s x)
@[simp] theorem State.withStreams_rd_eq (x) (p : Nat) : (s.withStreams x).rd p = s.rd p := State.rd_of (State.withStreams_regs s x)
@[simp] theorem State.withEngines_rd_eq (x) (p : Nat) : (s.withEngines x).rd p = s.rd p := State.rd_of (State.withEngines_regs s x)
@[simp] theorem State.withSubs_rd_eq (x) (p : Nat) : (s.withSubs x).rd p = s.rd p := State.rd_of (State.withSubs_regs s x)
@[simp] theorem State.withFabric_rd_eq (x) (p : Nat) : (s.withFabric x).rd p = s.rd p := State.rd_of (State.withFabric_regs s x)
@[simp] theorem State.withPins_rd_eq (x) (p : Nat) : (s.withPins x).rd p = s.rd p := State.rd_of (State.withPins_regs s x)
@[simp] theorem State.withLanes_rd_eq (x) (p : Nat) : (s.withLanes x).rd p = s.rd p := State.rd_of (State.withLanes_regs s x)
@[simp] theorem State.withSwcmd_rd_eq (x) (p : Nat) : (s.withSwcmd x).rd p = s.rd p := State.rd_of (State.withSwcmd_regs s x)
@[simp] theorem State.withChan_rd_eq (x) (p : Nat) : (s.withChan x).rd p = s.rd p := State.rd_of (State.withChan_regs s x)
@[simp] theorem State.withCores_rd_eq (x) (p : Nat) : (s.withCores x).rd p = s.rd p := State.rd_of (State.withCores_regs s x)
@[simp] theorem State.withClusters_rd_eq (x) (p : Nat) : (s.withClusters x).rd p = s.rd p := State.rd_of (State.withClusters_regs s x)
@[simp] theorem State.withTaken_rd_eq (x) (p : Nat) : (s.withTaken x).rd p = s.rd p := State.rd_of (State.withTaken_regs s x)
@[simp] theorem State.withMgmt_rd_eq (x) (p : Nat) : (s.withMgmt x).rd p = s.rd p := State.rd_of (State.withMgmt_regs s x)
@[simp] theorem State.withPf_rd_eq (x) (p : Nat) : (s.withPf x).rd p = s.rd p := State.rd_of (State.withPf_regs s x)
@[simp] theorem State.withParts_rd_eq (x) (p : Nat) : (s.withParts x).rd p = s.rd p := State.rd_of (State.withParts_regs s x)
@[simp] theorem State.withOwners_rd_eq (x) (p : Nat) : (s.withOwners x).rd p = s.rd p := State.rd_of (State.withOwners_regs s x)
@[simp] theorem State.withCreq_rd_eq (x) (p : Nat) : (s.withCreq x).rd p = s.rd p := State.rd_of (State.withCreq_regs s x)
@[simp] theorem State.withLps_rd_eq (x) (p : Nat) : (s.withLps x).rd p = s.rd p := State.rd_of (State.withLps_regs s x)
@[simp] theorem State.withDoms_rd_eq (x) (p : Nat) : (s.withDoms x).rd p = s.rd p := State.rd_of (State.withDoms_regs s x)
@[simp] theorem State.withNvs_rd_eq (x) (p : Nat) : (s.withNvs x).rd p = s.rd p := State.rd_of (State.withNvs_regs s x)
@[simp] theorem State.withTest_rd_eq (x) (p : Nat) : (s.withTest x).rd p = s.rd p := State.rd_of (State.withTest_regs s x)
@[simp] theorem State.withAges_rd_eq (x) (p : Nat) : (s.withAges x).rd p = s.rd p := State.rd_of (State.withAges_regs s x)
@[simp] theorem State.withReadout_rd_eq (x) (p : Nat) : (s.withReadout x).rd p = s.rd p := State.rd_of (State.withReadout_regs s x)
@[simp] theorem State.withSec_rd_eq (x) (p : Nat) : (s.withSec x).rd p = s.rd p := State.rd_of (State.withSec_regs s x)
@[simp] theorem State.withArb_rd_eq (x) (p : Nat) : (s.withArb x).rd p = s.rd p := State.rd_of (State.withArb_regs s x)
@[simp] theorem State.withJtag_rd_eq (x) (p : Nat) : (s.withJtag x).rd p = s.rd p := State.rd_of (State.withJtag_regs s x)
@[simp] theorem State.emit_rd_eq (x : Out) (p : Nat) : (s.emit x).rd p = s.rd p := State.rd_of (State.emit_regs s x)
@[simp] theorem State.hbmPut_rd_eq (a : Nat) (b : Byte) (p : Nat) : (s.hbmPut a b).rd p = s.rd p := State.rd_of (State.hbmPut_regs s a b)
@[simp] theorem State.hbmZero_rd_eq (a n : Nat) (p : Nat) : (s.hbmZero a n).rd p = s.rd p := State.rd_of (State.hbmZero_regs s a n)
@[simp] theorem State.setPoison_rd_eq (ln : Nat) (b : Bool) (p : Nat) : (s.setPoison ln b).rd p = s.rd p := State.rd_of (State.setPoison_regs s ln b)
@[simp] theorem State.setPart_rd_eq (i : Nat) (x : PartSt) (p : Nat) : (s.setPart i x).rd p = s.rd p := State.rd_of (State.setPart_regs s i x)
@[simp] theorem State.setLane_rd_eq (i : Nat) (x : LaneSt) (p : Nat) : (s.setLane i x).rd p = s.rd p := State.rd_of (State.setLane_regs s i x)
@[simp] theorem State.setStream_rd_eq (i : Nat) (x : StreamSt) (p : Nat) : (s.setStream i x).rd p = s.rd p := State.rd_of (State.setStream_regs s i x)
@[simp] theorem State.setEng_rd_eq (i : Nat) (x : EngSt) (p : Nat) : (s.setEng i x).rd p = s.rd p := State.rd_of (State.setEng_regs s i x)
@[simp] theorem State.setSub_rd_eq (i : Nat) (x : SubSt) (p : Nat) : (s.setSub i x).rd p = s.rd p := State.rd_of (State.setSub_regs s i x)
@[simp] theorem State.setCore_rd_eq (i : Nat) (x : CoreSt) (p : Nat) : (s.setCore i x).rd p = s.rd p := State.rd_of (State.setCore_regs s i x)
@[simp] theorem State.setCluster_rd_eq (i : Nat) (x : ClusterSt) (p : Nat) : (s.setCluster i x).rd p = s.rd p := State.rd_of (State.setCluster_regs s i x)
@[simp] theorem State.setLp_rd_eq (i : Nat) (x : LpSt) (p : Nat) : (s.setLp i x).rd p = s.rd p := State.rd_of (State.setLp_regs s i x)
@[simp] theorem State.setDom_rd_eq (i : Nat) (x : DomSt) (p : Nat) : (s.setDom i x).rd p = s.rd p := State.rd_of (State.setDom_regs s i x)
@[simp] theorem State.setSlice_rd_eq (n k : Nat) (x : SliceRec) (p : Nat) : (s.setSlice n k x).rd p = s.rd p := State.rd_of (State.setSlice_regs s n k x)
@[simp] theorem State.withPending_fget_eq (x) (p q r : Nat) : (s.withPending x).fget p q r = s.fget p q r := State.fget_of (State.withPending_regs s x)
@[simp] theorem State.withFree_fget_eq (x) (p q r : Nat) : (s.withFree x).fget p q r = s.fget p q r := State.fget_of (State.withFree_regs s x)
@[simp] theorem State.withHbm_fget_eq (x) (p q r : Nat) : (s.withHbm x).fget p q r = s.fget p q r := State.fget_of (State.withHbm_regs s x)
@[simp] theorem State.withPoison_fget_eq (x) (p q r : Nat) : (s.withPoison x).fget p q r = s.fget p q r := State.fget_of (State.withPoison_regs s x)
@[simp] theorem State.withOuts_fget_eq (x) (p q r : Nat) : (s.withOuts x).fget p q r = s.fget p q r := State.fget_of (State.withOuts_regs s x)
@[simp] theorem State.withHold_fget_eq (x) (p q r : Nat) : (s.withHold x).fget p q r = s.fget p q r := State.fget_of (State.withHold_regs s x)
@[simp] theorem State.withPor_fget_eq (x) (p q r : Nat) : (s.withPor x).fget p q r = s.fget p q r := State.fget_of (State.withPor_regs s x)
@[simp] theorem State.withTime_fget_eq (x) (p q r : Nat) : (s.withTime x).fget p q r = s.fget p q r := State.fget_of (State.withTime_regs s x)
@[simp] theorem State.withStreams_fget_eq (x) (p q r : Nat) : (s.withStreams x).fget p q r = s.fget p q r := State.fget_of (State.withStreams_regs s x)
@[simp] theorem State.withEngines_fget_eq (x) (p q r : Nat) : (s.withEngines x).fget p q r = s.fget p q r := State.fget_of (State.withEngines_regs s x)
@[simp] theorem State.withSubs_fget_eq (x) (p q r : Nat) : (s.withSubs x).fget p q r = s.fget p q r := State.fget_of (State.withSubs_regs s x)
@[simp] theorem State.withFabric_fget_eq (x) (p q r : Nat) : (s.withFabric x).fget p q r = s.fget p q r := State.fget_of (State.withFabric_regs s x)
@[simp] theorem State.withPins_fget_eq (x) (p q r : Nat) : (s.withPins x).fget p q r = s.fget p q r := State.fget_of (State.withPins_regs s x)
@[simp] theorem State.withLanes_fget_eq (x) (p q r : Nat) : (s.withLanes x).fget p q r = s.fget p q r := State.fget_of (State.withLanes_regs s x)
@[simp] theorem State.withSwcmd_fget_eq (x) (p q r : Nat) : (s.withSwcmd x).fget p q r = s.fget p q r := State.fget_of (State.withSwcmd_regs s x)
@[simp] theorem State.withChan_fget_eq (x) (p q r : Nat) : (s.withChan x).fget p q r = s.fget p q r := State.fget_of (State.withChan_regs s x)
@[simp] theorem State.withCores_fget_eq (x) (p q r : Nat) : (s.withCores x).fget p q r = s.fget p q r := State.fget_of (State.withCores_regs s x)
@[simp] theorem State.withClusters_fget_eq (x) (p q r : Nat) : (s.withClusters x).fget p q r = s.fget p q r := State.fget_of (State.withClusters_regs s x)
@[simp] theorem State.withTaken_fget_eq (x) (p q r : Nat) : (s.withTaken x).fget p q r = s.fget p q r := State.fget_of (State.withTaken_regs s x)
@[simp] theorem State.withMgmt_fget_eq (x) (p q r : Nat) : (s.withMgmt x).fget p q r = s.fget p q r := State.fget_of (State.withMgmt_regs s x)
@[simp] theorem State.withPf_fget_eq (x) (p q r : Nat) : (s.withPf x).fget p q r = s.fget p q r := State.fget_of (State.withPf_regs s x)
@[simp] theorem State.withParts_fget_eq (x) (p q r : Nat) : (s.withParts x).fget p q r = s.fget p q r := State.fget_of (State.withParts_regs s x)
@[simp] theorem State.withOwners_fget_eq (x) (p q r : Nat) : (s.withOwners x).fget p q r = s.fget p q r := State.fget_of (State.withOwners_regs s x)
@[simp] theorem State.withCreq_fget_eq (x) (p q r : Nat) : (s.withCreq x).fget p q r = s.fget p q r := State.fget_of (State.withCreq_regs s x)
@[simp] theorem State.withLps_fget_eq (x) (p q r : Nat) : (s.withLps x).fget p q r = s.fget p q r := State.fget_of (State.withLps_regs s x)
@[simp] theorem State.withDoms_fget_eq (x) (p q r : Nat) : (s.withDoms x).fget p q r = s.fget p q r := State.fget_of (State.withDoms_regs s x)
@[simp] theorem State.withNvs_fget_eq (x) (p q r : Nat) : (s.withNvs x).fget p q r = s.fget p q r := State.fget_of (State.withNvs_regs s x)
@[simp] theorem State.withTest_fget_eq (x) (p q r : Nat) : (s.withTest x).fget p q r = s.fget p q r := State.fget_of (State.withTest_regs s x)
@[simp] theorem State.withAges_fget_eq (x) (p q r : Nat) : (s.withAges x).fget p q r = s.fget p q r := State.fget_of (State.withAges_regs s x)
@[simp] theorem State.withReadout_fget_eq (x) (p q r : Nat) : (s.withReadout x).fget p q r = s.fget p q r := State.fget_of (State.withReadout_regs s x)
@[simp] theorem State.withSec_fget_eq (x) (p q r : Nat) : (s.withSec x).fget p q r = s.fget p q r := State.fget_of (State.withSec_regs s x)
@[simp] theorem State.withArb_fget_eq (x) (p q r : Nat) : (s.withArb x).fget p q r = s.fget p q r := State.fget_of (State.withArb_regs s x)
@[simp] theorem State.withJtag_fget_eq (x) (p q r : Nat) : (s.withJtag x).fget p q r = s.fget p q r := State.fget_of (State.withJtag_regs s x)
@[simp] theorem State.emit_fget_eq (x : Out) (p q r : Nat) : (s.emit x).fget p q r = s.fget p q r := State.fget_of (State.emit_regs s x)
@[simp] theorem State.hbmPut_fget_eq (a : Nat) (b : Byte) (p q r : Nat) : (s.hbmPut a b).fget p q r = s.fget p q r := State.fget_of (State.hbmPut_regs s a b)
@[simp] theorem State.hbmZero_fget_eq (a n : Nat) (p q r : Nat) : (s.hbmZero a n).fget p q r = s.fget p q r := State.fget_of (State.hbmZero_regs s a n)
@[simp] theorem State.setPoison_fget_eq (ln : Nat) (b : Bool) (p q r : Nat) : (s.setPoison ln b).fget p q r = s.fget p q r := State.fget_of (State.setPoison_regs s ln b)
@[simp] theorem State.setPart_fget_eq (i : Nat) (x : PartSt) (p q r : Nat) : (s.setPart i x).fget p q r = s.fget p q r := State.fget_of (State.setPart_regs s i x)
@[simp] theorem State.setLane_fget_eq (i : Nat) (x : LaneSt) (p q r : Nat) : (s.setLane i x).fget p q r = s.fget p q r := State.fget_of (State.setLane_regs s i x)
@[simp] theorem State.setStream_fget_eq (i : Nat) (x : StreamSt) (p q r : Nat) : (s.setStream i x).fget p q r = s.fget p q r := State.fget_of (State.setStream_regs s i x)
@[simp] theorem State.setEng_fget_eq (i : Nat) (x : EngSt) (p q r : Nat) : (s.setEng i x).fget p q r = s.fget p q r := State.fget_of (State.setEng_regs s i x)
@[simp] theorem State.setSub_fget_eq (i : Nat) (x : SubSt) (p q r : Nat) : (s.setSub i x).fget p q r = s.fget p q r := State.fget_of (State.setSub_regs s i x)
@[simp] theorem State.setCore_fget_eq (i : Nat) (x : CoreSt) (p q r : Nat) : (s.setCore i x).fget p q r = s.fget p q r := State.fget_of (State.setCore_regs s i x)
@[simp] theorem State.setCluster_fget_eq (i : Nat) (x : ClusterSt) (p q r : Nat) : (s.setCluster i x).fget p q r = s.fget p q r := State.fget_of (State.setCluster_regs s i x)
@[simp] theorem State.setLp_fget_eq (i : Nat) (x : LpSt) (p q r : Nat) : (s.setLp i x).fget p q r = s.fget p q r := State.fget_of (State.setLp_regs s i x)
@[simp] theorem State.setDom_fget_eq (i : Nat) (x : DomSt) (p q r : Nat) : (s.setDom i x).fget p q r = s.fget p q r := State.fget_of (State.setDom_regs s i x)
@[simp] theorem State.setSlice_fget_eq (n k : Nat) (x : SliceRec) (p q r : Nat) : (s.setSlice n k x).fget p q r = s.fget p q r := State.fget_of (State.setSlice_regs s n k x)
@[simp] theorem State.withPending_fbit_eq (x) (p q : Nat) : (s.withPending x).fbit p q = s.fbit p q := State.fbit_of (State.withPending_regs s x)
@[simp] theorem State.withFree_fbit_eq (x) (p q : Nat) : (s.withFree x).fbit p q = s.fbit p q := State.fbit_of (State.withFree_regs s x)
@[simp] theorem State.withHbm_fbit_eq (x) (p q : Nat) : (s.withHbm x).fbit p q = s.fbit p q := State.fbit_of (State.withHbm_regs s x)
@[simp] theorem State.withPoison_fbit_eq (x) (p q : Nat) : (s.withPoison x).fbit p q = s.fbit p q := State.fbit_of (State.withPoison_regs s x)
@[simp] theorem State.withOuts_fbit_eq (x) (p q : Nat) : (s.withOuts x).fbit p q = s.fbit p q := State.fbit_of (State.withOuts_regs s x)
@[simp] theorem State.withHold_fbit_eq (x) (p q : Nat) : (s.withHold x).fbit p q = s.fbit p q := State.fbit_of (State.withHold_regs s x)
@[simp] theorem State.withPor_fbit_eq (x) (p q : Nat) : (s.withPor x).fbit p q = s.fbit p q := State.fbit_of (State.withPor_regs s x)
@[simp] theorem State.withTime_fbit_eq (x) (p q : Nat) : (s.withTime x).fbit p q = s.fbit p q := State.fbit_of (State.withTime_regs s x)
@[simp] theorem State.withStreams_fbit_eq (x) (p q : Nat) : (s.withStreams x).fbit p q = s.fbit p q := State.fbit_of (State.withStreams_regs s x)
@[simp] theorem State.withEngines_fbit_eq (x) (p q : Nat) : (s.withEngines x).fbit p q = s.fbit p q := State.fbit_of (State.withEngines_regs s x)
@[simp] theorem State.withSubs_fbit_eq (x) (p q : Nat) : (s.withSubs x).fbit p q = s.fbit p q := State.fbit_of (State.withSubs_regs s x)
@[simp] theorem State.withFabric_fbit_eq (x) (p q : Nat) : (s.withFabric x).fbit p q = s.fbit p q := State.fbit_of (State.withFabric_regs s x)
@[simp] theorem State.withPins_fbit_eq (x) (p q : Nat) : (s.withPins x).fbit p q = s.fbit p q := State.fbit_of (State.withPins_regs s x)
@[simp] theorem State.withLanes_fbit_eq (x) (p q : Nat) : (s.withLanes x).fbit p q = s.fbit p q := State.fbit_of (State.withLanes_regs s x)
@[simp] theorem State.withSwcmd_fbit_eq (x) (p q : Nat) : (s.withSwcmd x).fbit p q = s.fbit p q := State.fbit_of (State.withSwcmd_regs s x)
@[simp] theorem State.withChan_fbit_eq (x) (p q : Nat) : (s.withChan x).fbit p q = s.fbit p q := State.fbit_of (State.withChan_regs s x)
@[simp] theorem State.withCores_fbit_eq (x) (p q : Nat) : (s.withCores x).fbit p q = s.fbit p q := State.fbit_of (State.withCores_regs s x)
@[simp] theorem State.withClusters_fbit_eq (x) (p q : Nat) : (s.withClusters x).fbit p q = s.fbit p q := State.fbit_of (State.withClusters_regs s x)
@[simp] theorem State.withTaken_fbit_eq (x) (p q : Nat) : (s.withTaken x).fbit p q = s.fbit p q := State.fbit_of (State.withTaken_regs s x)
@[simp] theorem State.withMgmt_fbit_eq (x) (p q : Nat) : (s.withMgmt x).fbit p q = s.fbit p q := State.fbit_of (State.withMgmt_regs s x)
@[simp] theorem State.withPf_fbit_eq (x) (p q : Nat) : (s.withPf x).fbit p q = s.fbit p q := State.fbit_of (State.withPf_regs s x)
@[simp] theorem State.withParts_fbit_eq (x) (p q : Nat) : (s.withParts x).fbit p q = s.fbit p q := State.fbit_of (State.withParts_regs s x)
@[simp] theorem State.withOwners_fbit_eq (x) (p q : Nat) : (s.withOwners x).fbit p q = s.fbit p q := State.fbit_of (State.withOwners_regs s x)
@[simp] theorem State.withCreq_fbit_eq (x) (p q : Nat) : (s.withCreq x).fbit p q = s.fbit p q := State.fbit_of (State.withCreq_regs s x)
@[simp] theorem State.withLps_fbit_eq (x) (p q : Nat) : (s.withLps x).fbit p q = s.fbit p q := State.fbit_of (State.withLps_regs s x)
@[simp] theorem State.withDoms_fbit_eq (x) (p q : Nat) : (s.withDoms x).fbit p q = s.fbit p q := State.fbit_of (State.withDoms_regs s x)
@[simp] theorem State.withNvs_fbit_eq (x) (p q : Nat) : (s.withNvs x).fbit p q = s.fbit p q := State.fbit_of (State.withNvs_regs s x)
@[simp] theorem State.withTest_fbit_eq (x) (p q : Nat) : (s.withTest x).fbit p q = s.fbit p q := State.fbit_of (State.withTest_regs s x)
@[simp] theorem State.withAges_fbit_eq (x) (p q : Nat) : (s.withAges x).fbit p q = s.fbit p q := State.fbit_of (State.withAges_regs s x)
@[simp] theorem State.withReadout_fbit_eq (x) (p q : Nat) : (s.withReadout x).fbit p q = s.fbit p q := State.fbit_of (State.withReadout_regs s x)
@[simp] theorem State.withSec_fbit_eq (x) (p q : Nat) : (s.withSec x).fbit p q = s.fbit p q := State.fbit_of (State.withSec_regs s x)
@[simp] theorem State.withArb_fbit_eq (x) (p q : Nat) : (s.withArb x).fbit p q = s.fbit p q := State.fbit_of (State.withArb_regs s x)
@[simp] theorem State.withJtag_fbit_eq (x) (p q : Nat) : (s.withJtag x).fbit p q = s.fbit p q := State.fbit_of (State.withJtag_regs s x)
@[simp] theorem State.emit_fbit_eq (x : Out) (p q : Nat) : (s.emit x).fbit p q = s.fbit p q := State.fbit_of (State.emit_regs s x)
@[simp] theorem State.hbmPut_fbit_eq (a : Nat) (b : Byte) (p q : Nat) : (s.hbmPut a b).fbit p q = s.fbit p q := State.fbit_of (State.hbmPut_regs s a b)
@[simp] theorem State.hbmZero_fbit_eq (a n : Nat) (p q : Nat) : (s.hbmZero a n).fbit p q = s.fbit p q := State.fbit_of (State.hbmZero_regs s a n)
@[simp] theorem State.setPoison_fbit_eq (ln : Nat) (b : Bool) (p q : Nat) : (s.setPoison ln b).fbit p q = s.fbit p q := State.fbit_of (State.setPoison_regs s ln b)
@[simp] theorem State.setPart_fbit_eq (i : Nat) (x : PartSt) (p q : Nat) : (s.setPart i x).fbit p q = s.fbit p q := State.fbit_of (State.setPart_regs s i x)
@[simp] theorem State.setLane_fbit_eq (i : Nat) (x : LaneSt) (p q : Nat) : (s.setLane i x).fbit p q = s.fbit p q := State.fbit_of (State.setLane_regs s i x)
@[simp] theorem State.setStream_fbit_eq (i : Nat) (x : StreamSt) (p q : Nat) : (s.setStream i x).fbit p q = s.fbit p q := State.fbit_of (State.setStream_regs s i x)
@[simp] theorem State.setEng_fbit_eq (i : Nat) (x : EngSt) (p q : Nat) : (s.setEng i x).fbit p q = s.fbit p q := State.fbit_of (State.setEng_regs s i x)
@[simp] theorem State.setSub_fbit_eq (i : Nat) (x : SubSt) (p q : Nat) : (s.setSub i x).fbit p q = s.fbit p q := State.fbit_of (State.setSub_regs s i x)
@[simp] theorem State.setCore_fbit_eq (i : Nat) (x : CoreSt) (p q : Nat) : (s.setCore i x).fbit p q = s.fbit p q := State.fbit_of (State.setCore_regs s i x)
@[simp] theorem State.setCluster_fbit_eq (i : Nat) (x : ClusterSt) (p q : Nat) : (s.setCluster i x).fbit p q = s.fbit p q := State.fbit_of (State.setCluster_regs s i x)
@[simp] theorem State.setLp_fbit_eq (i : Nat) (x : LpSt) (p q : Nat) : (s.setLp i x).fbit p q = s.fbit p q := State.fbit_of (State.setLp_regs s i x)
@[simp] theorem State.setDom_fbit_eq (i : Nat) (x : DomSt) (p q : Nat) : (s.setDom i x).fbit p q = s.fbit p q := State.fbit_of (State.setDom_regs s i x)
@[simp] theorem State.setSlice_fbit_eq (n k : Nat) (x : SliceRec) (p q : Nat) : (s.setSlice n k x).fbit p q = s.fbit p q := State.fbit_of (State.setSlice_regs s n k x)
@[simp] theorem State.withPending_rd64_eq (x) (p : Nat) : (s.withPending x).rd64 p = s.rd64 p := State.rd64_of (State.withPending_regs s x)
@[simp] theorem State.withFree_rd64_eq (x) (p : Nat) : (s.withFree x).rd64 p = s.rd64 p := State.rd64_of (State.withFree_regs s x)
@[simp] theorem State.withHbm_rd64_eq (x) (p : Nat) : (s.withHbm x).rd64 p = s.rd64 p := State.rd64_of (State.withHbm_regs s x)
@[simp] theorem State.withPoison_rd64_eq (x) (p : Nat) : (s.withPoison x).rd64 p = s.rd64 p := State.rd64_of (State.withPoison_regs s x)
@[simp] theorem State.withOuts_rd64_eq (x) (p : Nat) : (s.withOuts x).rd64 p = s.rd64 p := State.rd64_of (State.withOuts_regs s x)
@[simp] theorem State.withHold_rd64_eq (x) (p : Nat) : (s.withHold x).rd64 p = s.rd64 p := State.rd64_of (State.withHold_regs s x)
@[simp] theorem State.withPor_rd64_eq (x) (p : Nat) : (s.withPor x).rd64 p = s.rd64 p := State.rd64_of (State.withPor_regs s x)
@[simp] theorem State.withTime_rd64_eq (x) (p : Nat) : (s.withTime x).rd64 p = s.rd64 p := State.rd64_of (State.withTime_regs s x)
@[simp] theorem State.withStreams_rd64_eq (x) (p : Nat) : (s.withStreams x).rd64 p = s.rd64 p := State.rd64_of (State.withStreams_regs s x)
@[simp] theorem State.withEngines_rd64_eq (x) (p : Nat) : (s.withEngines x).rd64 p = s.rd64 p := State.rd64_of (State.withEngines_regs s x)
@[simp] theorem State.withSubs_rd64_eq (x) (p : Nat) : (s.withSubs x).rd64 p = s.rd64 p := State.rd64_of (State.withSubs_regs s x)
@[simp] theorem State.withFabric_rd64_eq (x) (p : Nat) : (s.withFabric x).rd64 p = s.rd64 p := State.rd64_of (State.withFabric_regs s x)
@[simp] theorem State.withPins_rd64_eq (x) (p : Nat) : (s.withPins x).rd64 p = s.rd64 p := State.rd64_of (State.withPins_regs s x)
@[simp] theorem State.withLanes_rd64_eq (x) (p : Nat) : (s.withLanes x).rd64 p = s.rd64 p := State.rd64_of (State.withLanes_regs s x)
@[simp] theorem State.withSwcmd_rd64_eq (x) (p : Nat) : (s.withSwcmd x).rd64 p = s.rd64 p := State.rd64_of (State.withSwcmd_regs s x)
@[simp] theorem State.withChan_rd64_eq (x) (p : Nat) : (s.withChan x).rd64 p = s.rd64 p := State.rd64_of (State.withChan_regs s x)
@[simp] theorem State.withCores_rd64_eq (x) (p : Nat) : (s.withCores x).rd64 p = s.rd64 p := State.rd64_of (State.withCores_regs s x)
@[simp] theorem State.withClusters_rd64_eq (x) (p : Nat) : (s.withClusters x).rd64 p = s.rd64 p := State.rd64_of (State.withClusters_regs s x)
@[simp] theorem State.withTaken_rd64_eq (x) (p : Nat) : (s.withTaken x).rd64 p = s.rd64 p := State.rd64_of (State.withTaken_regs s x)
@[simp] theorem State.withMgmt_rd64_eq (x) (p : Nat) : (s.withMgmt x).rd64 p = s.rd64 p := State.rd64_of (State.withMgmt_regs s x)
@[simp] theorem State.withPf_rd64_eq (x) (p : Nat) : (s.withPf x).rd64 p = s.rd64 p := State.rd64_of (State.withPf_regs s x)
@[simp] theorem State.withParts_rd64_eq (x) (p : Nat) : (s.withParts x).rd64 p = s.rd64 p := State.rd64_of (State.withParts_regs s x)
@[simp] theorem State.withOwners_rd64_eq (x) (p : Nat) : (s.withOwners x).rd64 p = s.rd64 p := State.rd64_of (State.withOwners_regs s x)
@[simp] theorem State.withCreq_rd64_eq (x) (p : Nat) : (s.withCreq x).rd64 p = s.rd64 p := State.rd64_of (State.withCreq_regs s x)
@[simp] theorem State.withLps_rd64_eq (x) (p : Nat) : (s.withLps x).rd64 p = s.rd64 p := State.rd64_of (State.withLps_regs s x)
@[simp] theorem State.withDoms_rd64_eq (x) (p : Nat) : (s.withDoms x).rd64 p = s.rd64 p := State.rd64_of (State.withDoms_regs s x)
@[simp] theorem State.withNvs_rd64_eq (x) (p : Nat) : (s.withNvs x).rd64 p = s.rd64 p := State.rd64_of (State.withNvs_regs s x)
@[simp] theorem State.withTest_rd64_eq (x) (p : Nat) : (s.withTest x).rd64 p = s.rd64 p := State.rd64_of (State.withTest_regs s x)
@[simp] theorem State.withAges_rd64_eq (x) (p : Nat) : (s.withAges x).rd64 p = s.rd64 p := State.rd64_of (State.withAges_regs s x)
@[simp] theorem State.withReadout_rd64_eq (x) (p : Nat) : (s.withReadout x).rd64 p = s.rd64 p := State.rd64_of (State.withReadout_regs s x)
@[simp] theorem State.withSec_rd64_eq (x) (p : Nat) : (s.withSec x).rd64 p = s.rd64 p := State.rd64_of (State.withSec_regs s x)
@[simp] theorem State.withArb_rd64_eq (x) (p : Nat) : (s.withArb x).rd64 p = s.rd64 p := State.rd64_of (State.withArb_regs s x)
@[simp] theorem State.withJtag_rd64_eq (x) (p : Nat) : (s.withJtag x).rd64 p = s.rd64 p := State.rd64_of (State.withJtag_regs s x)
@[simp] theorem State.emit_rd64_eq (x : Out) (p : Nat) : (s.emit x).rd64 p = s.rd64 p := State.rd64_of (State.emit_regs s x)
@[simp] theorem State.hbmPut_rd64_eq (a : Nat) (b : Byte) (p : Nat) : (s.hbmPut a b).rd64 p = s.rd64 p := State.rd64_of (State.hbmPut_regs s a b)
@[simp] theorem State.hbmZero_rd64_eq (a n : Nat) (p : Nat) : (s.hbmZero a n).rd64 p = s.rd64 p := State.rd64_of (State.hbmZero_regs s a n)
@[simp] theorem State.setPoison_rd64_eq (ln : Nat) (b : Bool) (p : Nat) : (s.setPoison ln b).rd64 p = s.rd64 p := State.rd64_of (State.setPoison_regs s ln b)
@[simp] theorem State.setPart_rd64_eq (i : Nat) (x : PartSt) (p : Nat) : (s.setPart i x).rd64 p = s.rd64 p := State.rd64_of (State.setPart_regs s i x)
@[simp] theorem State.setLane_rd64_eq (i : Nat) (x : LaneSt) (p : Nat) : (s.setLane i x).rd64 p = s.rd64 p := State.rd64_of (State.setLane_regs s i x)
@[simp] theorem State.setStream_rd64_eq (i : Nat) (x : StreamSt) (p : Nat) : (s.setStream i x).rd64 p = s.rd64 p := State.rd64_of (State.setStream_regs s i x)
@[simp] theorem State.setEng_rd64_eq (i : Nat) (x : EngSt) (p : Nat) : (s.setEng i x).rd64 p = s.rd64 p := State.rd64_of (State.setEng_regs s i x)
@[simp] theorem State.setSub_rd64_eq (i : Nat) (x : SubSt) (p : Nat) : (s.setSub i x).rd64 p = s.rd64 p := State.rd64_of (State.setSub_regs s i x)
@[simp] theorem State.setCore_rd64_eq (i : Nat) (x : CoreSt) (p : Nat) : (s.setCore i x).rd64 p = s.rd64 p := State.rd64_of (State.setCore_regs s i x)
@[simp] theorem State.setCluster_rd64_eq (i : Nat) (x : ClusterSt) (p : Nat) : (s.setCluster i x).rd64 p = s.rd64 p := State.rd64_of (State.setCluster_regs s i x)
@[simp] theorem State.setLp_rd64_eq (i : Nat) (x : LpSt) (p : Nat) : (s.setLp i x).rd64 p = s.rd64 p := State.rd64_of (State.setLp_regs s i x)
@[simp] theorem State.setDom_rd64_eq (i : Nat) (x : DomSt) (p : Nat) : (s.setDom i x).rd64 p = s.rd64 p := State.rd64_of (State.setDom_regs s i x)
@[simp] theorem State.setSlice_rd64_eq (n k : Nat) (x : SliceRec) (p : Nat) : (s.setSlice n k x).rd64 p = s.rd64 p := State.rd64_of (State.setSlice_regs s n k x)
@[simp] theorem State.withPending_hbmByte_eq (x) (p : Nat) : (s.withPending x).hbmByte p = s.hbmByte p := State.hbmByte_of (State.withPending_hbm s x)
@[simp] theorem State.withFree_hbmByte_eq (x) (p : Nat) : (s.withFree x).hbmByte p = s.hbmByte p := State.hbmByte_of (State.withFree_hbm s x)
@[simp] theorem State.withRegs_hbmByte_eq (x) (p : Nat) : (s.withRegs x).hbmByte p = s.hbmByte p := State.hbmByte_of (State.withRegs_hbm s x)
@[simp] theorem State.withPoison_hbmByte_eq (x) (p : Nat) : (s.withPoison x).hbmByte p = s.hbmByte p := State.hbmByte_of (State.withPoison_hbm s x)
@[simp] theorem State.withOuts_hbmByte_eq (x) (p : Nat) : (s.withOuts x).hbmByte p = s.hbmByte p := State.hbmByte_of (State.withOuts_hbm s x)
@[simp] theorem State.withHold_hbmByte_eq (x) (p : Nat) : (s.withHold x).hbmByte p = s.hbmByte p := State.hbmByte_of (State.withHold_hbm s x)
@[simp] theorem State.withPor_hbmByte_eq (x) (p : Nat) : (s.withPor x).hbmByte p = s.hbmByte p := State.hbmByte_of (State.withPor_hbm s x)
@[simp] theorem State.withTime_hbmByte_eq (x) (p : Nat) : (s.withTime x).hbmByte p = s.hbmByte p := State.hbmByte_of (State.withTime_hbm s x)
@[simp] theorem State.withStreams_hbmByte_eq (x) (p : Nat) : (s.withStreams x).hbmByte p = s.hbmByte p := State.hbmByte_of (State.withStreams_hbm s x)
@[simp] theorem State.withEngines_hbmByte_eq (x) (p : Nat) : (s.withEngines x).hbmByte p = s.hbmByte p := State.hbmByte_of (State.withEngines_hbm s x)
@[simp] theorem State.withSubs_hbmByte_eq (x) (p : Nat) : (s.withSubs x).hbmByte p = s.hbmByte p := State.hbmByte_of (State.withSubs_hbm s x)
@[simp] theorem State.withFabric_hbmByte_eq (x) (p : Nat) : (s.withFabric x).hbmByte p = s.hbmByte p := State.hbmByte_of (State.withFabric_hbm s x)
@[simp] theorem State.withPins_hbmByte_eq (x) (p : Nat) : (s.withPins x).hbmByte p = s.hbmByte p := State.hbmByte_of (State.withPins_hbm s x)
@[simp] theorem State.withLanes_hbmByte_eq (x) (p : Nat) : (s.withLanes x).hbmByte p = s.hbmByte p := State.hbmByte_of (State.withLanes_hbm s x)
@[simp] theorem State.withSwcmd_hbmByte_eq (x) (p : Nat) : (s.withSwcmd x).hbmByte p = s.hbmByte p := State.hbmByte_of (State.withSwcmd_hbm s x)
@[simp] theorem State.withChan_hbmByte_eq (x) (p : Nat) : (s.withChan x).hbmByte p = s.hbmByte p := State.hbmByte_of (State.withChan_hbm s x)
@[simp] theorem State.withCores_hbmByte_eq (x) (p : Nat) : (s.withCores x).hbmByte p = s.hbmByte p := State.hbmByte_of (State.withCores_hbm s x)
@[simp] theorem State.withClusters_hbmByte_eq (x) (p : Nat) : (s.withClusters x).hbmByte p = s.hbmByte p := State.hbmByte_of (State.withClusters_hbm s x)
@[simp] theorem State.withTaken_hbmByte_eq (x) (p : Nat) : (s.withTaken x).hbmByte p = s.hbmByte p := State.hbmByte_of (State.withTaken_hbm s x)
@[simp] theorem State.withMgmt_hbmByte_eq (x) (p : Nat) : (s.withMgmt x).hbmByte p = s.hbmByte p := State.hbmByte_of (State.withMgmt_hbm s x)
@[simp] theorem State.withPf_hbmByte_eq (x) (p : Nat) : (s.withPf x).hbmByte p = s.hbmByte p := State.hbmByte_of (State.withPf_hbm s x)
@[simp] theorem State.withParts_hbmByte_eq (x) (p : Nat) : (s.withParts x).hbmByte p = s.hbmByte p := State.hbmByte_of (State.withParts_hbm s x)
@[simp] theorem State.withOwners_hbmByte_eq (x) (p : Nat) : (s.withOwners x).hbmByte p = s.hbmByte p := State.hbmByte_of (State.withOwners_hbm s x)
@[simp] theorem State.withCreq_hbmByte_eq (x) (p : Nat) : (s.withCreq x).hbmByte p = s.hbmByte p := State.hbmByte_of (State.withCreq_hbm s x)
@[simp] theorem State.withLps_hbmByte_eq (x) (p : Nat) : (s.withLps x).hbmByte p = s.hbmByte p := State.hbmByte_of (State.withLps_hbm s x)
@[simp] theorem State.withDoms_hbmByte_eq (x) (p : Nat) : (s.withDoms x).hbmByte p = s.hbmByte p := State.hbmByte_of (State.withDoms_hbm s x)
@[simp] theorem State.withNvs_hbmByte_eq (x) (p : Nat) : (s.withNvs x).hbmByte p = s.hbmByte p := State.hbmByte_of (State.withNvs_hbm s x)
@[simp] theorem State.withTest_hbmByte_eq (x) (p : Nat) : (s.withTest x).hbmByte p = s.hbmByte p := State.hbmByte_of (State.withTest_hbm s x)
@[simp] theorem State.withAges_hbmByte_eq (x) (p : Nat) : (s.withAges x).hbmByte p = s.hbmByte p := State.hbmByte_of (State.withAges_hbm s x)
@[simp] theorem State.withReadout_hbmByte_eq (x) (p : Nat) : (s.withReadout x).hbmByte p = s.hbmByte p := State.hbmByte_of (State.withReadout_hbm s x)
@[simp] theorem State.withSec_hbmByte_eq (x) (p : Nat) : (s.withSec x).hbmByte p = s.hbmByte p := State.hbmByte_of (State.withSec_hbm s x)
@[simp] theorem State.withArb_hbmByte_eq (x) (p : Nat) : (s.withArb x).hbmByte p = s.hbmByte p := State.hbmByte_of (State.withArb_hbm s x)
@[simp] theorem State.withJtag_hbmByte_eq (x) (p : Nat) : (s.withJtag x).hbmByte p = s.hbmByte p := State.hbmByte_of (State.withJtag_hbm s x)
@[simp] theorem State.wr_hbmByte_eq (o v : Nat) (p : Nat) : (s.wr o v).hbmByte p = s.hbmByte p := State.hbmByte_of (State.wr_hbm s o v)
@[simp] theorem State.fset_hbmByte_eq (o l w v : Nat) (p : Nat) : (s.fset o l w v).hbmByte p = s.hbmByte p := State.hbmByte_of (State.fset_hbm s o l w v)
@[simp] theorem State.count_hbmByte_eq (o n : Nat) (p : Nat) : (s.count o n).hbmByte p = s.hbmByte p := State.hbmByte_of (State.count_hbm s o n)
@[simp] theorem State.wr64_hbmByte_eq (o v : Nat) (p : Nat) : (s.wr64 o v).hbmByte p = s.hbmByte p := State.hbmByte_of (State.wr64_hbm s o v)
@[simp] theorem State.countWrap_hbmByte_eq (o n : Nat) (p : Nat) : (s.countWrap o n).hbmByte p = s.hbmByte p := State.hbmByte_of (State.countWrap_hbm s o n)
@[simp] theorem State.count64_hbmByte_eq (o n : Nat) (p : Nat) : (s.count64 o n).hbmByte p = s.hbmByte p := State.hbmByte_of (State.count64_hbm s o n)
@[simp] theorem State.resetRegs_hbmByte_eq (l h : Nat) (p : Nat) : (s.resetRegs l h).hbmByte p = s.hbmByte p := State.hbmByte_of (State.resetRegs_hbm s l h)
@[simp] theorem State.emit_hbmByte_eq (x : Out) (p : Nat) : (s.emit x).hbmByte p = s.hbmByte p := State.hbmByte_of (State.emit_hbm s x)
@[simp] theorem State.setPoison_hbmByte_eq (ln : Nat) (b : Bool) (p : Nat) : (s.setPoison ln b).hbmByte p = s.hbmByte p := State.hbmByte_of (State.setPoison_hbm s ln b)
@[simp] theorem State.setPart_hbmByte_eq (i : Nat) (x : PartSt) (p : Nat) : (s.setPart i x).hbmByte p = s.hbmByte p := State.hbmByte_of (State.setPart_hbm s i x)
@[simp] theorem State.setLane_hbmByte_eq (i : Nat) (x : LaneSt) (p : Nat) : (s.setLane i x).hbmByte p = s.hbmByte p := State.hbmByte_of (State.setLane_hbm s i x)
@[simp] theorem State.setStream_hbmByte_eq (i : Nat) (x : StreamSt) (p : Nat) : (s.setStream i x).hbmByte p = s.hbmByte p := State.hbmByte_of (State.setStream_hbm s i x)
@[simp] theorem State.setEng_hbmByte_eq (i : Nat) (x : EngSt) (p : Nat) : (s.setEng i x).hbmByte p = s.hbmByte p := State.hbmByte_of (State.setEng_hbm s i x)
@[simp] theorem State.setSub_hbmByte_eq (i : Nat) (x : SubSt) (p : Nat) : (s.setSub i x).hbmByte p = s.hbmByte p := State.hbmByte_of (State.setSub_hbm s i x)
@[simp] theorem State.setCore_hbmByte_eq (i : Nat) (x : CoreSt) (p : Nat) : (s.setCore i x).hbmByte p = s.hbmByte p := State.hbmByte_of (State.setCore_hbm s i x)
@[simp] theorem State.setCluster_hbmByte_eq (i : Nat) (x : ClusterSt) (p : Nat) : (s.setCluster i x).hbmByte p = s.hbmByte p := State.hbmByte_of (State.setCluster_hbm s i x)
@[simp] theorem State.setLp_hbmByte_eq (i : Nat) (x : LpSt) (p : Nat) : (s.setLp i x).hbmByte p = s.hbmByte p := State.hbmByte_of (State.setLp_hbm s i x)
@[simp] theorem State.setDom_hbmByte_eq (i : Nat) (x : DomSt) (p : Nat) : (s.setDom i x).hbmByte p = s.hbmByte p := State.hbmByte_of (State.setDom_hbm s i x)
@[simp] theorem State.setSlice_hbmByte_eq (n k : Nat) (x : SliceRec) (p : Nat) : (s.setSlice n k x).hbmByte p = s.hbmByte p := State.hbmByte_of (State.setSlice_hbm s n k x)
@[simp] theorem State.withPending_part_eq (x) (p : Nat) : (s.withPending x).part p = s.part p := State.part_of (State.withPending_parts s x)
@[simp] theorem State.withFree_part_eq (x) (p : Nat) : (s.withFree x).part p = s.part p := State.part_of (State.withFree_parts s x)
@[simp] theorem State.withRegs_part_eq (x) (p : Nat) : (s.withRegs x).part p = s.part p := State.part_of (State.withRegs_parts s x)
@[simp] theorem State.withHbm_part_eq (x) (p : Nat) : (s.withHbm x).part p = s.part p := State.part_of (State.withHbm_parts s x)
@[simp] theorem State.withPoison_part_eq (x) (p : Nat) : (s.withPoison x).part p = s.part p := State.part_of (State.withPoison_parts s x)
@[simp] theorem State.withOuts_part_eq (x) (p : Nat) : (s.withOuts x).part p = s.part p := State.part_of (State.withOuts_parts s x)
@[simp] theorem State.withHold_part_eq (x) (p : Nat) : (s.withHold x).part p = s.part p := State.part_of (State.withHold_parts s x)
@[simp] theorem State.withPor_part_eq (x) (p : Nat) : (s.withPor x).part p = s.part p := State.part_of (State.withPor_parts s x)
@[simp] theorem State.withTime_part_eq (x) (p : Nat) : (s.withTime x).part p = s.part p := State.part_of (State.withTime_parts s x)
@[simp] theorem State.withStreams_part_eq (x) (p : Nat) : (s.withStreams x).part p = s.part p := State.part_of (State.withStreams_parts s x)
@[simp] theorem State.withEngines_part_eq (x) (p : Nat) : (s.withEngines x).part p = s.part p := State.part_of (State.withEngines_parts s x)
@[simp] theorem State.withSubs_part_eq (x) (p : Nat) : (s.withSubs x).part p = s.part p := State.part_of (State.withSubs_parts s x)
@[simp] theorem State.withFabric_part_eq (x) (p : Nat) : (s.withFabric x).part p = s.part p := State.part_of (State.withFabric_parts s x)
@[simp] theorem State.withPins_part_eq (x) (p : Nat) : (s.withPins x).part p = s.part p := State.part_of (State.withPins_parts s x)
@[simp] theorem State.withLanes_part_eq (x) (p : Nat) : (s.withLanes x).part p = s.part p := State.part_of (State.withLanes_parts s x)
@[simp] theorem State.withSwcmd_part_eq (x) (p : Nat) : (s.withSwcmd x).part p = s.part p := State.part_of (State.withSwcmd_parts s x)
@[simp] theorem State.withChan_part_eq (x) (p : Nat) : (s.withChan x).part p = s.part p := State.part_of (State.withChan_parts s x)
@[simp] theorem State.withCores_part_eq (x) (p : Nat) : (s.withCores x).part p = s.part p := State.part_of (State.withCores_parts s x)
@[simp] theorem State.withClusters_part_eq (x) (p : Nat) : (s.withClusters x).part p = s.part p := State.part_of (State.withClusters_parts s x)
@[simp] theorem State.withTaken_part_eq (x) (p : Nat) : (s.withTaken x).part p = s.part p := State.part_of (State.withTaken_parts s x)
@[simp] theorem State.withMgmt_part_eq (x) (p : Nat) : (s.withMgmt x).part p = s.part p := State.part_of (State.withMgmt_parts s x)
@[simp] theorem State.withPf_part_eq (x) (p : Nat) : (s.withPf x).part p = s.part p := State.part_of (State.withPf_parts s x)
@[simp] theorem State.withOwners_part_eq (x) (p : Nat) : (s.withOwners x).part p = s.part p := State.part_of (State.withOwners_parts s x)
@[simp] theorem State.withCreq_part_eq (x) (p : Nat) : (s.withCreq x).part p = s.part p := State.part_of (State.withCreq_parts s x)
@[simp] theorem State.withLps_part_eq (x) (p : Nat) : (s.withLps x).part p = s.part p := State.part_of (State.withLps_parts s x)
@[simp] theorem State.withDoms_part_eq (x) (p : Nat) : (s.withDoms x).part p = s.part p := State.part_of (State.withDoms_parts s x)
@[simp] theorem State.withNvs_part_eq (x) (p : Nat) : (s.withNvs x).part p = s.part p := State.part_of (State.withNvs_parts s x)
@[simp] theorem State.withTest_part_eq (x) (p : Nat) : (s.withTest x).part p = s.part p := State.part_of (State.withTest_parts s x)
@[simp] theorem State.withAges_part_eq (x) (p : Nat) : (s.withAges x).part p = s.part p := State.part_of (State.withAges_parts s x)
@[simp] theorem State.withReadout_part_eq (x) (p : Nat) : (s.withReadout x).part p = s.part p := State.part_of (State.withReadout_parts s x)
@[simp] theorem State.withSec_part_eq (x) (p : Nat) : (s.withSec x).part p = s.part p := State.part_of (State.withSec_parts s x)
@[simp] theorem State.withArb_part_eq (x) (p : Nat) : (s.withArb x).part p = s.part p := State.part_of (State.withArb_parts s x)
@[simp] theorem State.withJtag_part_eq (x) (p : Nat) : (s.withJtag x).part p = s.part p := State.part_of (State.withJtag_parts s x)
@[simp] theorem State.wr_part_eq (o v : Nat) (p : Nat) : (s.wr o v).part p = s.part p := State.part_of (State.wr_parts s o v)
@[simp] theorem State.fset_part_eq (o l w v : Nat) (p : Nat) : (s.fset o l w v).part p = s.part p := State.part_of (State.fset_parts s o l w v)
@[simp] theorem State.count_part_eq (o n : Nat) (p : Nat) : (s.count o n).part p = s.part p := State.part_of (State.count_parts s o n)
@[simp] theorem State.wr64_part_eq (o v : Nat) (p : Nat) : (s.wr64 o v).part p = s.part p := State.part_of (State.wr64_parts s o v)
@[simp] theorem State.countWrap_part_eq (o n : Nat) (p : Nat) : (s.countWrap o n).part p = s.part p := State.part_of (State.countWrap_parts s o n)
@[simp] theorem State.count64_part_eq (o n : Nat) (p : Nat) : (s.count64 o n).part p = s.part p := State.part_of (State.count64_parts s o n)
@[simp] theorem State.resetRegs_part_eq (l h : Nat) (p : Nat) : (s.resetRegs l h).part p = s.part p := State.part_of (State.resetRegs_parts s l h)
@[simp] theorem State.emit_part_eq (x : Out) (p : Nat) : (s.emit x).part p = s.part p := State.part_of (State.emit_parts s x)
@[simp] theorem State.hbmPut_part_eq (a : Nat) (b : Byte) (p : Nat) : (s.hbmPut a b).part p = s.part p := State.part_of (State.hbmPut_parts s a b)
@[simp] theorem State.hbmZero_part_eq (a n : Nat) (p : Nat) : (s.hbmZero a n).part p = s.part p := State.part_of (State.hbmZero_parts s a n)
@[simp] theorem State.setPoison_part_eq (ln : Nat) (b : Bool) (p : Nat) : (s.setPoison ln b).part p = s.part p := State.part_of (State.setPoison_parts s ln b)
@[simp] theorem State.setLane_part_eq (i : Nat) (x : LaneSt) (p : Nat) : (s.setLane i x).part p = s.part p := State.part_of (State.setLane_parts s i x)
@[simp] theorem State.setStream_part_eq (i : Nat) (x : StreamSt) (p : Nat) : (s.setStream i x).part p = s.part p := State.part_of (State.setStream_parts s i x)
@[simp] theorem State.setEng_part_eq (i : Nat) (x : EngSt) (p : Nat) : (s.setEng i x).part p = s.part p := State.part_of (State.setEng_parts s i x)
@[simp] theorem State.setSub_part_eq (i : Nat) (x : SubSt) (p : Nat) : (s.setSub i x).part p = s.part p := State.part_of (State.setSub_parts s i x)
@[simp] theorem State.setCore_part_eq (i : Nat) (x : CoreSt) (p : Nat) : (s.setCore i x).part p = s.part p := State.part_of (State.setCore_parts s i x)
@[simp] theorem State.setCluster_part_eq (i : Nat) (x : ClusterSt) (p : Nat) : (s.setCluster i x).part p = s.part p := State.part_of (State.setCluster_parts s i x)
@[simp] theorem State.setLp_part_eq (i : Nat) (x : LpSt) (p : Nat) : (s.setLp i x).part p = s.part p := State.part_of (State.setLp_parts s i x)
@[simp] theorem State.setDom_part_eq (i : Nat) (x : DomSt) (p : Nat) : (s.setDom i x).part p = s.part p := State.part_of (State.setDom_parts s i x)
@[simp] theorem State.setSlice_part_eq (n k : Nat) (x : SliceRec) (p : Nat) : (s.setSlice n k x).part p = s.part p := State.part_of (State.setSlice_parts s n k x)
@[simp] theorem State.withPending_lane_eq (x) (p : Nat) : (s.withPending x).lane p = s.lane p := State.lane_of (State.withPending_lanes s x)
@[simp] theorem State.withFree_lane_eq (x) (p : Nat) : (s.withFree x).lane p = s.lane p := State.lane_of (State.withFree_lanes s x)
@[simp] theorem State.withRegs_lane_eq (x) (p : Nat) : (s.withRegs x).lane p = s.lane p := State.lane_of (State.withRegs_lanes s x)
@[simp] theorem State.withHbm_lane_eq (x) (p : Nat) : (s.withHbm x).lane p = s.lane p := State.lane_of (State.withHbm_lanes s x)
@[simp] theorem State.withPoison_lane_eq (x) (p : Nat) : (s.withPoison x).lane p = s.lane p := State.lane_of (State.withPoison_lanes s x)
@[simp] theorem State.withOuts_lane_eq (x) (p : Nat) : (s.withOuts x).lane p = s.lane p := State.lane_of (State.withOuts_lanes s x)
@[simp] theorem State.withHold_lane_eq (x) (p : Nat) : (s.withHold x).lane p = s.lane p := State.lane_of (State.withHold_lanes s x)
@[simp] theorem State.withPor_lane_eq (x) (p : Nat) : (s.withPor x).lane p = s.lane p := State.lane_of (State.withPor_lanes s x)
@[simp] theorem State.withTime_lane_eq (x) (p : Nat) : (s.withTime x).lane p = s.lane p := State.lane_of (State.withTime_lanes s x)
@[simp] theorem State.withStreams_lane_eq (x) (p : Nat) : (s.withStreams x).lane p = s.lane p := State.lane_of (State.withStreams_lanes s x)
@[simp] theorem State.withEngines_lane_eq (x) (p : Nat) : (s.withEngines x).lane p = s.lane p := State.lane_of (State.withEngines_lanes s x)
@[simp] theorem State.withSubs_lane_eq (x) (p : Nat) : (s.withSubs x).lane p = s.lane p := State.lane_of (State.withSubs_lanes s x)
@[simp] theorem State.withFabric_lane_eq (x) (p : Nat) : (s.withFabric x).lane p = s.lane p := State.lane_of (State.withFabric_lanes s x)
@[simp] theorem State.withPins_lane_eq (x) (p : Nat) : (s.withPins x).lane p = s.lane p := State.lane_of (State.withPins_lanes s x)
@[simp] theorem State.withSwcmd_lane_eq (x) (p : Nat) : (s.withSwcmd x).lane p = s.lane p := State.lane_of (State.withSwcmd_lanes s x)
@[simp] theorem State.withChan_lane_eq (x) (p : Nat) : (s.withChan x).lane p = s.lane p := State.lane_of (State.withChan_lanes s x)
@[simp] theorem State.withCores_lane_eq (x) (p : Nat) : (s.withCores x).lane p = s.lane p := State.lane_of (State.withCores_lanes s x)
@[simp] theorem State.withClusters_lane_eq (x) (p : Nat) : (s.withClusters x).lane p = s.lane p := State.lane_of (State.withClusters_lanes s x)
@[simp] theorem State.withTaken_lane_eq (x) (p : Nat) : (s.withTaken x).lane p = s.lane p := State.lane_of (State.withTaken_lanes s x)
@[simp] theorem State.withMgmt_lane_eq (x) (p : Nat) : (s.withMgmt x).lane p = s.lane p := State.lane_of (State.withMgmt_lanes s x)
@[simp] theorem State.withPf_lane_eq (x) (p : Nat) : (s.withPf x).lane p = s.lane p := State.lane_of (State.withPf_lanes s x)
@[simp] theorem State.withParts_lane_eq (x) (p : Nat) : (s.withParts x).lane p = s.lane p := State.lane_of (State.withParts_lanes s x)
@[simp] theorem State.withOwners_lane_eq (x) (p : Nat) : (s.withOwners x).lane p = s.lane p := State.lane_of (State.withOwners_lanes s x)
@[simp] theorem State.withCreq_lane_eq (x) (p : Nat) : (s.withCreq x).lane p = s.lane p := State.lane_of (State.withCreq_lanes s x)
@[simp] theorem State.withLps_lane_eq (x) (p : Nat) : (s.withLps x).lane p = s.lane p := State.lane_of (State.withLps_lanes s x)
@[simp] theorem State.withDoms_lane_eq (x) (p : Nat) : (s.withDoms x).lane p = s.lane p := State.lane_of (State.withDoms_lanes s x)
@[simp] theorem State.withNvs_lane_eq (x) (p : Nat) : (s.withNvs x).lane p = s.lane p := State.lane_of (State.withNvs_lanes s x)
@[simp] theorem State.withTest_lane_eq (x) (p : Nat) : (s.withTest x).lane p = s.lane p := State.lane_of (State.withTest_lanes s x)
@[simp] theorem State.withAges_lane_eq (x) (p : Nat) : (s.withAges x).lane p = s.lane p := State.lane_of (State.withAges_lanes s x)
@[simp] theorem State.withReadout_lane_eq (x) (p : Nat) : (s.withReadout x).lane p = s.lane p := State.lane_of (State.withReadout_lanes s x)
@[simp] theorem State.withSec_lane_eq (x) (p : Nat) : (s.withSec x).lane p = s.lane p := State.lane_of (State.withSec_lanes s x)
@[simp] theorem State.withArb_lane_eq (x) (p : Nat) : (s.withArb x).lane p = s.lane p := State.lane_of (State.withArb_lanes s x)
@[simp] theorem State.withJtag_lane_eq (x) (p : Nat) : (s.withJtag x).lane p = s.lane p := State.lane_of (State.withJtag_lanes s x)
@[simp] theorem State.wr_lane_eq (o v : Nat) (p : Nat) : (s.wr o v).lane p = s.lane p := State.lane_of (State.wr_lanes s o v)
@[simp] theorem State.fset_lane_eq (o l w v : Nat) (p : Nat) : (s.fset o l w v).lane p = s.lane p := State.lane_of (State.fset_lanes s o l w v)
@[simp] theorem State.count_lane_eq (o n : Nat) (p : Nat) : (s.count o n).lane p = s.lane p := State.lane_of (State.count_lanes s o n)
@[simp] theorem State.wr64_lane_eq (o v : Nat) (p : Nat) : (s.wr64 o v).lane p = s.lane p := State.lane_of (State.wr64_lanes s o v)
@[simp] theorem State.countWrap_lane_eq (o n : Nat) (p : Nat) : (s.countWrap o n).lane p = s.lane p := State.lane_of (State.countWrap_lanes s o n)
@[simp] theorem State.count64_lane_eq (o n : Nat) (p : Nat) : (s.count64 o n).lane p = s.lane p := State.lane_of (State.count64_lanes s o n)
@[simp] theorem State.resetRegs_lane_eq (l h : Nat) (p : Nat) : (s.resetRegs l h).lane p = s.lane p := State.lane_of (State.resetRegs_lanes s l h)
@[simp] theorem State.emit_lane_eq (x : Out) (p : Nat) : (s.emit x).lane p = s.lane p := State.lane_of (State.emit_lanes s x)
@[simp] theorem State.hbmPut_lane_eq (a : Nat) (b : Byte) (p : Nat) : (s.hbmPut a b).lane p = s.lane p := State.lane_of (State.hbmPut_lanes s a b)
@[simp] theorem State.hbmZero_lane_eq (a n : Nat) (p : Nat) : (s.hbmZero a n).lane p = s.lane p := State.lane_of (State.hbmZero_lanes s a n)
@[simp] theorem State.setPoison_lane_eq (ln : Nat) (b : Bool) (p : Nat) : (s.setPoison ln b).lane p = s.lane p := State.lane_of (State.setPoison_lanes s ln b)
@[simp] theorem State.setPart_lane_eq (i : Nat) (x : PartSt) (p : Nat) : (s.setPart i x).lane p = s.lane p := State.lane_of (State.setPart_lanes s i x)
@[simp] theorem State.setStream_lane_eq (i : Nat) (x : StreamSt) (p : Nat) : (s.setStream i x).lane p = s.lane p := State.lane_of (State.setStream_lanes s i x)
@[simp] theorem State.setEng_lane_eq (i : Nat) (x : EngSt) (p : Nat) : (s.setEng i x).lane p = s.lane p := State.lane_of (State.setEng_lanes s i x)
@[simp] theorem State.setSub_lane_eq (i : Nat) (x : SubSt) (p : Nat) : (s.setSub i x).lane p = s.lane p := State.lane_of (State.setSub_lanes s i x)
@[simp] theorem State.setCore_lane_eq (i : Nat) (x : CoreSt) (p : Nat) : (s.setCore i x).lane p = s.lane p := State.lane_of (State.setCore_lanes s i x)
@[simp] theorem State.setCluster_lane_eq (i : Nat) (x : ClusterSt) (p : Nat) : (s.setCluster i x).lane p = s.lane p := State.lane_of (State.setCluster_lanes s i x)
@[simp] theorem State.setLp_lane_eq (i : Nat) (x : LpSt) (p : Nat) : (s.setLp i x).lane p = s.lane p := State.lane_of (State.setLp_lanes s i x)
@[simp] theorem State.setDom_lane_eq (i : Nat) (x : DomSt) (p : Nat) : (s.setDom i x).lane p = s.lane p := State.lane_of (State.setDom_lanes s i x)
@[simp] theorem State.setSlice_lane_eq (n k : Nat) (x : SliceRec) (p : Nat) : (s.setSlice n k x).lane p = s.lane p := State.lane_of (State.setSlice_lanes s n k x)
@[simp] theorem State.withPending_stream_eq (x) (p : Nat) : (s.withPending x).stream p = s.stream p := State.stream_of (State.withPending_streams s x)
@[simp] theorem State.withFree_stream_eq (x) (p : Nat) : (s.withFree x).stream p = s.stream p := State.stream_of (State.withFree_streams s x)
@[simp] theorem State.withRegs_stream_eq (x) (p : Nat) : (s.withRegs x).stream p = s.stream p := State.stream_of (State.withRegs_streams s x)
@[simp] theorem State.withHbm_stream_eq (x) (p : Nat) : (s.withHbm x).stream p = s.stream p := State.stream_of (State.withHbm_streams s x)
@[simp] theorem State.withPoison_stream_eq (x) (p : Nat) : (s.withPoison x).stream p = s.stream p := State.stream_of (State.withPoison_streams s x)
@[simp] theorem State.withOuts_stream_eq (x) (p : Nat) : (s.withOuts x).stream p = s.stream p := State.stream_of (State.withOuts_streams s x)
@[simp] theorem State.withHold_stream_eq (x) (p : Nat) : (s.withHold x).stream p = s.stream p := State.stream_of (State.withHold_streams s x)
@[simp] theorem State.withPor_stream_eq (x) (p : Nat) : (s.withPor x).stream p = s.stream p := State.stream_of (State.withPor_streams s x)
@[simp] theorem State.withTime_stream_eq (x) (p : Nat) : (s.withTime x).stream p = s.stream p := State.stream_of (State.withTime_streams s x)
@[simp] theorem State.withEngines_stream_eq (x) (p : Nat) : (s.withEngines x).stream p = s.stream p := State.stream_of (State.withEngines_streams s x)
@[simp] theorem State.withSubs_stream_eq (x) (p : Nat) : (s.withSubs x).stream p = s.stream p := State.stream_of (State.withSubs_streams s x)
@[simp] theorem State.withFabric_stream_eq (x) (p : Nat) : (s.withFabric x).stream p = s.stream p := State.stream_of (State.withFabric_streams s x)
@[simp] theorem State.withPins_stream_eq (x) (p : Nat) : (s.withPins x).stream p = s.stream p := State.stream_of (State.withPins_streams s x)
@[simp] theorem State.withLanes_stream_eq (x) (p : Nat) : (s.withLanes x).stream p = s.stream p := State.stream_of (State.withLanes_streams s x)
@[simp] theorem State.withSwcmd_stream_eq (x) (p : Nat) : (s.withSwcmd x).stream p = s.stream p := State.stream_of (State.withSwcmd_streams s x)
@[simp] theorem State.withChan_stream_eq (x) (p : Nat) : (s.withChan x).stream p = s.stream p := State.stream_of (State.withChan_streams s x)
@[simp] theorem State.withCores_stream_eq (x) (p : Nat) : (s.withCores x).stream p = s.stream p := State.stream_of (State.withCores_streams s x)
@[simp] theorem State.withClusters_stream_eq (x) (p : Nat) : (s.withClusters x).stream p = s.stream p := State.stream_of (State.withClusters_streams s x)
@[simp] theorem State.withTaken_stream_eq (x) (p : Nat) : (s.withTaken x).stream p = s.stream p := State.stream_of (State.withTaken_streams s x)
@[simp] theorem State.withMgmt_stream_eq (x) (p : Nat) : (s.withMgmt x).stream p = s.stream p := State.stream_of (State.withMgmt_streams s x)
@[simp] theorem State.withPf_stream_eq (x) (p : Nat) : (s.withPf x).stream p = s.stream p := State.stream_of (State.withPf_streams s x)
@[simp] theorem State.withParts_stream_eq (x) (p : Nat) : (s.withParts x).stream p = s.stream p := State.stream_of (State.withParts_streams s x)
@[simp] theorem State.withOwners_stream_eq (x) (p : Nat) : (s.withOwners x).stream p = s.stream p := State.stream_of (State.withOwners_streams s x)
@[simp] theorem State.withCreq_stream_eq (x) (p : Nat) : (s.withCreq x).stream p = s.stream p := State.stream_of (State.withCreq_streams s x)
@[simp] theorem State.withLps_stream_eq (x) (p : Nat) : (s.withLps x).stream p = s.stream p := State.stream_of (State.withLps_streams s x)
@[simp] theorem State.withDoms_stream_eq (x) (p : Nat) : (s.withDoms x).stream p = s.stream p := State.stream_of (State.withDoms_streams s x)
@[simp] theorem State.withNvs_stream_eq (x) (p : Nat) : (s.withNvs x).stream p = s.stream p := State.stream_of (State.withNvs_streams s x)
@[simp] theorem State.withTest_stream_eq (x) (p : Nat) : (s.withTest x).stream p = s.stream p := State.stream_of (State.withTest_streams s x)
@[simp] theorem State.withAges_stream_eq (x) (p : Nat) : (s.withAges x).stream p = s.stream p := State.stream_of (State.withAges_streams s x)
@[simp] theorem State.withReadout_stream_eq (x) (p : Nat) : (s.withReadout x).stream p = s.stream p := State.stream_of (State.withReadout_streams s x)
@[simp] theorem State.withSec_stream_eq (x) (p : Nat) : (s.withSec x).stream p = s.stream p := State.stream_of (State.withSec_streams s x)
@[simp] theorem State.withArb_stream_eq (x) (p : Nat) : (s.withArb x).stream p = s.stream p := State.stream_of (State.withArb_streams s x)
@[simp] theorem State.withJtag_stream_eq (x) (p : Nat) : (s.withJtag x).stream p = s.stream p := State.stream_of (State.withJtag_streams s x)
@[simp] theorem State.wr_stream_eq (o v : Nat) (p : Nat) : (s.wr o v).stream p = s.stream p := State.stream_of (State.wr_streams s o v)
@[simp] theorem State.fset_stream_eq (o l w v : Nat) (p : Nat) : (s.fset o l w v).stream p = s.stream p := State.stream_of (State.fset_streams s o l w v)
@[simp] theorem State.count_stream_eq (o n : Nat) (p : Nat) : (s.count o n).stream p = s.stream p := State.stream_of (State.count_streams s o n)
@[simp] theorem State.wr64_stream_eq (o v : Nat) (p : Nat) : (s.wr64 o v).stream p = s.stream p := State.stream_of (State.wr64_streams s o v)
@[simp] theorem State.countWrap_stream_eq (o n : Nat) (p : Nat) : (s.countWrap o n).stream p = s.stream p := State.stream_of (State.countWrap_streams s o n)
@[simp] theorem State.count64_stream_eq (o n : Nat) (p : Nat) : (s.count64 o n).stream p = s.stream p := State.stream_of (State.count64_streams s o n)
@[simp] theorem State.resetRegs_stream_eq (l h : Nat) (p : Nat) : (s.resetRegs l h).stream p = s.stream p := State.stream_of (State.resetRegs_streams s l h)
@[simp] theorem State.emit_stream_eq (x : Out) (p : Nat) : (s.emit x).stream p = s.stream p := State.stream_of (State.emit_streams s x)
@[simp] theorem State.hbmPut_stream_eq (a : Nat) (b : Byte) (p : Nat) : (s.hbmPut a b).stream p = s.stream p := State.stream_of (State.hbmPut_streams s a b)
@[simp] theorem State.hbmZero_stream_eq (a n : Nat) (p : Nat) : (s.hbmZero a n).stream p = s.stream p := State.stream_of (State.hbmZero_streams s a n)
@[simp] theorem State.setPoison_stream_eq (ln : Nat) (b : Bool) (p : Nat) : (s.setPoison ln b).stream p = s.stream p := State.stream_of (State.setPoison_streams s ln b)
@[simp] theorem State.setPart_stream_eq (i : Nat) (x : PartSt) (p : Nat) : (s.setPart i x).stream p = s.stream p := State.stream_of (State.setPart_streams s i x)
@[simp] theorem State.setLane_stream_eq (i : Nat) (x : LaneSt) (p : Nat) : (s.setLane i x).stream p = s.stream p := State.stream_of (State.setLane_streams s i x)
@[simp] theorem State.setEng_stream_eq (i : Nat) (x : EngSt) (p : Nat) : (s.setEng i x).stream p = s.stream p := State.stream_of (State.setEng_streams s i x)
@[simp] theorem State.setSub_stream_eq (i : Nat) (x : SubSt) (p : Nat) : (s.setSub i x).stream p = s.stream p := State.stream_of (State.setSub_streams s i x)
@[simp] theorem State.setCore_stream_eq (i : Nat) (x : CoreSt) (p : Nat) : (s.setCore i x).stream p = s.stream p := State.stream_of (State.setCore_streams s i x)
@[simp] theorem State.setCluster_stream_eq (i : Nat) (x : ClusterSt) (p : Nat) : (s.setCluster i x).stream p = s.stream p := State.stream_of (State.setCluster_streams s i x)
@[simp] theorem State.setLp_stream_eq (i : Nat) (x : LpSt) (p : Nat) : (s.setLp i x).stream p = s.stream p := State.stream_of (State.setLp_streams s i x)
@[simp] theorem State.setDom_stream_eq (i : Nat) (x : DomSt) (p : Nat) : (s.setDom i x).stream p = s.stream p := State.stream_of (State.setDom_streams s i x)
@[simp] theorem State.withPending_eng_eq (x) (p : Nat) : (s.withPending x).eng p = s.eng p := State.eng_of (State.withPending_engines s x)
@[simp] theorem State.withFree_eng_eq (x) (p : Nat) : (s.withFree x).eng p = s.eng p := State.eng_of (State.withFree_engines s x)
@[simp] theorem State.withRegs_eng_eq (x) (p : Nat) : (s.withRegs x).eng p = s.eng p := State.eng_of (State.withRegs_engines s x)
@[simp] theorem State.withHbm_eng_eq (x) (p : Nat) : (s.withHbm x).eng p = s.eng p := State.eng_of (State.withHbm_engines s x)
@[simp] theorem State.withPoison_eng_eq (x) (p : Nat) : (s.withPoison x).eng p = s.eng p := State.eng_of (State.withPoison_engines s x)
@[simp] theorem State.withOuts_eng_eq (x) (p : Nat) : (s.withOuts x).eng p = s.eng p := State.eng_of (State.withOuts_engines s x)
@[simp] theorem State.withHold_eng_eq (x) (p : Nat) : (s.withHold x).eng p = s.eng p := State.eng_of (State.withHold_engines s x)
@[simp] theorem State.withPor_eng_eq (x) (p : Nat) : (s.withPor x).eng p = s.eng p := State.eng_of (State.withPor_engines s x)
@[simp] theorem State.withTime_eng_eq (x) (p : Nat) : (s.withTime x).eng p = s.eng p := State.eng_of (State.withTime_engines s x)
@[simp] theorem State.withStreams_eng_eq (x) (p : Nat) : (s.withStreams x).eng p = s.eng p := State.eng_of (State.withStreams_engines s x)
@[simp] theorem State.withSubs_eng_eq (x) (p : Nat) : (s.withSubs x).eng p = s.eng p := State.eng_of (State.withSubs_engines s x)
@[simp] theorem State.withFabric_eng_eq (x) (p : Nat) : (s.withFabric x).eng p = s.eng p := State.eng_of (State.withFabric_engines s x)
@[simp] theorem State.withPins_eng_eq (x) (p : Nat) : (s.withPins x).eng p = s.eng p := State.eng_of (State.withPins_engines s x)
@[simp] theorem State.withLanes_eng_eq (x) (p : Nat) : (s.withLanes x).eng p = s.eng p := State.eng_of (State.withLanes_engines s x)
@[simp] theorem State.withSwcmd_eng_eq (x) (p : Nat) : (s.withSwcmd x).eng p = s.eng p := State.eng_of (State.withSwcmd_engines s x)
@[simp] theorem State.withChan_eng_eq (x) (p : Nat) : (s.withChan x).eng p = s.eng p := State.eng_of (State.withChan_engines s x)
@[simp] theorem State.withCores_eng_eq (x) (p : Nat) : (s.withCores x).eng p = s.eng p := State.eng_of (State.withCores_engines s x)
@[simp] theorem State.withClusters_eng_eq (x) (p : Nat) : (s.withClusters x).eng p = s.eng p := State.eng_of (State.withClusters_engines s x)
@[simp] theorem State.withTaken_eng_eq (x) (p : Nat) : (s.withTaken x).eng p = s.eng p := State.eng_of (State.withTaken_engines s x)
@[simp] theorem State.withMgmt_eng_eq (x) (p : Nat) : (s.withMgmt x).eng p = s.eng p := State.eng_of (State.withMgmt_engines s x)
@[simp] theorem State.withPf_eng_eq (x) (p : Nat) : (s.withPf x).eng p = s.eng p := State.eng_of (State.withPf_engines s x)
@[simp] theorem State.withParts_eng_eq (x) (p : Nat) : (s.withParts x).eng p = s.eng p := State.eng_of (State.withParts_engines s x)
@[simp] theorem State.withOwners_eng_eq (x) (p : Nat) : (s.withOwners x).eng p = s.eng p := State.eng_of (State.withOwners_engines s x)
@[simp] theorem State.withCreq_eng_eq (x) (p : Nat) : (s.withCreq x).eng p = s.eng p := State.eng_of (State.withCreq_engines s x)
@[simp] theorem State.withLps_eng_eq (x) (p : Nat) : (s.withLps x).eng p = s.eng p := State.eng_of (State.withLps_engines s x)
@[simp] theorem State.withDoms_eng_eq (x) (p : Nat) : (s.withDoms x).eng p = s.eng p := State.eng_of (State.withDoms_engines s x)
@[simp] theorem State.withNvs_eng_eq (x) (p : Nat) : (s.withNvs x).eng p = s.eng p := State.eng_of (State.withNvs_engines s x)
@[simp] theorem State.withTest_eng_eq (x) (p : Nat) : (s.withTest x).eng p = s.eng p := State.eng_of (State.withTest_engines s x)
@[simp] theorem State.withAges_eng_eq (x) (p : Nat) : (s.withAges x).eng p = s.eng p := State.eng_of (State.withAges_engines s x)
@[simp] theorem State.withReadout_eng_eq (x) (p : Nat) : (s.withReadout x).eng p = s.eng p := State.eng_of (State.withReadout_engines s x)
@[simp] theorem State.withSec_eng_eq (x) (p : Nat) : (s.withSec x).eng p = s.eng p := State.eng_of (State.withSec_engines s x)
@[simp] theorem State.withArb_eng_eq (x) (p : Nat) : (s.withArb x).eng p = s.eng p := State.eng_of (State.withArb_engines s x)
@[simp] theorem State.withJtag_eng_eq (x) (p : Nat) : (s.withJtag x).eng p = s.eng p := State.eng_of (State.withJtag_engines s x)
@[simp] theorem State.wr_eng_eq (o v : Nat) (p : Nat) : (s.wr o v).eng p = s.eng p := State.eng_of (State.wr_engines s o v)
@[simp] theorem State.fset_eng_eq (o l w v : Nat) (p : Nat) : (s.fset o l w v).eng p = s.eng p := State.eng_of (State.fset_engines s o l w v)
@[simp] theorem State.count_eng_eq (o n : Nat) (p : Nat) : (s.count o n).eng p = s.eng p := State.eng_of (State.count_engines s o n)
@[simp] theorem State.wr64_eng_eq (o v : Nat) (p : Nat) : (s.wr64 o v).eng p = s.eng p := State.eng_of (State.wr64_engines s o v)
@[simp] theorem State.countWrap_eng_eq (o n : Nat) (p : Nat) : (s.countWrap o n).eng p = s.eng p := State.eng_of (State.countWrap_engines s o n)
@[simp] theorem State.count64_eng_eq (o n : Nat) (p : Nat) : (s.count64 o n).eng p = s.eng p := State.eng_of (State.count64_engines s o n)
@[simp] theorem State.resetRegs_eng_eq (l h : Nat) (p : Nat) : (s.resetRegs l h).eng p = s.eng p := State.eng_of (State.resetRegs_engines s l h)
@[simp] theorem State.emit_eng_eq (x : Out) (p : Nat) : (s.emit x).eng p = s.eng p := State.eng_of (State.emit_engines s x)
@[simp] theorem State.hbmPut_eng_eq (a : Nat) (b : Byte) (p : Nat) : (s.hbmPut a b).eng p = s.eng p := State.eng_of (State.hbmPut_engines s a b)
@[simp] theorem State.hbmZero_eng_eq (a n : Nat) (p : Nat) : (s.hbmZero a n).eng p = s.eng p := State.eng_of (State.hbmZero_engines s a n)
@[simp] theorem State.setPoison_eng_eq (ln : Nat) (b : Bool) (p : Nat) : (s.setPoison ln b).eng p = s.eng p := State.eng_of (State.setPoison_engines s ln b)
@[simp] theorem State.setPart_eng_eq (i : Nat) (x : PartSt) (p : Nat) : (s.setPart i x).eng p = s.eng p := State.eng_of (State.setPart_engines s i x)
@[simp] theorem State.setLane_eng_eq (i : Nat) (x : LaneSt) (p : Nat) : (s.setLane i x).eng p = s.eng p := State.eng_of (State.setLane_engines s i x)
@[simp] theorem State.setStream_eng_eq (i : Nat) (x : StreamSt) (p : Nat) : (s.setStream i x).eng p = s.eng p := State.eng_of (State.setStream_engines s i x)
@[simp] theorem State.setSub_eng_eq (i : Nat) (x : SubSt) (p : Nat) : (s.setSub i x).eng p = s.eng p := State.eng_of (State.setSub_engines s i x)
@[simp] theorem State.setCore_eng_eq (i : Nat) (x : CoreSt) (p : Nat) : (s.setCore i x).eng p = s.eng p := State.eng_of (State.setCore_engines s i x)
@[simp] theorem State.setCluster_eng_eq (i : Nat) (x : ClusterSt) (p : Nat) : (s.setCluster i x).eng p = s.eng p := State.eng_of (State.setCluster_engines s i x)
@[simp] theorem State.setLp_eng_eq (i : Nat) (x : LpSt) (p : Nat) : (s.setLp i x).eng p = s.eng p := State.eng_of (State.setLp_engines s i x)
@[simp] theorem State.setDom_eng_eq (i : Nat) (x : DomSt) (p : Nat) : (s.setDom i x).eng p = s.eng p := State.eng_of (State.setDom_engines s i x)
@[simp] theorem State.setSlice_eng_eq (n k : Nat) (x : SliceRec) (p : Nat) : (s.setSlice n k x).eng p = s.eng p := State.eng_of (State.setSlice_engines s n k x)
@[simp] theorem State.withPending_sub_eq (x) (p : Nat) : (s.withPending x).sub p = s.sub p := State.sub_of (State.withPending_subs s x)
@[simp] theorem State.withFree_sub_eq (x) (p : Nat) : (s.withFree x).sub p = s.sub p := State.sub_of (State.withFree_subs s x)
@[simp] theorem State.withRegs_sub_eq (x) (p : Nat) : (s.withRegs x).sub p = s.sub p := State.sub_of (State.withRegs_subs s x)
@[simp] theorem State.withHbm_sub_eq (x) (p : Nat) : (s.withHbm x).sub p = s.sub p := State.sub_of (State.withHbm_subs s x)
@[simp] theorem State.withPoison_sub_eq (x) (p : Nat) : (s.withPoison x).sub p = s.sub p := State.sub_of (State.withPoison_subs s x)
@[simp] theorem State.withOuts_sub_eq (x) (p : Nat) : (s.withOuts x).sub p = s.sub p := State.sub_of (State.withOuts_subs s x)
@[simp] theorem State.withHold_sub_eq (x) (p : Nat) : (s.withHold x).sub p = s.sub p := State.sub_of (State.withHold_subs s x)
@[simp] theorem State.withPor_sub_eq (x) (p : Nat) : (s.withPor x).sub p = s.sub p := State.sub_of (State.withPor_subs s x)
@[simp] theorem State.withTime_sub_eq (x) (p : Nat) : (s.withTime x).sub p = s.sub p := State.sub_of (State.withTime_subs s x)
@[simp] theorem State.withStreams_sub_eq (x) (p : Nat) : (s.withStreams x).sub p = s.sub p := State.sub_of (State.withStreams_subs s x)
@[simp] theorem State.withEngines_sub_eq (x) (p : Nat) : (s.withEngines x).sub p = s.sub p := State.sub_of (State.withEngines_subs s x)
@[simp] theorem State.withFabric_sub_eq (x) (p : Nat) : (s.withFabric x).sub p = s.sub p := State.sub_of (State.withFabric_subs s x)
@[simp] theorem State.withPins_sub_eq (x) (p : Nat) : (s.withPins x).sub p = s.sub p := State.sub_of (State.withPins_subs s x)
@[simp] theorem State.withLanes_sub_eq (x) (p : Nat) : (s.withLanes x).sub p = s.sub p := State.sub_of (State.withLanes_subs s x)
@[simp] theorem State.withSwcmd_sub_eq (x) (p : Nat) : (s.withSwcmd x).sub p = s.sub p := State.sub_of (State.withSwcmd_subs s x)
@[simp] theorem State.withChan_sub_eq (x) (p : Nat) : (s.withChan x).sub p = s.sub p := State.sub_of (State.withChan_subs s x)
@[simp] theorem State.withCores_sub_eq (x) (p : Nat) : (s.withCores x).sub p = s.sub p := State.sub_of (State.withCores_subs s x)
@[simp] theorem State.withClusters_sub_eq (x) (p : Nat) : (s.withClusters x).sub p = s.sub p := State.sub_of (State.withClusters_subs s x)
@[simp] theorem State.withTaken_sub_eq (x) (p : Nat) : (s.withTaken x).sub p = s.sub p := State.sub_of (State.withTaken_subs s x)
@[simp] theorem State.withMgmt_sub_eq (x) (p : Nat) : (s.withMgmt x).sub p = s.sub p := State.sub_of (State.withMgmt_subs s x)
@[simp] theorem State.withPf_sub_eq (x) (p : Nat) : (s.withPf x).sub p = s.sub p := State.sub_of (State.withPf_subs s x)
@[simp] theorem State.withParts_sub_eq (x) (p : Nat) : (s.withParts x).sub p = s.sub p := State.sub_of (State.withParts_subs s x)
@[simp] theorem State.withOwners_sub_eq (x) (p : Nat) : (s.withOwners x).sub p = s.sub p := State.sub_of (State.withOwners_subs s x)
@[simp] theorem State.withCreq_sub_eq (x) (p : Nat) : (s.withCreq x).sub p = s.sub p := State.sub_of (State.withCreq_subs s x)
@[simp] theorem State.withLps_sub_eq (x) (p : Nat) : (s.withLps x).sub p = s.sub p := State.sub_of (State.withLps_subs s x)
@[simp] theorem State.withDoms_sub_eq (x) (p : Nat) : (s.withDoms x).sub p = s.sub p := State.sub_of (State.withDoms_subs s x)
@[simp] theorem State.withNvs_sub_eq (x) (p : Nat) : (s.withNvs x).sub p = s.sub p := State.sub_of (State.withNvs_subs s x)
@[simp] theorem State.withTest_sub_eq (x) (p : Nat) : (s.withTest x).sub p = s.sub p := State.sub_of (State.withTest_subs s x)
@[simp] theorem State.withAges_sub_eq (x) (p : Nat) : (s.withAges x).sub p = s.sub p := State.sub_of (State.withAges_subs s x)
@[simp] theorem State.withReadout_sub_eq (x) (p : Nat) : (s.withReadout x).sub p = s.sub p := State.sub_of (State.withReadout_subs s x)
@[simp] theorem State.withSec_sub_eq (x) (p : Nat) : (s.withSec x).sub p = s.sub p := State.sub_of (State.withSec_subs s x)
@[simp] theorem State.withArb_sub_eq (x) (p : Nat) : (s.withArb x).sub p = s.sub p := State.sub_of (State.withArb_subs s x)
@[simp] theorem State.withJtag_sub_eq (x) (p : Nat) : (s.withJtag x).sub p = s.sub p := State.sub_of (State.withJtag_subs s x)
@[simp] theorem State.wr_sub_eq (o v : Nat) (p : Nat) : (s.wr o v).sub p = s.sub p := State.sub_of (State.wr_subs s o v)
@[simp] theorem State.fset_sub_eq (o l w v : Nat) (p : Nat) : (s.fset o l w v).sub p = s.sub p := State.sub_of (State.fset_subs s o l w v)
@[simp] theorem State.count_sub_eq (o n : Nat) (p : Nat) : (s.count o n).sub p = s.sub p := State.sub_of (State.count_subs s o n)
@[simp] theorem State.wr64_sub_eq (o v : Nat) (p : Nat) : (s.wr64 o v).sub p = s.sub p := State.sub_of (State.wr64_subs s o v)
@[simp] theorem State.countWrap_sub_eq (o n : Nat) (p : Nat) : (s.countWrap o n).sub p = s.sub p := State.sub_of (State.countWrap_subs s o n)
@[simp] theorem State.count64_sub_eq (o n : Nat) (p : Nat) : (s.count64 o n).sub p = s.sub p := State.sub_of (State.count64_subs s o n)
@[simp] theorem State.resetRegs_sub_eq (l h : Nat) (p : Nat) : (s.resetRegs l h).sub p = s.sub p := State.sub_of (State.resetRegs_subs s l h)
@[simp] theorem State.emit_sub_eq (x : Out) (p : Nat) : (s.emit x).sub p = s.sub p := State.sub_of (State.emit_subs s x)
@[simp] theorem State.hbmPut_sub_eq (a : Nat) (b : Byte) (p : Nat) : (s.hbmPut a b).sub p = s.sub p := State.sub_of (State.hbmPut_subs s a b)
@[simp] theorem State.hbmZero_sub_eq (a n : Nat) (p : Nat) : (s.hbmZero a n).sub p = s.sub p := State.sub_of (State.hbmZero_subs s a n)
@[simp] theorem State.setPoison_sub_eq (ln : Nat) (b : Bool) (p : Nat) : (s.setPoison ln b).sub p = s.sub p := State.sub_of (State.setPoison_subs s ln b)
@[simp] theorem State.setPart_sub_eq (i : Nat) (x : PartSt) (p : Nat) : (s.setPart i x).sub p = s.sub p := State.sub_of (State.setPart_subs s i x)
@[simp] theorem State.setLane_sub_eq (i : Nat) (x : LaneSt) (p : Nat) : (s.setLane i x).sub p = s.sub p := State.sub_of (State.setLane_subs s i x)
@[simp] theorem State.setStream_sub_eq (i : Nat) (x : StreamSt) (p : Nat) : (s.setStream i x).sub p = s.sub p := State.sub_of (State.setStream_subs s i x)
@[simp] theorem State.setEng_sub_eq (i : Nat) (x : EngSt) (p : Nat) : (s.setEng i x).sub p = s.sub p := State.sub_of (State.setEng_subs s i x)
@[simp] theorem State.setCore_sub_eq (i : Nat) (x : CoreSt) (p : Nat) : (s.setCore i x).sub p = s.sub p := State.sub_of (State.setCore_subs s i x)
@[simp] theorem State.setCluster_sub_eq (i : Nat) (x : ClusterSt) (p : Nat) : (s.setCluster i x).sub p = s.sub p := State.sub_of (State.setCluster_subs s i x)
@[simp] theorem State.setLp_sub_eq (i : Nat) (x : LpSt) (p : Nat) : (s.setLp i x).sub p = s.sub p := State.sub_of (State.setLp_subs s i x)
@[simp] theorem State.setDom_sub_eq (i : Nat) (x : DomSt) (p : Nat) : (s.setDom i x).sub p = s.sub p := State.sub_of (State.setDom_subs s i x)
@[simp] theorem State.setSlice_sub_eq (n k : Nat) (x : SliceRec) (p : Nat) : (s.setSlice n k x).sub p = s.sub p := State.sub_of (State.setSlice_subs s n k x)
@[simp] theorem State.withPending_core_eq (x) (p : Nat) : (s.withPending x).core p = s.core p := State.core_of (State.withPending_cores s x)
@[simp] theorem State.withFree_core_eq (x) (p : Nat) : (s.withFree x).core p = s.core p := State.core_of (State.withFree_cores s x)
@[simp] theorem State.withRegs_core_eq (x) (p : Nat) : (s.withRegs x).core p = s.core p := State.core_of (State.withRegs_cores s x)
@[simp] theorem State.withHbm_core_eq (x) (p : Nat) : (s.withHbm x).core p = s.core p := State.core_of (State.withHbm_cores s x)
@[simp] theorem State.withPoison_core_eq (x) (p : Nat) : (s.withPoison x).core p = s.core p := State.core_of (State.withPoison_cores s x)
@[simp] theorem State.withOuts_core_eq (x) (p : Nat) : (s.withOuts x).core p = s.core p := State.core_of (State.withOuts_cores s x)
@[simp] theorem State.withHold_core_eq (x) (p : Nat) : (s.withHold x).core p = s.core p := State.core_of (State.withHold_cores s x)
@[simp] theorem State.withPor_core_eq (x) (p : Nat) : (s.withPor x).core p = s.core p := State.core_of (State.withPor_cores s x)
@[simp] theorem State.withTime_core_eq (x) (p : Nat) : (s.withTime x).core p = s.core p := State.core_of (State.withTime_cores s x)
@[simp] theorem State.withStreams_core_eq (x) (p : Nat) : (s.withStreams x).core p = s.core p := State.core_of (State.withStreams_cores s x)
@[simp] theorem State.withEngines_core_eq (x) (p : Nat) : (s.withEngines x).core p = s.core p := State.core_of (State.withEngines_cores s x)
@[simp] theorem State.withSubs_core_eq (x) (p : Nat) : (s.withSubs x).core p = s.core p := State.core_of (State.withSubs_cores s x)
@[simp] theorem State.withFabric_core_eq (x) (p : Nat) : (s.withFabric x).core p = s.core p := State.core_of (State.withFabric_cores s x)
@[simp] theorem State.withPins_core_eq (x) (p : Nat) : (s.withPins x).core p = s.core p := State.core_of (State.withPins_cores s x)
@[simp] theorem State.withLanes_core_eq (x) (p : Nat) : (s.withLanes x).core p = s.core p := State.core_of (State.withLanes_cores s x)
@[simp] theorem State.withSwcmd_core_eq (x) (p : Nat) : (s.withSwcmd x).core p = s.core p := State.core_of (State.withSwcmd_cores s x)
@[simp] theorem State.withChan_core_eq (x) (p : Nat) : (s.withChan x).core p = s.core p := State.core_of (State.withChan_cores s x)
@[simp] theorem State.withClusters_core_eq (x) (p : Nat) : (s.withClusters x).core p = s.core p := State.core_of (State.withClusters_cores s x)
@[simp] theorem State.withTaken_core_eq (x) (p : Nat) : (s.withTaken x).core p = s.core p := State.core_of (State.withTaken_cores s x)
@[simp] theorem State.withMgmt_core_eq (x) (p : Nat) : (s.withMgmt x).core p = s.core p := State.core_of (State.withMgmt_cores s x)
@[simp] theorem State.withPf_core_eq (x) (p : Nat) : (s.withPf x).core p = s.core p := State.core_of (State.withPf_cores s x)
@[simp] theorem State.withParts_core_eq (x) (p : Nat) : (s.withParts x).core p = s.core p := State.core_of (State.withParts_cores s x)
@[simp] theorem State.withOwners_core_eq (x) (p : Nat) : (s.withOwners x).core p = s.core p := State.core_of (State.withOwners_cores s x)
@[simp] theorem State.withCreq_core_eq (x) (p : Nat) : (s.withCreq x).core p = s.core p := State.core_of (State.withCreq_cores s x)
@[simp] theorem State.withLps_core_eq (x) (p : Nat) : (s.withLps x).core p = s.core p := State.core_of (State.withLps_cores s x)
@[simp] theorem State.withDoms_core_eq (x) (p : Nat) : (s.withDoms x).core p = s.core p := State.core_of (State.withDoms_cores s x)
@[simp] theorem State.withNvs_core_eq (x) (p : Nat) : (s.withNvs x).core p = s.core p := State.core_of (State.withNvs_cores s x)
@[simp] theorem State.withTest_core_eq (x) (p : Nat) : (s.withTest x).core p = s.core p := State.core_of (State.withTest_cores s x)
@[simp] theorem State.withAges_core_eq (x) (p : Nat) : (s.withAges x).core p = s.core p := State.core_of (State.withAges_cores s x)
@[simp] theorem State.withReadout_core_eq (x) (p : Nat) : (s.withReadout x).core p = s.core p := State.core_of (State.withReadout_cores s x)
@[simp] theorem State.withSec_core_eq (x) (p : Nat) : (s.withSec x).core p = s.core p := State.core_of (State.withSec_cores s x)
@[simp] theorem State.withArb_core_eq (x) (p : Nat) : (s.withArb x).core p = s.core p := State.core_of (State.withArb_cores s x)
@[simp] theorem State.withJtag_core_eq (x) (p : Nat) : (s.withJtag x).core p = s.core p := State.core_of (State.withJtag_cores s x)
@[simp] theorem State.wr_core_eq (o v : Nat) (p : Nat) : (s.wr o v).core p = s.core p := State.core_of (State.wr_cores s o v)
@[simp] theorem State.fset_core_eq (o l w v : Nat) (p : Nat) : (s.fset o l w v).core p = s.core p := State.core_of (State.fset_cores s o l w v)
@[simp] theorem State.count_core_eq (o n : Nat) (p : Nat) : (s.count o n).core p = s.core p := State.core_of (State.count_cores s o n)
@[simp] theorem State.wr64_core_eq (o v : Nat) (p : Nat) : (s.wr64 o v).core p = s.core p := State.core_of (State.wr64_cores s o v)
@[simp] theorem State.countWrap_core_eq (o n : Nat) (p : Nat) : (s.countWrap o n).core p = s.core p := State.core_of (State.countWrap_cores s o n)
@[simp] theorem State.count64_core_eq (o n : Nat) (p : Nat) : (s.count64 o n).core p = s.core p := State.core_of (State.count64_cores s o n)
@[simp] theorem State.resetRegs_core_eq (l h : Nat) (p : Nat) : (s.resetRegs l h).core p = s.core p := State.core_of (State.resetRegs_cores s l h)
@[simp] theorem State.emit_core_eq (x : Out) (p : Nat) : (s.emit x).core p = s.core p := State.core_of (State.emit_cores s x)
@[simp] theorem State.hbmPut_core_eq (a : Nat) (b : Byte) (p : Nat) : (s.hbmPut a b).core p = s.core p := State.core_of (State.hbmPut_cores s a b)
@[simp] theorem State.hbmZero_core_eq (a n : Nat) (p : Nat) : (s.hbmZero a n).core p = s.core p := State.core_of (State.hbmZero_cores s a n)
@[simp] theorem State.setPoison_core_eq (ln : Nat) (b : Bool) (p : Nat) : (s.setPoison ln b).core p = s.core p := State.core_of (State.setPoison_cores s ln b)
@[simp] theorem State.setPart_core_eq (i : Nat) (x : PartSt) (p : Nat) : (s.setPart i x).core p = s.core p := State.core_of (State.setPart_cores s i x)
@[simp] theorem State.setLane_core_eq (i : Nat) (x : LaneSt) (p : Nat) : (s.setLane i x).core p = s.core p := State.core_of (State.setLane_cores s i x)
@[simp] theorem State.setStream_core_eq (i : Nat) (x : StreamSt) (p : Nat) : (s.setStream i x).core p = s.core p := State.core_of (State.setStream_cores s i x)
@[simp] theorem State.setEng_core_eq (i : Nat) (x : EngSt) (p : Nat) : (s.setEng i x).core p = s.core p := State.core_of (State.setEng_cores s i x)
@[simp] theorem State.setSub_core_eq (i : Nat) (x : SubSt) (p : Nat) : (s.setSub i x).core p = s.core p := State.core_of (State.setSub_cores s i x)
@[simp] theorem State.setCluster_core_eq (i : Nat) (x : ClusterSt) (p : Nat) : (s.setCluster i x).core p = s.core p := State.core_of (State.setCluster_cores s i x)
@[simp] theorem State.setLp_core_eq (i : Nat) (x : LpSt) (p : Nat) : (s.setLp i x).core p = s.core p := State.core_of (State.setLp_cores s i x)
@[simp] theorem State.setDom_core_eq (i : Nat) (x : DomSt) (p : Nat) : (s.setDom i x).core p = s.core p := State.core_of (State.setDom_cores s i x)
@[simp] theorem State.setSlice_core_eq (n k : Nat) (x : SliceRec) (p : Nat) : (s.setSlice n k x).core p = s.core p := State.core_of (State.setSlice_cores s n k x)
@[simp] theorem State.withPending_cluster_eq (x) (p : Nat) : (s.withPending x).cluster p = s.cluster p := State.cluster_of (State.withPending_clusters s x)
@[simp] theorem State.withFree_cluster_eq (x) (p : Nat) : (s.withFree x).cluster p = s.cluster p := State.cluster_of (State.withFree_clusters s x)
@[simp] theorem State.withRegs_cluster_eq (x) (p : Nat) : (s.withRegs x).cluster p = s.cluster p := State.cluster_of (State.withRegs_clusters s x)
@[simp] theorem State.withHbm_cluster_eq (x) (p : Nat) : (s.withHbm x).cluster p = s.cluster p := State.cluster_of (State.withHbm_clusters s x)
@[simp] theorem State.withPoison_cluster_eq (x) (p : Nat) : (s.withPoison x).cluster p = s.cluster p := State.cluster_of (State.withPoison_clusters s x)
@[simp] theorem State.withOuts_cluster_eq (x) (p : Nat) : (s.withOuts x).cluster p = s.cluster p := State.cluster_of (State.withOuts_clusters s x)
@[simp] theorem State.withHold_cluster_eq (x) (p : Nat) : (s.withHold x).cluster p = s.cluster p := State.cluster_of (State.withHold_clusters s x)
@[simp] theorem State.withPor_cluster_eq (x) (p : Nat) : (s.withPor x).cluster p = s.cluster p := State.cluster_of (State.withPor_clusters s x)
@[simp] theorem State.withTime_cluster_eq (x) (p : Nat) : (s.withTime x).cluster p = s.cluster p := State.cluster_of (State.withTime_clusters s x)
@[simp] theorem State.withStreams_cluster_eq (x) (p : Nat) : (s.withStreams x).cluster p = s.cluster p := State.cluster_of (State.withStreams_clusters s x)
@[simp] theorem State.withEngines_cluster_eq (x) (p : Nat) : (s.withEngines x).cluster p = s.cluster p := State.cluster_of (State.withEngines_clusters s x)
@[simp] theorem State.withSubs_cluster_eq (x) (p : Nat) : (s.withSubs x).cluster p = s.cluster p := State.cluster_of (State.withSubs_clusters s x)
@[simp] theorem State.withFabric_cluster_eq (x) (p : Nat) : (s.withFabric x).cluster p = s.cluster p := State.cluster_of (State.withFabric_clusters s x)
@[simp] theorem State.withPins_cluster_eq (x) (p : Nat) : (s.withPins x).cluster p = s.cluster p := State.cluster_of (State.withPins_clusters s x)
@[simp] theorem State.withLanes_cluster_eq (x) (p : Nat) : (s.withLanes x).cluster p = s.cluster p := State.cluster_of (State.withLanes_clusters s x)
@[simp] theorem State.withSwcmd_cluster_eq (x) (p : Nat) : (s.withSwcmd x).cluster p = s.cluster p := State.cluster_of (State.withSwcmd_clusters s x)
@[simp] theorem State.withChan_cluster_eq (x) (p : Nat) : (s.withChan x).cluster p = s.cluster p := State.cluster_of (State.withChan_clusters s x)
@[simp] theorem State.withCores_cluster_eq (x) (p : Nat) : (s.withCores x).cluster p = s.cluster p := State.cluster_of (State.withCores_clusters s x)
@[simp] theorem State.withTaken_cluster_eq (x) (p : Nat) : (s.withTaken x).cluster p = s.cluster p := State.cluster_of (State.withTaken_clusters s x)
@[simp] theorem State.withMgmt_cluster_eq (x) (p : Nat) : (s.withMgmt x).cluster p = s.cluster p := State.cluster_of (State.withMgmt_clusters s x)
@[simp] theorem State.withPf_cluster_eq (x) (p : Nat) : (s.withPf x).cluster p = s.cluster p := State.cluster_of (State.withPf_clusters s x)
@[simp] theorem State.withParts_cluster_eq (x) (p : Nat) : (s.withParts x).cluster p = s.cluster p := State.cluster_of (State.withParts_clusters s x)
@[simp] theorem State.withOwners_cluster_eq (x) (p : Nat) : (s.withOwners x).cluster p = s.cluster p := State.cluster_of (State.withOwners_clusters s x)
@[simp] theorem State.withCreq_cluster_eq (x) (p : Nat) : (s.withCreq x).cluster p = s.cluster p := State.cluster_of (State.withCreq_clusters s x)
@[simp] theorem State.withLps_cluster_eq (x) (p : Nat) : (s.withLps x).cluster p = s.cluster p := State.cluster_of (State.withLps_clusters s x)
@[simp] theorem State.withDoms_cluster_eq (x) (p : Nat) : (s.withDoms x).cluster p = s.cluster p := State.cluster_of (State.withDoms_clusters s x)
@[simp] theorem State.withNvs_cluster_eq (x) (p : Nat) : (s.withNvs x).cluster p = s.cluster p := State.cluster_of (State.withNvs_clusters s x)
@[simp] theorem State.withTest_cluster_eq (x) (p : Nat) : (s.withTest x).cluster p = s.cluster p := State.cluster_of (State.withTest_clusters s x)
@[simp] theorem State.withAges_cluster_eq (x) (p : Nat) : (s.withAges x).cluster p = s.cluster p := State.cluster_of (State.withAges_clusters s x)
@[simp] theorem State.withReadout_cluster_eq (x) (p : Nat) : (s.withReadout x).cluster p = s.cluster p := State.cluster_of (State.withReadout_clusters s x)
@[simp] theorem State.withSec_cluster_eq (x) (p : Nat) : (s.withSec x).cluster p = s.cluster p := State.cluster_of (State.withSec_clusters s x)
@[simp] theorem State.withArb_cluster_eq (x) (p : Nat) : (s.withArb x).cluster p = s.cluster p := State.cluster_of (State.withArb_clusters s x)
@[simp] theorem State.withJtag_cluster_eq (x) (p : Nat) : (s.withJtag x).cluster p = s.cluster p := State.cluster_of (State.withJtag_clusters s x)
@[simp] theorem State.wr_cluster_eq (o v : Nat) (p : Nat) : (s.wr o v).cluster p = s.cluster p := State.cluster_of (State.wr_clusters s o v)
@[simp] theorem State.fset_cluster_eq (o l w v : Nat) (p : Nat) : (s.fset o l w v).cluster p = s.cluster p := State.cluster_of (State.fset_clusters s o l w v)
@[simp] theorem State.count_cluster_eq (o n : Nat) (p : Nat) : (s.count o n).cluster p = s.cluster p := State.cluster_of (State.count_clusters s o n)
@[simp] theorem State.wr64_cluster_eq (o v : Nat) (p : Nat) : (s.wr64 o v).cluster p = s.cluster p := State.cluster_of (State.wr64_clusters s o v)
@[simp] theorem State.countWrap_cluster_eq (o n : Nat) (p : Nat) : (s.countWrap o n).cluster p = s.cluster p := State.cluster_of (State.countWrap_clusters s o n)
@[simp] theorem State.count64_cluster_eq (o n : Nat) (p : Nat) : (s.count64 o n).cluster p = s.cluster p := State.cluster_of (State.count64_clusters s o n)
@[simp] theorem State.resetRegs_cluster_eq (l h : Nat) (p : Nat) : (s.resetRegs l h).cluster p = s.cluster p := State.cluster_of (State.resetRegs_clusters s l h)
@[simp] theorem State.emit_cluster_eq (x : Out) (p : Nat) : (s.emit x).cluster p = s.cluster p := State.cluster_of (State.emit_clusters s x)
@[simp] theorem State.hbmPut_cluster_eq (a : Nat) (b : Byte) (p : Nat) : (s.hbmPut a b).cluster p = s.cluster p := State.cluster_of (State.hbmPut_clusters s a b)
@[simp] theorem State.hbmZero_cluster_eq (a n : Nat) (p : Nat) : (s.hbmZero a n).cluster p = s.cluster p := State.cluster_of (State.hbmZero_clusters s a n)
@[simp] theorem State.setPoison_cluster_eq (ln : Nat) (b : Bool) (p : Nat) : (s.setPoison ln b).cluster p = s.cluster p := State.cluster_of (State.setPoison_clusters s ln b)
@[simp] theorem State.setPart_cluster_eq (i : Nat) (x : PartSt) (p : Nat) : (s.setPart i x).cluster p = s.cluster p := State.cluster_of (State.setPart_clusters s i x)
@[simp] theorem State.setLane_cluster_eq (i : Nat) (x : LaneSt) (p : Nat) : (s.setLane i x).cluster p = s.cluster p := State.cluster_of (State.setLane_clusters s i x)
@[simp] theorem State.setStream_cluster_eq (i : Nat) (x : StreamSt) (p : Nat) : (s.setStream i x).cluster p = s.cluster p := State.cluster_of (State.setStream_clusters s i x)
@[simp] theorem State.setEng_cluster_eq (i : Nat) (x : EngSt) (p : Nat) : (s.setEng i x).cluster p = s.cluster p := State.cluster_of (State.setEng_clusters s i x)
@[simp] theorem State.setSub_cluster_eq (i : Nat) (x : SubSt) (p : Nat) : (s.setSub i x).cluster p = s.cluster p := State.cluster_of (State.setSub_clusters s i x)
@[simp] theorem State.setCore_cluster_eq (i : Nat) (x : CoreSt) (p : Nat) : (s.setCore i x).cluster p = s.cluster p := State.cluster_of (State.setCore_clusters s i x)
@[simp] theorem State.setLp_cluster_eq (i : Nat) (x : LpSt) (p : Nat) : (s.setLp i x).cluster p = s.cluster p := State.cluster_of (State.setLp_clusters s i x)
@[simp] theorem State.setDom_cluster_eq (i : Nat) (x : DomSt) (p : Nat) : (s.setDom i x).cluster p = s.cluster p := State.cluster_of (State.setDom_clusters s i x)
@[simp] theorem State.setSlice_cluster_eq (n k : Nat) (x : SliceRec) (p : Nat) : (s.setSlice n k x).cluster p = s.cluster p := State.cluster_of (State.setSlice_clusters s n k x)
@[simp] theorem State.withPending_lp_eq (x) (p : Nat) : (s.withPending x).lp p = s.lp p := State.lp_of (State.withPending_lps s x)
@[simp] theorem State.withFree_lp_eq (x) (p : Nat) : (s.withFree x).lp p = s.lp p := State.lp_of (State.withFree_lps s x)
@[simp] theorem State.withRegs_lp_eq (x) (p : Nat) : (s.withRegs x).lp p = s.lp p := State.lp_of (State.withRegs_lps s x)
@[simp] theorem State.withHbm_lp_eq (x) (p : Nat) : (s.withHbm x).lp p = s.lp p := State.lp_of (State.withHbm_lps s x)
@[simp] theorem State.withPoison_lp_eq (x) (p : Nat) : (s.withPoison x).lp p = s.lp p := State.lp_of (State.withPoison_lps s x)
@[simp] theorem State.withOuts_lp_eq (x) (p : Nat) : (s.withOuts x).lp p = s.lp p := State.lp_of (State.withOuts_lps s x)
@[simp] theorem State.withHold_lp_eq (x) (p : Nat) : (s.withHold x).lp p = s.lp p := State.lp_of (State.withHold_lps s x)
@[simp] theorem State.withPor_lp_eq (x) (p : Nat) : (s.withPor x).lp p = s.lp p := State.lp_of (State.withPor_lps s x)
@[simp] theorem State.withTime_lp_eq (x) (p : Nat) : (s.withTime x).lp p = s.lp p := State.lp_of (State.withTime_lps s x)
@[simp] theorem State.withStreams_lp_eq (x) (p : Nat) : (s.withStreams x).lp p = s.lp p := State.lp_of (State.withStreams_lps s x)
@[simp] theorem State.withEngines_lp_eq (x) (p : Nat) : (s.withEngines x).lp p = s.lp p := State.lp_of (State.withEngines_lps s x)
@[simp] theorem State.withSubs_lp_eq (x) (p : Nat) : (s.withSubs x).lp p = s.lp p := State.lp_of (State.withSubs_lps s x)
@[simp] theorem State.withFabric_lp_eq (x) (p : Nat) : (s.withFabric x).lp p = s.lp p := State.lp_of (State.withFabric_lps s x)
@[simp] theorem State.withPins_lp_eq (x) (p : Nat) : (s.withPins x).lp p = s.lp p := State.lp_of (State.withPins_lps s x)
@[simp] theorem State.withLanes_lp_eq (x) (p : Nat) : (s.withLanes x).lp p = s.lp p := State.lp_of (State.withLanes_lps s x)
@[simp] theorem State.withSwcmd_lp_eq (x) (p : Nat) : (s.withSwcmd x).lp p = s.lp p := State.lp_of (State.withSwcmd_lps s x)
@[simp] theorem State.withChan_lp_eq (x) (p : Nat) : (s.withChan x).lp p = s.lp p := State.lp_of (State.withChan_lps s x)
@[simp] theorem State.withCores_lp_eq (x) (p : Nat) : (s.withCores x).lp p = s.lp p := State.lp_of (State.withCores_lps s x)
@[simp] theorem State.withClusters_lp_eq (x) (p : Nat) : (s.withClusters x).lp p = s.lp p := State.lp_of (State.withClusters_lps s x)
@[simp] theorem State.withTaken_lp_eq (x) (p : Nat) : (s.withTaken x).lp p = s.lp p := State.lp_of (State.withTaken_lps s x)
@[simp] theorem State.withMgmt_lp_eq (x) (p : Nat) : (s.withMgmt x).lp p = s.lp p := State.lp_of (State.withMgmt_lps s x)
@[simp] theorem State.withPf_lp_eq (x) (p : Nat) : (s.withPf x).lp p = s.lp p := State.lp_of (State.withPf_lps s x)
@[simp] theorem State.withParts_lp_eq (x) (p : Nat) : (s.withParts x).lp p = s.lp p := State.lp_of (State.withParts_lps s x)
@[simp] theorem State.withOwners_lp_eq (x) (p : Nat) : (s.withOwners x).lp p = s.lp p := State.lp_of (State.withOwners_lps s x)
@[simp] theorem State.withCreq_lp_eq (x) (p : Nat) : (s.withCreq x).lp p = s.lp p := State.lp_of (State.withCreq_lps s x)
@[simp] theorem State.withDoms_lp_eq (x) (p : Nat) : (s.withDoms x).lp p = s.lp p := State.lp_of (State.withDoms_lps s x)
@[simp] theorem State.withNvs_lp_eq (x) (p : Nat) : (s.withNvs x).lp p = s.lp p := State.lp_of (State.withNvs_lps s x)
@[simp] theorem State.withTest_lp_eq (x) (p : Nat) : (s.withTest x).lp p = s.lp p := State.lp_of (State.withTest_lps s x)
@[simp] theorem State.withAges_lp_eq (x) (p : Nat) : (s.withAges x).lp p = s.lp p := State.lp_of (State.withAges_lps s x)
@[simp] theorem State.withReadout_lp_eq (x) (p : Nat) : (s.withReadout x).lp p = s.lp p := State.lp_of (State.withReadout_lps s x)
@[simp] theorem State.withSec_lp_eq (x) (p : Nat) : (s.withSec x).lp p = s.lp p := State.lp_of (State.withSec_lps s x)
@[simp] theorem State.withArb_lp_eq (x) (p : Nat) : (s.withArb x).lp p = s.lp p := State.lp_of (State.withArb_lps s x)
@[simp] theorem State.withJtag_lp_eq (x) (p : Nat) : (s.withJtag x).lp p = s.lp p := State.lp_of (State.withJtag_lps s x)
@[simp] theorem State.wr_lp_eq (o v : Nat) (p : Nat) : (s.wr o v).lp p = s.lp p := State.lp_of (State.wr_lps s o v)
@[simp] theorem State.fset_lp_eq (o l w v : Nat) (p : Nat) : (s.fset o l w v).lp p = s.lp p := State.lp_of (State.fset_lps s o l w v)
@[simp] theorem State.count_lp_eq (o n : Nat) (p : Nat) : (s.count o n).lp p = s.lp p := State.lp_of (State.count_lps s o n)
@[simp] theorem State.wr64_lp_eq (o v : Nat) (p : Nat) : (s.wr64 o v).lp p = s.lp p := State.lp_of (State.wr64_lps s o v)
@[simp] theorem State.countWrap_lp_eq (o n : Nat) (p : Nat) : (s.countWrap o n).lp p = s.lp p := State.lp_of (State.countWrap_lps s o n)
@[simp] theorem State.count64_lp_eq (o n : Nat) (p : Nat) : (s.count64 o n).lp p = s.lp p := State.lp_of (State.count64_lps s o n)
@[simp] theorem State.resetRegs_lp_eq (l h : Nat) (p : Nat) : (s.resetRegs l h).lp p = s.lp p := State.lp_of (State.resetRegs_lps s l h)
@[simp] theorem State.emit_lp_eq (x : Out) (p : Nat) : (s.emit x).lp p = s.lp p := State.lp_of (State.emit_lps s x)
@[simp] theorem State.hbmPut_lp_eq (a : Nat) (b : Byte) (p : Nat) : (s.hbmPut a b).lp p = s.lp p := State.lp_of (State.hbmPut_lps s a b)
@[simp] theorem State.hbmZero_lp_eq (a n : Nat) (p : Nat) : (s.hbmZero a n).lp p = s.lp p := State.lp_of (State.hbmZero_lps s a n)
@[simp] theorem State.setPoison_lp_eq (ln : Nat) (b : Bool) (p : Nat) : (s.setPoison ln b).lp p = s.lp p := State.lp_of (State.setPoison_lps s ln b)
@[simp] theorem State.setPart_lp_eq (i : Nat) (x : PartSt) (p : Nat) : (s.setPart i x).lp p = s.lp p := State.lp_of (State.setPart_lps s i x)
@[simp] theorem State.setLane_lp_eq (i : Nat) (x : LaneSt) (p : Nat) : (s.setLane i x).lp p = s.lp p := State.lp_of (State.setLane_lps s i x)
@[simp] theorem State.setStream_lp_eq (i : Nat) (x : StreamSt) (p : Nat) : (s.setStream i x).lp p = s.lp p := State.lp_of (State.setStream_lps s i x)
@[simp] theorem State.setEng_lp_eq (i : Nat) (x : EngSt) (p : Nat) : (s.setEng i x).lp p = s.lp p := State.lp_of (State.setEng_lps s i x)
@[simp] theorem State.setSub_lp_eq (i : Nat) (x : SubSt) (p : Nat) : (s.setSub i x).lp p = s.lp p := State.lp_of (State.setSub_lps s i x)
@[simp] theorem State.setCore_lp_eq (i : Nat) (x : CoreSt) (p : Nat) : (s.setCore i x).lp p = s.lp p := State.lp_of (State.setCore_lps s i x)
@[simp] theorem State.setCluster_lp_eq (i : Nat) (x : ClusterSt) (p : Nat) : (s.setCluster i x).lp p = s.lp p := State.lp_of (State.setCluster_lps s i x)
@[simp] theorem State.setDom_lp_eq (i : Nat) (x : DomSt) (p : Nat) : (s.setDom i x).lp p = s.lp p := State.lp_of (State.setDom_lps s i x)
@[simp] theorem State.setSlice_lp_eq (n k : Nat) (x : SliceRec) (p : Nat) : (s.setSlice n k x).lp p = s.lp p := State.lp_of (State.setSlice_lps s n k x)
@[simp] theorem State.withPending_dom_eq (x) (p : Nat) : (s.withPending x).dom p = s.dom p := State.dom_of (State.withPending_doms s x)
@[simp] theorem State.withFree_dom_eq (x) (p : Nat) : (s.withFree x).dom p = s.dom p := State.dom_of (State.withFree_doms s x)
@[simp] theorem State.withRegs_dom_eq (x) (p : Nat) : (s.withRegs x).dom p = s.dom p := State.dom_of (State.withRegs_doms s x)
@[simp] theorem State.withHbm_dom_eq (x) (p : Nat) : (s.withHbm x).dom p = s.dom p := State.dom_of (State.withHbm_doms s x)
@[simp] theorem State.withPoison_dom_eq (x) (p : Nat) : (s.withPoison x).dom p = s.dom p := State.dom_of (State.withPoison_doms s x)
@[simp] theorem State.withOuts_dom_eq (x) (p : Nat) : (s.withOuts x).dom p = s.dom p := State.dom_of (State.withOuts_doms s x)
@[simp] theorem State.withHold_dom_eq (x) (p : Nat) : (s.withHold x).dom p = s.dom p := State.dom_of (State.withHold_doms s x)
@[simp] theorem State.withPor_dom_eq (x) (p : Nat) : (s.withPor x).dom p = s.dom p := State.dom_of (State.withPor_doms s x)
@[simp] theorem State.withTime_dom_eq (x) (p : Nat) : (s.withTime x).dom p = s.dom p := State.dom_of (State.withTime_doms s x)
@[simp] theorem State.withStreams_dom_eq (x) (p : Nat) : (s.withStreams x).dom p = s.dom p := State.dom_of (State.withStreams_doms s x)
@[simp] theorem State.withEngines_dom_eq (x) (p : Nat) : (s.withEngines x).dom p = s.dom p := State.dom_of (State.withEngines_doms s x)
@[simp] theorem State.withSubs_dom_eq (x) (p : Nat) : (s.withSubs x).dom p = s.dom p := State.dom_of (State.withSubs_doms s x)
@[simp] theorem State.withFabric_dom_eq (x) (p : Nat) : (s.withFabric x).dom p = s.dom p := State.dom_of (State.withFabric_doms s x)
@[simp] theorem State.withPins_dom_eq (x) (p : Nat) : (s.withPins x).dom p = s.dom p := State.dom_of (State.withPins_doms s x)
@[simp] theorem State.withLanes_dom_eq (x) (p : Nat) : (s.withLanes x).dom p = s.dom p := State.dom_of (State.withLanes_doms s x)
@[simp] theorem State.withSwcmd_dom_eq (x) (p : Nat) : (s.withSwcmd x).dom p = s.dom p := State.dom_of (State.withSwcmd_doms s x)
@[simp] theorem State.withChan_dom_eq (x) (p : Nat) : (s.withChan x).dom p = s.dom p := State.dom_of (State.withChan_doms s x)
@[simp] theorem State.withCores_dom_eq (x) (p : Nat) : (s.withCores x).dom p = s.dom p := State.dom_of (State.withCores_doms s x)
@[simp] theorem State.withClusters_dom_eq (x) (p : Nat) : (s.withClusters x).dom p = s.dom p := State.dom_of (State.withClusters_doms s x)
@[simp] theorem State.withTaken_dom_eq (x) (p : Nat) : (s.withTaken x).dom p = s.dom p := State.dom_of (State.withTaken_doms s x)
@[simp] theorem State.withMgmt_dom_eq (x) (p : Nat) : (s.withMgmt x).dom p = s.dom p := State.dom_of (State.withMgmt_doms s x)
@[simp] theorem State.withPf_dom_eq (x) (p : Nat) : (s.withPf x).dom p = s.dom p := State.dom_of (State.withPf_doms s x)
@[simp] theorem State.withParts_dom_eq (x) (p : Nat) : (s.withParts x).dom p = s.dom p := State.dom_of (State.withParts_doms s x)
@[simp] theorem State.withOwners_dom_eq (x) (p : Nat) : (s.withOwners x).dom p = s.dom p := State.dom_of (State.withOwners_doms s x)
@[simp] theorem State.withCreq_dom_eq (x) (p : Nat) : (s.withCreq x).dom p = s.dom p := State.dom_of (State.withCreq_doms s x)
@[simp] theorem State.withLps_dom_eq (x) (p : Nat) : (s.withLps x).dom p = s.dom p := State.dom_of (State.withLps_doms s x)
@[simp] theorem State.withNvs_dom_eq (x) (p : Nat) : (s.withNvs x).dom p = s.dom p := State.dom_of (State.withNvs_doms s x)
@[simp] theorem State.withTest_dom_eq (x) (p : Nat) : (s.withTest x).dom p = s.dom p := State.dom_of (State.withTest_doms s x)
@[simp] theorem State.withAges_dom_eq (x) (p : Nat) : (s.withAges x).dom p = s.dom p := State.dom_of (State.withAges_doms s x)
@[simp] theorem State.withReadout_dom_eq (x) (p : Nat) : (s.withReadout x).dom p = s.dom p := State.dom_of (State.withReadout_doms s x)
@[simp] theorem State.withSec_dom_eq (x) (p : Nat) : (s.withSec x).dom p = s.dom p := State.dom_of (State.withSec_doms s x)
@[simp] theorem State.withArb_dom_eq (x) (p : Nat) : (s.withArb x).dom p = s.dom p := State.dom_of (State.withArb_doms s x)
@[simp] theorem State.withJtag_dom_eq (x) (p : Nat) : (s.withJtag x).dom p = s.dom p := State.dom_of (State.withJtag_doms s x)
@[simp] theorem State.wr_dom_eq (o v : Nat) (p : Nat) : (s.wr o v).dom p = s.dom p := State.dom_of (State.wr_doms s o v)
@[simp] theorem State.fset_dom_eq (o l w v : Nat) (p : Nat) : (s.fset o l w v).dom p = s.dom p := State.dom_of (State.fset_doms s o l w v)
@[simp] theorem State.count_dom_eq (o n : Nat) (p : Nat) : (s.count o n).dom p = s.dom p := State.dom_of (State.count_doms s o n)
@[simp] theorem State.wr64_dom_eq (o v : Nat) (p : Nat) : (s.wr64 o v).dom p = s.dom p := State.dom_of (State.wr64_doms s o v)
@[simp] theorem State.countWrap_dom_eq (o n : Nat) (p : Nat) : (s.countWrap o n).dom p = s.dom p := State.dom_of (State.countWrap_doms s o n)
@[simp] theorem State.count64_dom_eq (o n : Nat) (p : Nat) : (s.count64 o n).dom p = s.dom p := State.dom_of (State.count64_doms s o n)
@[simp] theorem State.resetRegs_dom_eq (l h : Nat) (p : Nat) : (s.resetRegs l h).dom p = s.dom p := State.dom_of (State.resetRegs_doms s l h)
@[simp] theorem State.emit_dom_eq (x : Out) (p : Nat) : (s.emit x).dom p = s.dom p := State.dom_of (State.emit_doms s x)
@[simp] theorem State.hbmPut_dom_eq (a : Nat) (b : Byte) (p : Nat) : (s.hbmPut a b).dom p = s.dom p := State.dom_of (State.hbmPut_doms s a b)
@[simp] theorem State.hbmZero_dom_eq (a n : Nat) (p : Nat) : (s.hbmZero a n).dom p = s.dom p := State.dom_of (State.hbmZero_doms s a n)
@[simp] theorem State.setPoison_dom_eq (ln : Nat) (b : Bool) (p : Nat) : (s.setPoison ln b).dom p = s.dom p := State.dom_of (State.setPoison_doms s ln b)
@[simp] theorem State.setPart_dom_eq (i : Nat) (x : PartSt) (p : Nat) : (s.setPart i x).dom p = s.dom p := State.dom_of (State.setPart_doms s i x)
@[simp] theorem State.setLane_dom_eq (i : Nat) (x : LaneSt) (p : Nat) : (s.setLane i x).dom p = s.dom p := State.dom_of (State.setLane_doms s i x)
@[simp] theorem State.setStream_dom_eq (i : Nat) (x : StreamSt) (p : Nat) : (s.setStream i x).dom p = s.dom p := State.dom_of (State.setStream_doms s i x)
@[simp] theorem State.setEng_dom_eq (i : Nat) (x : EngSt) (p : Nat) : (s.setEng i x).dom p = s.dom p := State.dom_of (State.setEng_doms s i x)
@[simp] theorem State.setSub_dom_eq (i : Nat) (x : SubSt) (p : Nat) : (s.setSub i x).dom p = s.dom p := State.dom_of (State.setSub_doms s i x)
@[simp] theorem State.setCore_dom_eq (i : Nat) (x : CoreSt) (p : Nat) : (s.setCore i x).dom p = s.dom p := State.dom_of (State.setCore_doms s i x)
@[simp] theorem State.setCluster_dom_eq (i : Nat) (x : ClusterSt) (p : Nat) : (s.setCluster i x).dom p = s.dom p := State.dom_of (State.setCluster_doms s i x)
@[simp] theorem State.setLp_dom_eq (i : Nat) (x : LpSt) (p : Nat) : (s.setLp i x).dom p = s.dom p := State.dom_of (State.setLp_doms s i x)
@[simp] theorem State.setSlice_dom_eq (n k : Nat) (x : SliceRec) (p : Nat) : (s.setSlice n k x).dom p = s.dom p := State.dom_of (State.setSlice_doms s n k x)
@[simp] theorem State.withPending_slice_eq (x) (p q : Nat) : (s.withPending x).slice p q = s.slice p q := State.slice_of (State.withPending_streams s x)
@[simp] theorem State.withFree_slice_eq (x) (p q : Nat) : (s.withFree x).slice p q = s.slice p q := State.slice_of (State.withFree_streams s x)
@[simp] theorem State.withRegs_slice_eq (x) (p q : Nat) : (s.withRegs x).slice p q = s.slice p q := State.slice_of (State.withRegs_streams s x)
@[simp] theorem State.withHbm_slice_eq (x) (p q : Nat) : (s.withHbm x).slice p q = s.slice p q := State.slice_of (State.withHbm_streams s x)
@[simp] theorem State.withPoison_slice_eq (x) (p q : Nat) : (s.withPoison x).slice p q = s.slice p q := State.slice_of (State.withPoison_streams s x)
@[simp] theorem State.withOuts_slice_eq (x) (p q : Nat) : (s.withOuts x).slice p q = s.slice p q := State.slice_of (State.withOuts_streams s x)
@[simp] theorem State.withHold_slice_eq (x) (p q : Nat) : (s.withHold x).slice p q = s.slice p q := State.slice_of (State.withHold_streams s x)
@[simp] theorem State.withPor_slice_eq (x) (p q : Nat) : (s.withPor x).slice p q = s.slice p q := State.slice_of (State.withPor_streams s x)
@[simp] theorem State.withTime_slice_eq (x) (p q : Nat) : (s.withTime x).slice p q = s.slice p q := State.slice_of (State.withTime_streams s x)
@[simp] theorem State.withEngines_slice_eq (x) (p q : Nat) : (s.withEngines x).slice p q = s.slice p q := State.slice_of (State.withEngines_streams s x)
@[simp] theorem State.withSubs_slice_eq (x) (p q : Nat) : (s.withSubs x).slice p q = s.slice p q := State.slice_of (State.withSubs_streams s x)
@[simp] theorem State.withFabric_slice_eq (x) (p q : Nat) : (s.withFabric x).slice p q = s.slice p q := State.slice_of (State.withFabric_streams s x)
@[simp] theorem State.withPins_slice_eq (x) (p q : Nat) : (s.withPins x).slice p q = s.slice p q := State.slice_of (State.withPins_streams s x)
@[simp] theorem State.withLanes_slice_eq (x) (p q : Nat) : (s.withLanes x).slice p q = s.slice p q := State.slice_of (State.withLanes_streams s x)
@[simp] theorem State.withSwcmd_slice_eq (x) (p q : Nat) : (s.withSwcmd x).slice p q = s.slice p q := State.slice_of (State.withSwcmd_streams s x)
@[simp] theorem State.withChan_slice_eq (x) (p q : Nat) : (s.withChan x).slice p q = s.slice p q := State.slice_of (State.withChan_streams s x)
@[simp] theorem State.withCores_slice_eq (x) (p q : Nat) : (s.withCores x).slice p q = s.slice p q := State.slice_of (State.withCores_streams s x)
@[simp] theorem State.withClusters_slice_eq (x) (p q : Nat) : (s.withClusters x).slice p q = s.slice p q := State.slice_of (State.withClusters_streams s x)
@[simp] theorem State.withTaken_slice_eq (x) (p q : Nat) : (s.withTaken x).slice p q = s.slice p q := State.slice_of (State.withTaken_streams s x)
@[simp] theorem State.withMgmt_slice_eq (x) (p q : Nat) : (s.withMgmt x).slice p q = s.slice p q := State.slice_of (State.withMgmt_streams s x)
@[simp] theorem State.withPf_slice_eq (x) (p q : Nat) : (s.withPf x).slice p q = s.slice p q := State.slice_of (State.withPf_streams s x)
@[simp] theorem State.withParts_slice_eq (x) (p q : Nat) : (s.withParts x).slice p q = s.slice p q := State.slice_of (State.withParts_streams s x)
@[simp] theorem State.withOwners_slice_eq (x) (p q : Nat) : (s.withOwners x).slice p q = s.slice p q := State.slice_of (State.withOwners_streams s x)
@[simp] theorem State.withCreq_slice_eq (x) (p q : Nat) : (s.withCreq x).slice p q = s.slice p q := State.slice_of (State.withCreq_streams s x)
@[simp] theorem State.withLps_slice_eq (x) (p q : Nat) : (s.withLps x).slice p q = s.slice p q := State.slice_of (State.withLps_streams s x)
@[simp] theorem State.withDoms_slice_eq (x) (p q : Nat) : (s.withDoms x).slice p q = s.slice p q := State.slice_of (State.withDoms_streams s x)
@[simp] theorem State.withNvs_slice_eq (x) (p q : Nat) : (s.withNvs x).slice p q = s.slice p q := State.slice_of (State.withNvs_streams s x)
@[simp] theorem State.withTest_slice_eq (x) (p q : Nat) : (s.withTest x).slice p q = s.slice p q := State.slice_of (State.withTest_streams s x)
@[simp] theorem State.withAges_slice_eq (x) (p q : Nat) : (s.withAges x).slice p q = s.slice p q := State.slice_of (State.withAges_streams s x)
@[simp] theorem State.withReadout_slice_eq (x) (p q : Nat) : (s.withReadout x).slice p q = s.slice p q := State.slice_of (State.withReadout_streams s x)
@[simp] theorem State.withSec_slice_eq (x) (p q : Nat) : (s.withSec x).slice p q = s.slice p q := State.slice_of (State.withSec_streams s x)
@[simp] theorem State.withArb_slice_eq (x) (p q : Nat) : (s.withArb x).slice p q = s.slice p q := State.slice_of (State.withArb_streams s x)
@[simp] theorem State.withJtag_slice_eq (x) (p q : Nat) : (s.withJtag x).slice p q = s.slice p q := State.slice_of (State.withJtag_streams s x)
@[simp] theorem State.wr_slice_eq (o v : Nat) (p q : Nat) : (s.wr o v).slice p q = s.slice p q := State.slice_of (State.wr_streams s o v)
@[simp] theorem State.fset_slice_eq (o l w v : Nat) (p q : Nat) : (s.fset o l w v).slice p q = s.slice p q := State.slice_of (State.fset_streams s o l w v)
@[simp] theorem State.count_slice_eq (o n : Nat) (p q : Nat) : (s.count o n).slice p q = s.slice p q := State.slice_of (State.count_streams s o n)
@[simp] theorem State.wr64_slice_eq (o v : Nat) (p q : Nat) : (s.wr64 o v).slice p q = s.slice p q := State.slice_of (State.wr64_streams s o v)
@[simp] theorem State.countWrap_slice_eq (o n : Nat) (p q : Nat) : (s.countWrap o n).slice p q = s.slice p q := State.slice_of (State.countWrap_streams s o n)
@[simp] theorem State.count64_slice_eq (o n : Nat) (p q : Nat) : (s.count64 o n).slice p q = s.slice p q := State.slice_of (State.count64_streams s o n)
@[simp] theorem State.resetRegs_slice_eq (l h : Nat) (p q : Nat) : (s.resetRegs l h).slice p q = s.slice p q := State.slice_of (State.resetRegs_streams s l h)
@[simp] theorem State.emit_slice_eq (x : Out) (p q : Nat) : (s.emit x).slice p q = s.slice p q := State.slice_of (State.emit_streams s x)
@[simp] theorem State.hbmPut_slice_eq (a : Nat) (b : Byte) (p q : Nat) : (s.hbmPut a b).slice p q = s.slice p q := State.slice_of (State.hbmPut_streams s a b)
@[simp] theorem State.hbmZero_slice_eq (a n : Nat) (p q : Nat) : (s.hbmZero a n).slice p q = s.slice p q := State.slice_of (State.hbmZero_streams s a n)
@[simp] theorem State.setPoison_slice_eq (ln : Nat) (b : Bool) (p q : Nat) : (s.setPoison ln b).slice p q = s.slice p q := State.slice_of (State.setPoison_streams s ln b)
@[simp] theorem State.setPart_slice_eq (i : Nat) (x : PartSt) (p q : Nat) : (s.setPart i x).slice p q = s.slice p q := State.slice_of (State.setPart_streams s i x)
@[simp] theorem State.setLane_slice_eq (i : Nat) (x : LaneSt) (p q : Nat) : (s.setLane i x).slice p q = s.slice p q := State.slice_of (State.setLane_streams s i x)
@[simp] theorem State.setEng_slice_eq (i : Nat) (x : EngSt) (p q : Nat) : (s.setEng i x).slice p q = s.slice p q := State.slice_of (State.setEng_streams s i x)
@[simp] theorem State.setSub_slice_eq (i : Nat) (x : SubSt) (p q : Nat) : (s.setSub i x).slice p q = s.slice p q := State.slice_of (State.setSub_streams s i x)
@[simp] theorem State.setCore_slice_eq (i : Nat) (x : CoreSt) (p q : Nat) : (s.setCore i x).slice p q = s.slice p q := State.slice_of (State.setCore_streams s i x)
@[simp] theorem State.setCluster_slice_eq (i : Nat) (x : ClusterSt) (p q : Nat) : (s.setCluster i x).slice p q = s.slice p q := State.slice_of (State.setCluster_streams s i x)
@[simp] theorem State.setLp_slice_eq (i : Nat) (x : LpSt) (p q : Nat) : (s.setLp i x).slice p q = s.slice p q := State.slice_of (State.setLp_streams s i x)
@[simp] theorem State.setDom_slice_eq (i : Nat) (x : DomSt) (p q : Nat) : (s.setDom i x).slice p q = s.slice p q := State.slice_of (State.setDom_streams s i x)
@[simp] theorem State.withPending_pstate_eq (x) (p : Nat) : (s.withPending x).pstate p = s.pstate p := State.pstate_of (State.withPending_regs s x)
@[simp] theorem State.withFree_pstate_eq (x) (p : Nat) : (s.withFree x).pstate p = s.pstate p := State.pstate_of (State.withFree_regs s x)
@[simp] theorem State.withHbm_pstate_eq (x) (p : Nat) : (s.withHbm x).pstate p = s.pstate p := State.pstate_of (State.withHbm_regs s x)
@[simp] theorem State.withPoison_pstate_eq (x) (p : Nat) : (s.withPoison x).pstate p = s.pstate p := State.pstate_of (State.withPoison_regs s x)
@[simp] theorem State.withOuts_pstate_eq (x) (p : Nat) : (s.withOuts x).pstate p = s.pstate p := State.pstate_of (State.withOuts_regs s x)
@[simp] theorem State.withHold_pstate_eq (x) (p : Nat) : (s.withHold x).pstate p = s.pstate p := State.pstate_of (State.withHold_regs s x)
@[simp] theorem State.withPor_pstate_eq (x) (p : Nat) : (s.withPor x).pstate p = s.pstate p := State.pstate_of (State.withPor_regs s x)
@[simp] theorem State.withTime_pstate_eq (x) (p : Nat) : (s.withTime x).pstate p = s.pstate p := State.pstate_of (State.withTime_regs s x)
@[simp] theorem State.withStreams_pstate_eq (x) (p : Nat) : (s.withStreams x).pstate p = s.pstate p := State.pstate_of (State.withStreams_regs s x)
@[simp] theorem State.withEngines_pstate_eq (x) (p : Nat) : (s.withEngines x).pstate p = s.pstate p := State.pstate_of (State.withEngines_regs s x)
@[simp] theorem State.withSubs_pstate_eq (x) (p : Nat) : (s.withSubs x).pstate p = s.pstate p := State.pstate_of (State.withSubs_regs s x)
@[simp] theorem State.withFabric_pstate_eq (x) (p : Nat) : (s.withFabric x).pstate p = s.pstate p := State.pstate_of (State.withFabric_regs s x)
@[simp] theorem State.withPins_pstate_eq (x) (p : Nat) : (s.withPins x).pstate p = s.pstate p := State.pstate_of (State.withPins_regs s x)
@[simp] theorem State.withLanes_pstate_eq (x) (p : Nat) : (s.withLanes x).pstate p = s.pstate p := State.pstate_of (State.withLanes_regs s x)
@[simp] theorem State.withSwcmd_pstate_eq (x) (p : Nat) : (s.withSwcmd x).pstate p = s.pstate p := State.pstate_of (State.withSwcmd_regs s x)
@[simp] theorem State.withChan_pstate_eq (x) (p : Nat) : (s.withChan x).pstate p = s.pstate p := State.pstate_of (State.withChan_regs s x)
@[simp] theorem State.withCores_pstate_eq (x) (p : Nat) : (s.withCores x).pstate p = s.pstate p := State.pstate_of (State.withCores_regs s x)
@[simp] theorem State.withClusters_pstate_eq (x) (p : Nat) : (s.withClusters x).pstate p = s.pstate p := State.pstate_of (State.withClusters_regs s x)
@[simp] theorem State.withTaken_pstate_eq (x) (p : Nat) : (s.withTaken x).pstate p = s.pstate p := State.pstate_of (State.withTaken_regs s x)
@[simp] theorem State.withMgmt_pstate_eq (x) (p : Nat) : (s.withMgmt x).pstate p = s.pstate p := State.pstate_of (State.withMgmt_regs s x)
@[simp] theorem State.withPf_pstate_eq (x) (p : Nat) : (s.withPf x).pstate p = s.pstate p := State.pstate_of (State.withPf_regs s x)
@[simp] theorem State.withParts_pstate_eq (x) (p : Nat) : (s.withParts x).pstate p = s.pstate p := State.pstate_of (State.withParts_regs s x)
@[simp] theorem State.withOwners_pstate_eq (x) (p : Nat) : (s.withOwners x).pstate p = s.pstate p := State.pstate_of (State.withOwners_regs s x)
@[simp] theorem State.withCreq_pstate_eq (x) (p : Nat) : (s.withCreq x).pstate p = s.pstate p := State.pstate_of (State.withCreq_regs s x)
@[simp] theorem State.withLps_pstate_eq (x) (p : Nat) : (s.withLps x).pstate p = s.pstate p := State.pstate_of (State.withLps_regs s x)
@[simp] theorem State.withDoms_pstate_eq (x) (p : Nat) : (s.withDoms x).pstate p = s.pstate p := State.pstate_of (State.withDoms_regs s x)
@[simp] theorem State.withNvs_pstate_eq (x) (p : Nat) : (s.withNvs x).pstate p = s.pstate p := State.pstate_of (State.withNvs_regs s x)
@[simp] theorem State.withTest_pstate_eq (x) (p : Nat) : (s.withTest x).pstate p = s.pstate p := State.pstate_of (State.withTest_regs s x)
@[simp] theorem State.withAges_pstate_eq (x) (p : Nat) : (s.withAges x).pstate p = s.pstate p := State.pstate_of (State.withAges_regs s x)
@[simp] theorem State.withReadout_pstate_eq (x) (p : Nat) : (s.withReadout x).pstate p = s.pstate p := State.pstate_of (State.withReadout_regs s x)
@[simp] theorem State.withSec_pstate_eq (x) (p : Nat) : (s.withSec x).pstate p = s.pstate p := State.pstate_of (State.withSec_regs s x)
@[simp] theorem State.withArb_pstate_eq (x) (p : Nat) : (s.withArb x).pstate p = s.pstate p := State.pstate_of (State.withArb_regs s x)
@[simp] theorem State.withJtag_pstate_eq (x) (p : Nat) : (s.withJtag x).pstate p = s.pstate p := State.pstate_of (State.withJtag_regs s x)
@[simp] theorem State.emit_pstate_eq (x : Out) (p : Nat) : (s.emit x).pstate p = s.pstate p := State.pstate_of (State.emit_regs s x)
@[simp] theorem State.hbmPut_pstate_eq (a : Nat) (b : Byte) (p : Nat) : (s.hbmPut a b).pstate p = s.pstate p := State.pstate_of (State.hbmPut_regs s a b)
@[simp] theorem State.hbmZero_pstate_eq (a n : Nat) (p : Nat) : (s.hbmZero a n).pstate p = s.pstate p := State.pstate_of (State.hbmZero_regs s a n)
@[simp] theorem State.setPoison_pstate_eq (ln : Nat) (b : Bool) (p : Nat) : (s.setPoison ln b).pstate p = s.pstate p := State.pstate_of (State.setPoison_regs s ln b)
@[simp] theorem State.setPart_pstate_eq (i : Nat) (x : PartSt) (p : Nat) : (s.setPart i x).pstate p = s.pstate p := State.pstate_of (State.setPart_regs s i x)
@[simp] theorem State.setLane_pstate_eq (i : Nat) (x : LaneSt) (p : Nat) : (s.setLane i x).pstate p = s.pstate p := State.pstate_of (State.setLane_regs s i x)
@[simp] theorem State.setStream_pstate_eq (i : Nat) (x : StreamSt) (p : Nat) : (s.setStream i x).pstate p = s.pstate p := State.pstate_of (State.setStream_regs s i x)
@[simp] theorem State.setEng_pstate_eq (i : Nat) (x : EngSt) (p : Nat) : (s.setEng i x).pstate p = s.pstate p := State.pstate_of (State.setEng_regs s i x)
@[simp] theorem State.setSub_pstate_eq (i : Nat) (x : SubSt) (p : Nat) : (s.setSub i x).pstate p = s.pstate p := State.pstate_of (State.setSub_regs s i x)
@[simp] theorem State.setCore_pstate_eq (i : Nat) (x : CoreSt) (p : Nat) : (s.setCore i x).pstate p = s.pstate p := State.pstate_of (State.setCore_regs s i x)
@[simp] theorem State.setCluster_pstate_eq (i : Nat) (x : ClusterSt) (p : Nat) : (s.setCluster i x).pstate p = s.pstate p := State.pstate_of (State.setCluster_regs s i x)
@[simp] theorem State.setLp_pstate_eq (i : Nat) (x : LpSt) (p : Nat) : (s.setLp i x).pstate p = s.pstate p := State.pstate_of (State.setLp_regs s i x)
@[simp] theorem State.setDom_pstate_eq (i : Nat) (x : DomSt) (p : Nat) : (s.setDom i x).pstate p = s.pstate p := State.pstate_of (State.setDom_regs s i x)
@[simp] theorem State.setSlice_pstate_eq (n k : Nat) (x : SliceRec) (p : Nat) : (s.setSlice n k x).pstate p = s.pstate p := State.pstate_of (State.setSlice_regs s n k x)
@[simp] theorem State.withPending_tstate_eq (x) : (s.withPending x).tstate = s.tstate := State.tstate_of (State.withPending_regs s x)
@[simp] theorem State.withFree_tstate_eq (x) : (s.withFree x).tstate = s.tstate := State.tstate_of (State.withFree_regs s x)
@[simp] theorem State.withHbm_tstate_eq (x) : (s.withHbm x).tstate = s.tstate := State.tstate_of (State.withHbm_regs s x)
@[simp] theorem State.withPoison_tstate_eq (x) : (s.withPoison x).tstate = s.tstate := State.tstate_of (State.withPoison_regs s x)
@[simp] theorem State.withOuts_tstate_eq (x) : (s.withOuts x).tstate = s.tstate := State.tstate_of (State.withOuts_regs s x)
@[simp] theorem State.withHold_tstate_eq (x) : (s.withHold x).tstate = s.tstate := State.tstate_of (State.withHold_regs s x)
@[simp] theorem State.withPor_tstate_eq (x) : (s.withPor x).tstate = s.tstate := State.tstate_of (State.withPor_regs s x)
@[simp] theorem State.withTime_tstate_eq (x) : (s.withTime x).tstate = s.tstate := State.tstate_of (State.withTime_regs s x)
@[simp] theorem State.withStreams_tstate_eq (x) : (s.withStreams x).tstate = s.tstate := State.tstate_of (State.withStreams_regs s x)
@[simp] theorem State.withEngines_tstate_eq (x) : (s.withEngines x).tstate = s.tstate := State.tstate_of (State.withEngines_regs s x)
@[simp] theorem State.withSubs_tstate_eq (x) : (s.withSubs x).tstate = s.tstate := State.tstate_of (State.withSubs_regs s x)
@[simp] theorem State.withFabric_tstate_eq (x) : (s.withFabric x).tstate = s.tstate := State.tstate_of (State.withFabric_regs s x)
@[simp] theorem State.withPins_tstate_eq (x) : (s.withPins x).tstate = s.tstate := State.tstate_of (State.withPins_regs s x)
@[simp] theorem State.withLanes_tstate_eq (x) : (s.withLanes x).tstate = s.tstate := State.tstate_of (State.withLanes_regs s x)
@[simp] theorem State.withSwcmd_tstate_eq (x) : (s.withSwcmd x).tstate = s.tstate := State.tstate_of (State.withSwcmd_regs s x)
@[simp] theorem State.withChan_tstate_eq (x) : (s.withChan x).tstate = s.tstate := State.tstate_of (State.withChan_regs s x)
@[simp] theorem State.withCores_tstate_eq (x) : (s.withCores x).tstate = s.tstate := State.tstate_of (State.withCores_regs s x)
@[simp] theorem State.withClusters_tstate_eq (x) : (s.withClusters x).tstate = s.tstate := State.tstate_of (State.withClusters_regs s x)
@[simp] theorem State.withTaken_tstate_eq (x) : (s.withTaken x).tstate = s.tstate := State.tstate_of (State.withTaken_regs s x)
@[simp] theorem State.withMgmt_tstate_eq (x) : (s.withMgmt x).tstate = s.tstate := State.tstate_of (State.withMgmt_regs s x)
@[simp] theorem State.withPf_tstate_eq (x) : (s.withPf x).tstate = s.tstate := State.tstate_of (State.withPf_regs s x)
@[simp] theorem State.withParts_tstate_eq (x) : (s.withParts x).tstate = s.tstate := State.tstate_of (State.withParts_regs s x)
@[simp] theorem State.withOwners_tstate_eq (x) : (s.withOwners x).tstate = s.tstate := State.tstate_of (State.withOwners_regs s x)
@[simp] theorem State.withCreq_tstate_eq (x) : (s.withCreq x).tstate = s.tstate := State.tstate_of (State.withCreq_regs s x)
@[simp] theorem State.withLps_tstate_eq (x) : (s.withLps x).tstate = s.tstate := State.tstate_of (State.withLps_regs s x)
@[simp] theorem State.withDoms_tstate_eq (x) : (s.withDoms x).tstate = s.tstate := State.tstate_of (State.withDoms_regs s x)
@[simp] theorem State.withNvs_tstate_eq (x) : (s.withNvs x).tstate = s.tstate := State.tstate_of (State.withNvs_regs s x)
@[simp] theorem State.withTest_tstate_eq (x) : (s.withTest x).tstate = s.tstate := State.tstate_of (State.withTest_regs s x)
@[simp] theorem State.withAges_tstate_eq (x) : (s.withAges x).tstate = s.tstate := State.tstate_of (State.withAges_regs s x)
@[simp] theorem State.withReadout_tstate_eq (x) : (s.withReadout x).tstate = s.tstate := State.tstate_of (State.withReadout_regs s x)
@[simp] theorem State.withSec_tstate_eq (x) : (s.withSec x).tstate = s.tstate := State.tstate_of (State.withSec_regs s x)
@[simp] theorem State.withArb_tstate_eq (x) : (s.withArb x).tstate = s.tstate := State.tstate_of (State.withArb_regs s x)
@[simp] theorem State.withJtag_tstate_eq (x) : (s.withJtag x).tstate = s.tstate := State.tstate_of (State.withJtag_regs s x)
@[simp] theorem State.emit_tstate_eq (x : Out) : (s.emit x).tstate = s.tstate := State.tstate_of (State.emit_regs s x)
@[simp] theorem State.hbmPut_tstate_eq (a : Nat) (b : Byte) : (s.hbmPut a b).tstate = s.tstate := State.tstate_of (State.hbmPut_regs s a b)
@[simp] theorem State.hbmZero_tstate_eq (a n : Nat) : (s.hbmZero a n).tstate = s.tstate := State.tstate_of (State.hbmZero_regs s a n)
@[simp] theorem State.setPoison_tstate_eq (ln : Nat) (b : Bool) : (s.setPoison ln b).tstate = s.tstate := State.tstate_of (State.setPoison_regs s ln b)
@[simp] theorem State.setPart_tstate_eq (i : Nat) (x : PartSt) : (s.setPart i x).tstate = s.tstate := State.tstate_of (State.setPart_regs s i x)
@[simp] theorem State.setLane_tstate_eq (i : Nat) (x : LaneSt) : (s.setLane i x).tstate = s.tstate := State.tstate_of (State.setLane_regs s i x)
@[simp] theorem State.setStream_tstate_eq (i : Nat) (x : StreamSt) : (s.setStream i x).tstate = s.tstate := State.tstate_of (State.setStream_regs s i x)
@[simp] theorem State.setEng_tstate_eq (i : Nat) (x : EngSt) : (s.setEng i x).tstate = s.tstate := State.tstate_of (State.setEng_regs s i x)
@[simp] theorem State.setSub_tstate_eq (i : Nat) (x : SubSt) : (s.setSub i x).tstate = s.tstate := State.tstate_of (State.setSub_regs s i x)
@[simp] theorem State.setCore_tstate_eq (i : Nat) (x : CoreSt) : (s.setCore i x).tstate = s.tstate := State.tstate_of (State.setCore_regs s i x)
@[simp] theorem State.setCluster_tstate_eq (i : Nat) (x : ClusterSt) : (s.setCluster i x).tstate = s.tstate := State.tstate_of (State.setCluster_regs s i x)
@[simp] theorem State.setLp_tstate_eq (i : Nat) (x : LpSt) : (s.setLp i x).tstate = s.tstate := State.tstate_of (State.setLp_regs s i x)
@[simp] theorem State.setDom_tstate_eq (i : Nat) (x : DomSt) : (s.setDom i x).tstate = s.tstate := State.tstate_of (State.setDom_regs s i x)
@[simp] theorem State.setSlice_tstate_eq (n k : Nat) (x : SliceRec) : (s.setSlice n k x).tstate = s.tstate := State.tstate_of (State.setSlice_regs s n k x)

end Sys2Proof.Machine
end

