-- ==== Sys2Proof/Laws/Frames.lean ====
section
/-! SUPPORT. Frames of the shared operations of Ops.lean: which fields an operation may change, as an equation between the states
with those fields blanked; and, for each other field, that it keeps it. -/

namespace Sys2Proof.Machine

/-- What every step of a fold keeps, the fold keeps. -/
theorem foldl_keeps {α β γ : Type} (p : α → γ) (f : α → β → α) (h : ∀ s x, p (f s x) = p s) (l : List β) (s : α) :
    p (l.foldl f s) = p s := by
  induction l generalizing s with
  | nil => rfl
  | cons x l ih => rw [List.foldl_cons, ih, h]

variable (s : State)

/-- The state without outs, pf. -/
def State.sansPf (s : State) : State := ((s.withOuts []).withPf {})
theorem State.sansPf_pending : s.sansPf.pending = s.pending := rfl
theorem State.sansPf_free : s.sansPf.free = s.free := rfl
theorem State.sansPf_regs : s.sansPf.regs = s.regs := rfl
theorem State.sansPf_hbm : s.sansPf.hbm = s.hbm := rfl
theorem State.sansPf_poison : s.sansPf.poison = s.poison := rfl
theorem State.sansPf_hold : s.sansPf.hold = s.hold := rfl
theorem State.sansPf_por : s.sansPf.por = s.por := rfl
theorem State.sansPf_time : s.sansPf.time = s.time := rfl
theorem State.sansPf_streams : s.sansPf.streams = s.streams := rfl
theorem State.sansPf_engines : s.sansPf.engines = s.engines := rfl
theorem State.sansPf_subs : s.sansPf.subs = s.subs := rfl
theorem State.sansPf_fabric : s.sansPf.fabric = s.fabric := rfl
theorem State.sansPf_pins : s.sansPf.pins = s.pins := rfl
theorem State.sansPf_lanes : s.sansPf.lanes = s.lanes := rfl
theorem State.sansPf_swcmd : s.sansPf.swcmd = s.swcmd := rfl
theorem State.sansPf_chan : s.sansPf.chan = s.chan := rfl
theorem State.sansPf_cores : s.sansPf.cores = s.cores := rfl
theorem State.sansPf_clusters : s.sansPf.clusters = s.clusters := rfl
theorem State.sansPf_taken : s.sansPf.taken = s.taken := rfl
theorem State.sansPf_mgmt : s.sansPf.mgmt = s.mgmt := rfl
theorem State.sansPf_parts : s.sansPf.parts = s.parts := rfl
theorem State.sansPf_owners : s.sansPf.owners = s.owners := rfl
theorem State.sansPf_creq : s.sansPf.creq = s.creq := rfl
theorem State.sansPf_lps : s.sansPf.lps = s.lps := rfl
theorem State.sansPf_doms : s.sansPf.doms = s.doms := rfl
theorem State.sansPf_nvs : s.sansPf.nvs = s.nvs := rfl
theorem State.sansPf_test : s.sansPf.test = s.test := rfl
theorem State.sansPf_ages : s.sansPf.ages = s.ages := rfl
theorem State.sansPf_readout : s.sansPf.readout = s.readout := rfl
theorem State.sansPf_sec : s.sansPf.sec = s.sec := rfl
theorem State.sansPf_arb : s.sansPf.arb = s.arb := rfl
theorem State.sansPf_jtag : s.sansPf.jtag = s.jtag := rfl
theorem State.withOuts_sansPf (x) : (s.withOuts x).sansPf = s.sansPf := rfl
theorem State.withPf_sansPf (x) : (s.withPf x).sansPf = s.sansPf := rfl
theorem State.emit_sansPf (x : Out) : (s.emit x).sansPf = s.sansPf := State.withOuts_sansPf _ _
/-- The state without outs, pf, regs. -/
def State.sansEvent (s : State) : State := (s.sansPf.withRegs [])
theorem State.sansEvent_pending : s.sansEvent.pending = s.pending := rfl
theorem State.sansEvent_free : s.sansEvent.free = s.free := rfl
theorem State.sansEvent_hbm : s.sansEvent.hbm = s.hbm := rfl
theorem State.sansEvent_poison : s.sansEvent.poison = s.poison := rfl
theorem State.sansEvent_hold : s.sansEvent.hold = s.hold := rfl
theorem State.sansEvent_por : s.sansEvent.por = s.por := rfl
theorem State.sansEvent_time : s.sansEvent.time = s.time := rfl
theorem State.sansEvent_streams : s.sansEvent.streams = s.streams := rfl
theorem State.sansEvent_engines : s.sansEvent.engines = s.engines := rfl
theorem State.sansEvent_subs : s.sansEvent.subs = s.subs := rfl
theorem State.sansEvent_fabric : s.sansEvent.fabric = s.fabric := rfl
theorem State.sansEvent_pins : s.sansEvent.pins = s.pins := rfl
theorem State.sansEvent_lanes : s.sansEvent.lanes = s.lanes := rfl
theorem State.sansEvent_swcmd : s.sansEvent.swcmd = s.swcmd := rfl
theorem State.sansEvent_chan : s.sansEvent.chan = s.chan := rfl
theorem State.sansEvent_cores : s.sansEvent.cores = s.cores := rfl
theorem State.sansEvent_clusters : s.sansEvent.clusters = s.clusters := rfl
theorem State.sansEvent_taken : s.sansEvent.taken = s.taken := rfl
theorem State.sansEvent_mgmt : s.sansEvent.mgmt = s.mgmt := rfl
theorem State.sansEvent_parts : s.sansEvent.parts = s.parts := rfl
theorem State.sansEvent_owners : s.sansEvent.owners = s.owners := rfl
theorem State.sansEvent_creq : s.sansEvent.creq = s.creq := rfl
theorem State.sansEvent_lps : s.sansEvent.lps = s.lps := rfl
theorem State.sansEvent_doms : s.sansEvent.doms = s.doms := rfl
theorem State.sansEvent_nvs : s.sansEvent.nvs = s.nvs := rfl
theorem State.sansEvent_test : s.sansEvent.test = s.test := rfl
theorem State.sansEvent_ages : s.sansEvent.ages = s.ages := rfl
theorem State.sansEvent_readout : s.sansEvent.readout = s.readout := rfl
theorem State.sansEvent_sec : s.sansEvent.sec = s.sec := rfl
theorem State.sansEvent_arb : s.sansEvent.arb = s.arb := rfl
theorem State.sansEvent_jtag : s.sansEvent.jtag = s.jtag := rfl
theorem State.withOuts_sansEvent (x) : (s.withOuts x).sansEvent = s.sansEvent := rfl
theorem State.withPf_sansEvent (x) : (s.withPf x).sansEvent = s.sansEvent := rfl
theorem State.withRegs_sansEvent (x) : (s.withRegs x).sansEvent = s.sansEvent := rfl
theorem State.wr_sansEvent (o v : Nat) : (s.wr o v).sansEvent = s.sansEvent := State.withRegs_sansEvent _ _
theorem State.fset_sansEvent (o l w v : Nat) : (s.fset o l w v).sansEvent = s.sansEvent := State.wr_sansEvent _ _ _
theorem State.count_sansEvent (o n : Nat) : (s.count o n).sansEvent = s.sansEvent := State.wr_sansEvent _ _ _
theorem State.wr64_sansEvent (o v : Nat) : (s.wr64 o v).sansEvent = s.sansEvent := (State.wr_sansEvent _ _ _).trans (State.wr_sansEvent _ _ _)
theorem State.count64_sansEvent (o n : Nat) : (s.count64 o n).sansEvent = s.sansEvent := State.wr64_sansEvent _ _ _
theorem State.emit_sansEvent (x : Out) : (s.emit x).sansEvent = s.sansEvent := State.withOuts_sansEvent _ _
theorem State.sansEvent_of {s t : State} (h : t.sansPf = s.sansPf) : t.sansEvent = s.sansEvent := congrArg (fun x : State => (x.withRegs [])) h
/-- The state without outs, pf, regs, mgmt. -/
def State.sansLog (s : State) : State := (s.sansEvent.withMgmt {})
theorem State.sansLog_pending : s.sansLog.pending = s.pending := rfl
theorem State.sansLog_free : s.sansLog.free = s.free := rfl
theorem State.sansLog_hbm : s.sansLog.hbm = s.hbm := rfl
theorem State.sansLog_poison : s.sansLog.poison = s.poison := rfl
theorem State.sansLog_hold : s.sansLog.hold = s.hold := rfl
theorem State.sansLog_por : s.sansLog.por = s.por := rfl
theorem State.sansLog_time : s.sansLog.time = s.time := rfl
theorem State.sansLog_streams : s.sansLog.streams = s.streams := rfl
theorem State.sansLog_engines : s.sansLog.engines = s.engines := rfl
theorem State.sansLog_subs : s.sansLog.subs = s.subs := rfl
theorem State.sansLog_fabric : s.sansLog.fabric = s.fabric := rfl
theorem State.sansLog_pins : s.sansLog.pins = s.pins := rfl
theorem State.sansLog_lanes : s.sansLog.lanes = s.lanes := rfl
theorem State.sansLog_swcmd : s.sansLog.swcmd = s.swcmd := rfl
theorem State.sansLog_chan : s.sansLog.chan = s.chan := rfl
theorem State.sansLog_cores : s.sansLog.cores = s.cores := rfl
theorem State.sansLog_clusters : s.sansLog.clusters = s.clusters := rfl
theorem State.sansLog_taken : s.sansLog.taken = s.taken := rfl
theorem State.sansLog_parts : s.sansLog.parts = s.parts := rfl
theorem State.sansLog_owners : s.sansLog.owners = s.owners := rfl
theorem State.sansLog_creq : s.sansLog.creq = s.creq := rfl
theorem State.sansLog_lps : s.sansLog.lps = s.lps := rfl
theorem State.sansLog_doms : s.sansLog.doms = s.doms := rfl
theorem State.sansLog_nvs : s.sansLog.nvs = s.nvs := rfl
theorem State.sansLog_test : s.sansLog.test = s.test := rfl
theorem State.sansLog_ages : s.sansLog.ages = s.ages := rfl
theorem State.sansLog_readout : s.sansLog.readout = s.readout := rfl
theorem State.sansLog_sec : s.sansLog.sec = s.sec := rfl
theorem State.sansLog_arb : s.sansLog.arb = s.arb := rfl
theorem State.sansLog_jtag : s.sansLog.jtag = s.jtag := rfl
theorem State.withOuts_sansLog (x) : (s.withOuts x).sansLog = s.sansLog := rfl
theorem State.withPf_sansLog (x) : (s.withPf x).sansLog = s.sansLog := rfl
theorem State.withRegs_sansLog (x) : (s.withRegs x).sansLog = s.sansLog := rfl
theorem State.withMgmt_sansLog (x) : (s.withMgmt x).sansLog = s.sansLog := rfl
theorem State.wr_sansLog (o v : Nat) : (s.wr o v).sansLog = s.sansLog := State.withRegs_sansLog _ _
theorem State.fset_sansLog (o l w v : Nat) : (s.fset o l w v).sansLog = s.sansLog := State.wr_sansLog _ _ _
theorem State.count_sansLog (o n : Nat) : (s.count o n).sansLog = s.sansLog := State.wr_sansLog _ _ _
theorem State.wr64_sansLog (o v : Nat) : (s.wr64 o v).sansLog = s.sansLog := (State.wr_sansLog _ _ _).trans (State.wr_sansLog _ _ _)
theorem State.count64_sansLog (o n : Nat) : (s.count64 o n).sansLog = s.sansLog := State.wr64_sansLog _ _ _
theorem State.emit_sansLog (x : Out) : (s.emit x).sansLog = s.sansLog := State.withOuts_sansLog _ _
theorem State.sansLog_of {s t : State} (h : t.sansEvent = s.sansEvent) : t.sansLog = s.sansLog := congrArg (fun x : State => (x.withMgmt {})) h
/-- The state without outs, pf, regs, mgmt, nvs. -/
def State.sansRetire (s : State) : State := (s.sansLog.withNvs {})
theorem State.sansRetire_pending : s.sansRetire.pending = s.pending := rfl
theorem State.sansRetire_free : s.sansRetire.free = s.free := rfl
theorem State.sansRetire_hbm : s.sansRetire.hbm = s.hbm := rfl
theorem State.sansRetire_poison : s.sansRetire.poison = s.poison := rfl
theorem State.sansRetire_hold : s.sansRetire.hold = s.hold := rfl
theorem State.sansRetire_por : s.sansRetire.por = s.por := rfl
theorem State.sansRetire_time : s.sansRetire.time = s.time := rfl
theorem State.sansRetire_streams : s.sansRetire.streams = s.streams := rfl
theorem State.sansRetire_engines : s.sansRetire.engines = s.engines := rfl
theorem State.sansRetire_subs : s.sansRetire.subs = s.subs := rfl
theorem State.sansRetire_fabric : s.sansRetire.fabric = s.fabric := rfl
theorem State.sansRetire_pins : s.sansRetire.pins = s.pins := rfl
theorem State.sansRetire_lanes : s.sansRetire.lanes = s.lanes := rfl
theorem State.sansRetire_swcmd : s.sansRetire.swcmd = s.swcmd := rfl
theorem State.sansRetire_chan : s.sansRetire.chan = s.chan := rfl
theorem State.sansRetire_cores : s.sansRetire.cores = s.cores := rfl
theorem State.sansRetire_clusters : s.sansRetire.clusters = s.clusters := rfl
theorem State.sansRetire_taken : s.sansRetire.taken = s.taken := rfl
theorem State.sansRetire_parts : s.sansRetire.parts = s.parts := rfl
theorem State.sansRetire_owners : s.sansRetire.owners = s.owners := rfl
theorem State.sansRetire_creq : s.sansRetire.creq = s.creq := rfl
theorem State.sansRetire_lps : s.sansRetire.lps = s.lps := rfl
theorem State.sansRetire_doms : s.sansRetire.doms = s.doms := rfl
theorem State.sansRetire_test : s.sansRetire.test = s.test := rfl
theorem State.sansRetire_ages : s.sansRetire.ages = s.ages := rfl
theorem State.sansRetire_readout : s.sansRetire.readout = s.readout := rfl
theorem State.sansRetire_sec : s.sansRetire.sec = s.sec := rfl
theorem State.sansRetire_arb : s.sansRetire.arb = s.arb := rfl
theorem State.sansRetire_jtag : s.sansRetire.jtag = s.jtag := rfl
theorem State.withOuts_sansRetire (x) : (s.withOuts x).sansRetire = s.sansRetire := rfl
theorem State.withPf_sansRetire (x) : (s.withPf x).sansRetire = s.sansRetire := rfl
theorem State.withRegs_sansRetire (x) : (s.withRegs x).sansRetire = s.sansRetire := rfl
theorem State.withMgmt_sansRetire (x) : (s.withMgmt x).sansRetire = s.sansRetire := rfl
theorem State.withNvs_sansRetire (x) : (s.withNvs x).sansRetire = s.sansRetire := rfl
theorem State.wr_sansRetire (o v : Nat) : (s.wr o v).sansRetire = s.sansRetire := State.withRegs_sansRetire _ _
theorem State.fset_sansRetire (o l w v : Nat) : (s.fset o l w v).sansRetire = s.sansRetire := State.wr_sansRetire _ _ _
theorem State.count_sansRetire (o n : Nat) : (s.count o n).sansRetire = s.sansRetire := State.wr_sansRetire _ _ _
theorem State.wr64_sansRetire (o v : Nat) : (s.wr64 o v).sansRetire = s.sansRetire := (State.wr_sansRetire _ _ _).trans (State.wr_sansRetire _ _ _)
theorem State.count64_sansRetire (o n : Nat) : (s.count64 o n).sansRetire = s.sansRetire := State.wr64_sansRetire _ _ _
theorem State.emit_sansRetire (x : Out) : (s.emit x).sansRetire = s.sansRetire := State.withOuts_sansRetire _ _
theorem State.sansRetire_of {s t : State} (h : t.sansLog = s.sansLog) : t.sansRetire = s.sansRetire := congrArg (fun x : State => (x.withNvs {})) h
/-- The state without outs, parts. -/
def State.sansVf (s : State) : State := ((s.withOuts []).withParts [])
theorem State.sansVf_pending : s.sansVf.pending = s.pending := rfl
theorem State.sansVf_free : s.sansVf.free = s.free := rfl
theorem State.sansVf_regs : s.sansVf.regs = s.regs := rfl
theorem State.sansVf_hbm : s.sansVf.hbm = s.hbm := rfl
theorem State.sansVf_poison : s.sansVf.poison = s.poison := rfl
theorem State.sansVf_hold : s.sansVf.hold = s.hold := rfl
theorem State.sansVf_por : s.sansVf.por = s.por := rfl
theorem State.sansVf_time : s.sansVf.time = s.time := rfl
theorem State.sansVf_streams : s.sansVf.streams = s.streams := rfl
theorem State.sansVf_engines : s.sansVf.engines = s.engines := rfl
theorem State.sansVf_subs : s.sansVf.subs = s.subs := rfl
theorem State.sansVf_fabric : s.sansVf.fabric = s.fabric := rfl
theorem State.sansVf_pins : s.sansVf.pins = s.pins := rfl
theorem State.sansVf_lanes : s.sansVf.lanes = s.lanes := rfl
theorem State.sansVf_swcmd : s.sansVf.swcmd = s.swcmd := rfl
theorem State.sansVf_chan : s.sansVf.chan = s.chan := rfl
theorem State.sansVf_cores : s.sansVf.cores = s.cores := rfl
theorem State.sansVf_clusters : s.sansVf.clusters = s.clusters := rfl
theorem State.sansVf_taken : s.sansVf.taken = s.taken := rfl
theorem State.sansVf_mgmt : s.sansVf.mgmt = s.mgmt := rfl
theorem State.sansVf_pf : s.sansVf.pf = s.pf := rfl
theorem State.sansVf_owners : s.sansVf.owners = s.owners := rfl
theorem State.sansVf_creq : s.sansVf.creq = s.creq := rfl
theorem State.sansVf_lps : s.sansVf.lps = s.lps := rfl
theorem State.sansVf_doms : s.sansVf.doms = s.doms := rfl
theorem State.sansVf_nvs : s.sansVf.nvs = s.nvs := rfl
theorem State.sansVf_test : s.sansVf.test = s.test := rfl
theorem State.sansVf_ages : s.sansVf.ages = s.ages := rfl
theorem State.sansVf_readout : s.sansVf.readout = s.readout := rfl
theorem State.sansVf_sec : s.sansVf.sec = s.sec := rfl
theorem State.sansVf_arb : s.sansVf.arb = s.arb := rfl
theorem State.sansVf_jtag : s.sansVf.jtag = s.jtag := rfl
theorem State.withOuts_sansVf (x) : (s.withOuts x).sansVf = s.sansVf := rfl
theorem State.withParts_sansVf (x) : (s.withParts x).sansVf = s.sansVf := rfl
theorem State.emit_sansVf (x : Out) : (s.emit x).sansVf = s.sansVf := State.withOuts_sansVf _ _
theorem State.setPart_sansVf (i : Nat) (x : PartSt) : (s.setPart i x).sansVf = s.sansVf := State.withParts_sansVf _ _
/-- The state without outs, parts, regs. -/
def State.sansPart (s : State) : State := (s.sansVf.withRegs [])
theorem State.sansPart_pending : s.sansPart.pending = s.pending := rfl
theorem State.sansPart_free : s.sansPart.free = s.free := rfl
theorem State.sansPart_hbm : s.sansPart.hbm = s.hbm := rfl
theorem State.sansPart_poison : s.sansPart.poison = s.poison := rfl
theorem State.sansPart_hold : s.sansPart.hold = s.hold := rfl
theorem State.sansPart_por : s.sansPart.por = s.por := rfl
theorem State.sansPart_time : s.sansPart.time = s.time := rfl
theorem State.sansPart_streams : s.sansPart.streams = s.streams := rfl
theorem State.sansPart_engines : s.sansPart.engines = s.engines := rfl
theorem State.sansPart_subs : s.sansPart.subs = s.subs := rfl
theorem State.sansPart_fabric : s.sansPart.fabric = s.fabric := rfl
theorem State.sansPart_pins : s.sansPart.pins = s.pins := rfl
theorem State.sansPart_lanes : s.sansPart.lanes = s.lanes := rfl
theorem State.sansPart_swcmd : s.sansPart.swcmd = s.swcmd := rfl
theorem State.sansPart_chan : s.sansPart.chan = s.chan := rfl
theorem State.sansPart_cores : s.sansPart.cores = s.cores := rfl
theorem State.sansPart_clusters : s.sansPart.clusters = s.clusters := rfl
theorem State.sansPart_taken : s.sansPart.taken = s.taken := rfl
theorem State.sansPart_mgmt : s.sansPart.mgmt = s.mgmt := rfl
theorem State.sansPart_pf : s.sansPart.pf = s.pf := rfl
theorem State.sansPart_owners : s.sansPart.owners = s.owners := rfl
theorem State.sansPart_creq : s.sansPart.creq = s.creq := rfl
theorem State.sansPart_lps : s.sansPart.lps = s.lps := rfl
theorem State.sansPart_doms : s.sansPart.doms = s.doms := rfl
theorem State.sansPart_nvs : s.sansPart.nvs = s.nvs := rfl
theorem State.sansPart_test : s.sansPart.test = s.test := rfl
theorem State.sansPart_ages : s.sansPart.ages = s.ages := rfl
theorem State.sansPart_readout : s.sansPart.readout = s.readout := rfl
theorem State.sansPart_sec : s.sansPart.sec = s.sec := rfl
theorem State.sansPart_arb : s.sansPart.arb = s.arb := rfl
theorem State.sansPart_jtag : s.sansPart.jtag = s.jtag := rfl
theorem State.withOuts_sansPart (x) : (s.withOuts x).sansPart = s.sansPart := rfl
theorem State.withParts_sansPart (x) : (s.withParts x).sansPart = s.sansPart := rfl
theorem State.withRegs_sansPart (x) : (s.withRegs x).sansPart = s.sansPart := rfl
theorem State.wr_sansPart (o v : Nat) : (s.wr o v).sansPart = s.sansPart := State.withRegs_sansPart _ _
theorem State.fset_sansPart (o l w v : Nat) : (s.fset o l w v).sansPart = s.sansPart := State.wr_sansPart _ _ _
theorem State.count_sansPart (o n : Nat) : (s.count o n).sansPart = s.sansPart := State.wr_sansPart _ _ _
theorem State.wr64_sansPart (o v : Nat) : (s.wr64 o v).sansPart = s.sansPart := (State.wr_sansPart _ _ _).trans (State.wr_sansPart _ _ _)
theorem State.count64_sansPart (o n : Nat) : (s.count64 o n).sansPart = s.sansPart := State.wr64_sansPart _ _ _
theorem State.emit_sansPart (x : Out) : (s.emit x).sansPart = s.sansPart := State.withOuts_sansPart _ _
theorem State.setPart_sansPart (i : Nat) (x : PartSt) : (s.setPart i x).sansPart = s.sansPart := State.withParts_sansPart _ _
theorem State.sansPart_of {s t : State} (h : t.sansVf = s.sansVf) : t.sansPart = s.sansPart := congrArg (fun x : State => (x.withRegs [])) h
/-- The state without regs. -/
def State.sansRegs (s : State) : State := (s.withRegs [])
theorem State.sansRegs_pending : s.sansRegs.pending = s.pending := rfl
theorem State.sansRegs_free : s.sansRegs.free = s.free := rfl
theorem State.sansRegs_hbm : s.sansRegs.hbm = s.hbm := rfl
theorem State.sansRegs_poison : s.sansRegs.poison = s.poison := rfl
theorem State.sansRegs_outs : s.sansRegs.outs = s.outs := rfl
theorem State.sansRegs_hold : s.sansRegs.hold = s.hold := rfl
theorem State.sansRegs_por : s.sansRegs.por = s.por := rfl
theorem State.sansRegs_time : s.sansRegs.time = s.time := rfl
theorem State.sansRegs_streams : s.sansRegs.streams = s.streams := rfl
theorem State.sansRegs_engines : s.sansRegs.engines = s.engines := rfl
theorem State.sansRegs_subs : s.sansRegs.subs = s.subs := rfl
theorem State.sansRegs_fabric : s.sansRegs.fabric = s.fabric := rfl
theorem State.sansRegs_pins : s.sansRegs.pins = s.pins := rfl
theorem State.sansRegs_lanes : s.sansRegs.lanes = s.lanes := rfl
theorem State.sansRegs_swcmd : s.sansRegs.swcmd = s.swcmd := rfl
theorem State.sansRegs_chan : s.sansRegs.chan = s.chan := rfl
theorem State.sansRegs_cores : s.sansRegs.cores = s.cores := rfl
theorem State.sansRegs_clusters : s.sansRegs.clusters = s.clusters := rfl
theorem State.sansRegs_taken : s.sansRegs.taken = s.taken := rfl
theorem State.sansRegs_mgmt : s.sansRegs.mgmt = s.mgmt := rfl
theorem State.sansRegs_pf : s.sansRegs.pf = s.pf := rfl
theorem State.sansRegs_parts : s.sansRegs.parts = s.parts := rfl
theorem State.sansRegs_owners : s.sansRegs.owners = s.owners := rfl
theorem State.sansRegs_creq : s.sansRegs.creq = s.creq := rfl
theorem State.sansRegs_lps : s.sansRegs.lps = s.lps := rfl
theorem State.sansRegs_doms : s.sansRegs.doms = s.doms := rfl
theorem State.sansRegs_nvs : s.sansRegs.nvs = s.nvs := rfl
theorem State.sansRegs_test : s.sansRegs.test = s.test := rfl
theorem State.sansRegs_ages : s.sansRegs.ages = s.ages := rfl
theorem State.sansRegs_readout : s.sansRegs.readout = s.readout := rfl
theorem State.sansRegs_sec : s.sansRegs.sec = s.sec := rfl
theorem State.sansRegs_arb : s.sansRegs.arb = s.arb := rfl
theorem State.sansRegs_jtag : s.sansRegs.jtag = s.jtag := rfl
theorem State.withRegs_sansRegs (x) : (s.withRegs x).sansRegs = s.sansRegs := rfl
theorem State.wr_sansRegs (o v : Nat) : (s.wr o v).sansRegs = s.sansRegs := State.withRegs_sansRegs _ _
theorem State.fset_sansRegs (o l w v : Nat) : (s.fset o l w v).sansRegs = s.sansRegs := State.wr_sansRegs _ _ _
theorem State.count_sansRegs (o n : Nat) : (s.count o n).sansRegs = s.sansRegs := State.wr_sansRegs _ _ _
theorem State.wr64_sansRegs (o v : Nat) : (s.wr64 o v).sansRegs = s.sansRegs := (State.wr_sansRegs _ _ _).trans (State.wr_sansRegs _ _ _)
theorem State.count64_sansRegs (o n : Nat) : (s.count64 o n).sansRegs = s.sansRegs := State.wr64_sansRegs _ _ _
/-- The state without nvs. -/
def State.sansNvs (s : State) : State := (s.withNvs {})
theorem State.sansNvs_pending : s.sansNvs.pending = s.pending := rfl
theorem State.sansNvs_free : s.sansNvs.free = s.free := rfl
theorem State.sansNvs_regs : s.sansNvs.regs = s.regs := rfl
theorem State.sansNvs_hbm : s.sansNvs.hbm = s.hbm := rfl
theorem State.sansNvs_poison : s.sansNvs.poison = s.poison := rfl
theorem State.sansNvs_outs : s.sansNvs.outs = s.outs := rfl
theorem State.sansNvs_hold : s.sansNvs.hold = s.hold := rfl
theorem State.sansNvs_por : s.sansNvs.por = s.por := rfl
theorem State.sansNvs_time : s.sansNvs.time = s.time := rfl
theorem State.sansNvs_streams : s.sansNvs.streams = s.streams := rfl
theorem State.sansNvs_engines : s.sansNvs.engines = s.engines := rfl
theorem State.sansNvs_subs : s.sansNvs.subs = s.subs := rfl
theorem State.sansNvs_fabric : s.sansNvs.fabric = s.fabric := rfl
theorem State.sansNvs_pins : s.sansNvs.pins = s.pins := rfl
theorem State.sansNvs_lanes : s.sansNvs.lanes = s.lanes := rfl
theorem State.sansNvs_swcmd : s.sansNvs.swcmd = s.swcmd := rfl
theorem State.sansNvs_chan : s.sansNvs.chan = s.chan := rfl
theorem State.sansNvs_cores : s.sansNvs.cores = s.cores := rfl
theorem State.sansNvs_clusters : s.sansNvs.clusters = s.clusters := rfl
theorem State.sansNvs_taken : s.sansNvs.taken = s.taken := rfl
theorem State.sansNvs_mgmt : s.sansNvs.mgmt = s.mgmt := rfl
theorem State.sansNvs_pf : s.sansNvs.pf = s.pf := rfl
theorem State.sansNvs_parts : s.sansNvs.parts = s.parts := rfl
theorem State.sansNvs_owners : s.sansNvs.owners = s.owners := rfl
theorem State.sansNvs_creq : s.sansNvs.creq = s.creq := rfl
theorem State.sansNvs_lps : s.sansNvs.lps = s.lps := rfl
theorem State.sansNvs_doms : s.sansNvs.doms = s.doms := rfl
theorem State.sansNvs_test : s.sansNvs.test = s.test := rfl
theorem State.sansNvs_ages : s.sansNvs.ages = s.ages := rfl
theorem State.sansNvs_readout : s.sansNvs.readout = s.readout := rfl
theorem State.sansNvs_sec : s.sansNvs.sec = s.sec := rfl
theorem State.sansNvs_arb : s.sansNvs.arb = s.arb := rfl
theorem State.sansNvs_jtag : s.sansNvs.jtag = s.jtag := rfl
theorem State.withNvs_sansNvs (x) : (s.withNvs x).sansNvs = s.sansNvs := rfl
/-- The state without nvs, regs. -/
def State.sansStore (s : State) : State := (s.sansNvs.withRegs [])
theorem State.sansStore_pending : s.sansStore.pending = s.pending := rfl
theorem State.sansStore_free : s.sansStore.free = s.free := rfl
theorem State.sansStore_hbm : s.sansStore.hbm = s.hbm := rfl
theorem State.sansStore_poison : s.sansStore.poison = s.poison := rfl
theorem State.sansStore_outs : s.sansStore.outs = s.outs := rfl
theorem State.sansStore_hold : s.sansStore.hold = s.hold := rfl
theorem State.sansStore_por : s.sansStore.por = s.por := rfl
theorem State.sansStore_time : s.sansStore.time = s.time := rfl
theorem State.sansStore_streams : s.sansStore.streams = s.streams := rfl
theorem State.sansStore_engines : s.sansStore.engines = s.engines := rfl
theorem State.sansStore_subs : s.sansStore.subs = s.subs := rfl
theorem State.sansStore_fabric : s.sansStore.fabric = s.fabric := rfl
theorem State.sansStore_pins : s.sansStore.pins = s.pins := rfl
theorem State.sansStore_lanes : s.sansStore.lanes = s.lanes := rfl
theorem State.sansStore_swcmd : s.sansStore.swcmd = s.swcmd := rfl
theorem State.sansStore_chan : s.sansStore.chan = s.chan := rfl
theorem State.sansStore_cores : s.sansStore.cores = s.cores := rfl
theorem State.sansStore_clusters : s.sansStore.clusters = s.clusters := rfl
theorem State.sansStore_taken : s.sansStore.taken = s.taken := rfl
theorem State.sansStore_mgmt : s.sansStore.mgmt = s.mgmt := rfl
theorem State.sansStore_pf : s.sansStore.pf = s.pf := rfl
theorem State.sansStore_parts : s.sansStore.parts = s.parts := rfl
theorem State.sansStore_owners : s.sansStore.owners = s.owners := rfl
theorem State.sansStore_creq : s.sansStore.creq = s.creq := rfl
theorem State.sansStore_lps : s.sansStore.lps = s.lps := rfl
theorem State.sansStore_doms : s.sansStore.doms = s.doms := rfl
theorem State.sansStore_test : s.sansStore.test = s.test := rfl
theorem State.sansStore_ages : s.sansStore.ages = s.ages := rfl
theorem State.sansStore_readout : s.sansStore.readout = s.readout := rfl
theorem State.sansStore_sec : s.sansStore.sec = s.sec := rfl
theorem State.sansStore_arb : s.sansStore.arb = s.arb := rfl
theorem State.sansStore_jtag : s.sansStore.jtag = s.jtag := rfl
theorem State.withNvs_sansStore (x) : (s.withNvs x).sansStore = s.sansStore := rfl
theorem State.withRegs_sansStore (x) : (s.withRegs x).sansStore = s.sansStore := rfl
theorem State.wr_sansStore (o v : Nat) : (s.wr o v).sansStore = s.sansStore := State.withRegs_sansStore _ _
theorem State.fset_sansStore (o l w v : Nat) : (s.fset o l w v).sansStore = s.sansStore := State.wr_sansStore _ _ _
theorem State.count_sansStore (o n : Nat) : (s.count o n).sansStore = s.sansStore := State.wr_sansStore _ _ _
theorem State.wr64_sansStore (o v : Nat) : (s.wr64 o v).sansStore = s.sansStore := (State.wr_sansStore _ _ _).trans (State.wr_sansStore _ _ _)
theorem State.count64_sansStore (o n : Nat) : (s.count64 o n).sansStore = s.sansStore := State.wr64_sansStore _ _ _
theorem State.sansStore_of {s t : State} (h : t.sansNvs = s.sansNvs) : t.sansStore = s.sansStore := congrArg (fun x : State => (x.withRegs [])) h
/-- The state without nvs, regs, free. -/
def State.sansAbandon (s : State) : State := (s.sansStore.withFree 0)
theorem State.sansAbandon_pending : s.sansAbandon.pending = s.pending := rfl
theorem State.sansAbandon_hbm : s.sansAbandon.hbm = s.hbm := rfl
theorem State.sansAbandon_poison : s.sansAbandon.poison = s.poison := rfl
theorem State.sansAbandon_outs : s.sansAbandon.outs = s.outs := rfl
theorem State.sansAbandon_hold : s.sansAbandon.hold = s.hold := rfl
theorem State.sansAbandon_por : s.sansAbandon.por = s.por := rfl
theorem State.sansAbandon_time : s.sansAbandon.time = s.time := rfl
theorem State.sansAbandon_streams : s.sansAbandon.streams = s.streams := rfl
theorem State.sansAbandon_engines : s.sansAbandon.engines = s.engines := rfl
theorem State.sansAbandon_subs : s.sansAbandon.subs = s.subs := rfl
theorem State.sansAbandon_fabric : s.sansAbandon.fabric = s.fabric := rfl
theorem State.sansAbandon_pins : s.sansAbandon.pins = s.pins := rfl
theorem State.sansAbandon_lanes : s.sansAbandon.lanes = s.lanes := rfl
theorem State.sansAbandon_swcmd : s.sansAbandon.swcmd = s.swcmd := rfl
theorem State.sansAbandon_chan : s.sansAbandon.chan = s.chan := rfl
theorem State.sansAbandon_cores : s.sansAbandon.cores = s.cores := rfl
theorem State.sansAbandon_clusters : s.sansAbandon.clusters = s.clusters := rfl
theorem State.sansAbandon_taken : s.sansAbandon.taken = s.taken := rfl
theorem State.sansAbandon_mgmt : s.sansAbandon.mgmt = s.mgmt := rfl
theorem State.sansAbandon_pf : s.sansAbandon.pf = s.pf := rfl
theorem State.sansAbandon_parts : s.sansAbandon.parts = s.parts := rfl
theorem State.sansAbandon_owners : s.sansAbandon.owners = s.owners := rfl
theorem State.sansAbandon_creq : s.sansAbandon.creq = s.creq := rfl
theorem State.sansAbandon_lps : s.sansAbandon.lps = s.lps := rfl
theorem State.sansAbandon_doms : s.sansAbandon.doms = s.doms := rfl
theorem State.sansAbandon_test : s.sansAbandon.test = s.test := rfl
theorem State.sansAbandon_ages : s.sansAbandon.ages = s.ages := rfl
theorem State.sansAbandon_readout : s.sansAbandon.readout = s.readout := rfl
theorem State.sansAbandon_sec : s.sansAbandon.sec = s.sec := rfl
theorem State.sansAbandon_arb : s.sansAbandon.arb = s.arb := rfl
theorem State.sansAbandon_jtag : s.sansAbandon.jtag = s.jtag := rfl
theorem State.withNvs_sansAbandon (x) : (s.withNvs x).sansAbandon = s.sansAbandon := rfl
theorem State.withRegs_sansAbandon (x) : (s.withRegs x).sansAbandon = s.sansAbandon := rfl
theorem State.withFree_sansAbandon (x) : (s.withFree x).sansAbandon = s.sansAbandon := rfl
theorem State.wr_sansAbandon (o v : Nat) : (s.wr o v).sansAbandon = s.sansAbandon := State.withRegs_sansAbandon _ _
theorem State.fset_sansAbandon (o l w v : Nat) : (s.fset o l w v).sansAbandon = s.sansAbandon := State.wr_sansAbandon _ _ _
theorem State.count_sansAbandon (o n : Nat) : (s.count o n).sansAbandon = s.sansAbandon := State.wr_sansAbandon _ _ _
theorem State.wr64_sansAbandon (o v : Nat) : (s.wr64 o v).sansAbandon = s.sansAbandon := (State.wr_sansAbandon _ _ _).trans (State.wr_sansAbandon _ _ _)
theorem State.count64_sansAbandon (o n : Nat) : (s.count64 o n).sansAbandon = s.sansAbandon := State.wr64_sansAbandon _ _ _
theorem State.sansAbandon_of {s t : State} (h : t.sansStore = s.sansStore) : t.sansAbandon = s.sansAbandon := congrArg (fun x : State => (x.withFree 0)) h
/-- The state without hbm. -/
def State.sansHbm (s : State) : State := (s.withHbm [])
theorem State.sansHbm_pending : s.sansHbm.pending = s.pending := rfl
theorem State.sansHbm_free : s.sansHbm.free = s.free := rfl
theorem State.sansHbm_regs : s.sansHbm.regs = s.regs := rfl
theorem State.sansHbm_poison : s.sansHbm.poison = s.poison := rfl
theorem State.sansHbm_outs : s.sansHbm.outs = s.outs := rfl
theorem State.sansHbm_hold : s.sansHbm.hold = s.hold := rfl
theorem State.sansHbm_por : s.sansHbm.por = s.por := rfl
theorem State.sansHbm_time : s.sansHbm.time = s.time := rfl
theorem State.sansHbm_streams : s.sansHbm.streams = s.streams := rfl
theorem State.sansHbm_engines : s.sansHbm.engines = s.engines := rfl
theorem State.sansHbm_subs : s.sansHbm.subs = s.subs := rfl
theorem State.sansHbm_fabric : s.sansHbm.fabric = s.fabric := rfl
theorem State.sansHbm_pins : s.sansHbm.pins = s.pins := rfl
theorem State.sansHbm_lanes : s.sansHbm.lanes = s.lanes := rfl
theorem State.sansHbm_swcmd : s.sansHbm.swcmd = s.swcmd := rfl
theorem State.sansHbm_chan : s.sansHbm.chan = s.chan := rfl
theorem State.sansHbm_cores : s.sansHbm.cores = s.cores := rfl
theorem State.sansHbm_clusters : s.sansHbm.clusters = s.clusters := rfl
theorem State.sansHbm_taken : s.sansHbm.taken = s.taken := rfl
theorem State.sansHbm_mgmt : s.sansHbm.mgmt = s.mgmt := rfl
theorem State.sansHbm_pf : s.sansHbm.pf = s.pf := rfl
theorem State.sansHbm_parts : s.sansHbm.parts = s.parts := rfl
theorem State.sansHbm_owners : s.sansHbm.owners = s.owners := rfl
theorem State.sansHbm_creq : s.sansHbm.creq = s.creq := rfl
theorem State.sansHbm_lps : s.sansHbm.lps = s.lps := rfl
theorem State.sansHbm_doms : s.sansHbm.doms = s.doms := rfl
theorem State.sansHbm_nvs : s.sansHbm.nvs = s.nvs := rfl
theorem State.sansHbm_test : s.sansHbm.test = s.test := rfl
theorem State.sansHbm_ages : s.sansHbm.ages = s.ages := rfl
theorem State.sansHbm_readout : s.sansHbm.readout = s.readout := rfl
theorem State.sansHbm_sec : s.sansHbm.sec = s.sec := rfl
theorem State.sansHbm_arb : s.sansHbm.arb = s.arb := rfl
theorem State.sansHbm_jtag : s.sansHbm.jtag = s.jtag := rfl
theorem State.withHbm_sansHbm (x) : (s.withHbm x).sansHbm = s.sansHbm := rfl
theorem State.hbmPut_sansHbm (a : Nat) (b : Byte) : (s.hbmPut a b).sansHbm = s.sansHbm := State.withHbm_sansHbm _ _
/-- The state without hbm, poison, clusters. -/
def State.sansBack (s : State) : State := ((s.sansHbm.withPoison []).withClusters [])
theorem State.sansBack_pending : s.sansBack.pending = s.pending := rfl
theorem State.sansBack_free : s.sansBack.free = s.free := rfl
theorem State.sansBack_regs : s.sansBack.regs = s.regs := rfl
theorem State.sansBack_outs : s.sansBack.outs = s.outs := rfl
theorem State.sansBack_hold : s.sansBack.hold = s.hold := rfl
theorem State.sansBack_por : s.sansBack.por = s.por := rfl
theorem State.sansBack_time : s.sansBack.time = s.time := rfl
theorem State.sansBack_streams : s.sansBack.streams = s.streams := rfl
theorem State.sansBack_engines : s.sansBack.engines = s.engines := rfl
theorem State.sansBack_subs : s.sansBack.subs = s.subs := rfl
theorem State.sansBack_fabric : s.sansBack.fabric = s.fabric := rfl
theorem State.sansBack_pins : s.sansBack.pins = s.pins := rfl
theorem State.sansBack_lanes : s.sansBack.lanes = s.lanes := rfl
theorem State.sansBack_swcmd : s.sansBack.swcmd = s.swcmd := rfl
theorem State.sansBack_chan : s.sansBack.chan = s.chan := rfl
theorem State.sansBack_cores : s.sansBack.cores = s.cores := rfl
theorem State.sansBack_taken : s.sansBack.taken = s.taken := rfl
theorem State.sansBack_mgmt : s.sansBack.mgmt = s.mgmt := rfl
theorem State.sansBack_pf : s.sansBack.pf = s.pf := rfl
theorem State.sansBack_parts : s.sansBack.parts = s.parts := rfl
theorem State.sansBack_owners : s.sansBack.owners = s.owners := rfl
theorem State.sansBack_creq : s.sansBack.creq = s.creq := rfl
theorem State.sansBack_lps : s.sansBack.lps = s.lps := rfl
theorem State.sansBack_doms : s.sansBack.doms = s.doms := rfl
theorem State.sansBack_nvs : s.sansBack.nvs = s.nvs := rfl
theorem State.sansBack_test : s.sansBack.test = s.test := rfl
theorem State.sansBack_ages : s.sansBack.ages = s.ages := rfl
theorem State.sansBack_readout : s.sansBack.readout = s.readout := rfl
theorem State.sansBack_sec : s.sansBack.sec = s.sec := rfl
theorem State.sansBack_arb : s.sansBack.arb = s.arb := rfl
theorem State.sansBack_jtag : s.sansBack.jtag = s.jtag := rfl
theorem State.withHbm_sansBack (x) : (s.withHbm x).sansBack = s.sansBack := rfl
theorem State.withPoison_sansBack (x) : (s.withPoison x).sansBack = s.sansBack := rfl
theorem State.withClusters_sansBack (x) : (s.withClusters x).sansBack = s.sansBack := rfl
theorem State.hbmPut_sansBack (a : Nat) (b : Byte) : (s.hbmPut a b).sansBack = s.sansBack := State.withHbm_sansBack _ _
theorem State.setPoison_sansBack (ln : Nat) (b : Bool) : (s.setPoison ln b).sansBack = s.sansBack := State.withPoison_sansBack _ _
theorem State.setCluster_sansBack (i : Nat) (x : ClusterSt) : (s.setCluster i x).sansBack = s.sansBack := State.withClusters_sansBack _ _
theorem State.sansBack_of {s t : State} (h : t.sansHbm = s.sansHbm) : t.sansBack = s.sansBack := congrArg (fun x : State => ((x.withPoison []).withClusters [])) h
/-- The state without hbm, poison, clusters, cores. -/
def State.sansBus (s : State) : State := (s.sansBack.withCores [])
theorem State.sansBus_pending : s.sansBus.pending = s.pending := rfl
theorem State.sansBus_free : s.sansBus.free = s.free := rfl
theorem State.sansBus_regs : s.sansBus.regs = s.regs := rfl
theorem State.sansBus_outs : s.sansBus.outs = s.outs := rfl
theorem State.sansBus_hold : s.sansBus.hold = s.hold := rfl
theorem State.sansBus_por : s.sansBus.por = s.por := rfl
theorem State.sansBus_time : s.sansBus.time = s.time := rfl
theorem State.sansBus_streams : s.sansBus.streams = s.streams := rfl
theorem State.sansBus_engines : s.sansBus.engines = s.engines := rfl
theorem State.sansBus_subs : s.sansBus.subs = s.subs := rfl
theorem State.sansBus_fabric : s.sansBus.fabric = s.fabric := rfl
theorem State.sansBus_pins : s.sansBus.pins = s.pins := rfl
theorem State.sansBus_lanes : s.sansBus.lanes = s.lanes := rfl
theorem State.sansBus_swcmd : s.sansBus.swcmd = s.swcmd := rfl
theorem State.sansBus_chan : s.sansBus.chan = s.chan := rfl
theorem State.sansBus_taken : s.sansBus.taken = s.taken := rfl
theorem State.sansBus_mgmt : s.sansBus.mgmt = s.mgmt := rfl
theorem State.sansBus_pf : s.sansBus.pf = s.pf := rfl
theorem State.sansBus_parts : s.sansBus.parts = s.parts := rfl
theorem State.sansBus_owners : s.sansBus.owners = s.owners := rfl
theorem State.sansBus_creq : s.sansBus.creq = s.creq := rfl
theorem State.sansBus_lps : s.sansBus.lps = s.lps := rfl
theorem State.sansBus_doms : s.sansBus.doms = s.doms := rfl
theorem State.sansBus_nvs : s.sansBus.nvs = s.nvs := rfl
theorem State.sansBus_test : s.sansBus.test = s.test := rfl
theorem State.sansBus_ages : s.sansBus.ages = s.ages := rfl
theorem State.sansBus_readout : s.sansBus.readout = s.readout := rfl
theorem State.sansBus_sec : s.sansBus.sec = s.sec := rfl
theorem State.sansBus_arb : s.sansBus.arb = s.arb := rfl
theorem State.sansBus_jtag : s.sansBus.jtag = s.jtag := rfl
theorem State.withHbm_sansBus (x) : (s.withHbm x).sansBus = s.sansBus := rfl
theorem State.withPoison_sansBus (x) : (s.withPoison x).sansBus = s.sansBus := rfl
theorem State.withClusters_sansBus (x) : (s.withClusters x).sansBus = s.sansBus := rfl
theorem State.withCores_sansBus (x) : (s.withCores x).sansBus = s.sansBus := rfl
theorem State.hbmPut_sansBus (a : Nat) (b : Byte) : (s.hbmPut a b).sansBus = s.sansBus := State.withHbm_sansBus _ _
theorem State.setPoison_sansBus (ln : Nat) (b : Bool) : (s.setPoison ln b).sansBus = s.sansBus := State.withPoison_sansBus _ _
theorem State.setCore_sansBus (i : Nat) (x : CoreSt) : (s.setCore i x).sansBus = s.sansBus := State.withCores_sansBus _ _
theorem State.setCluster_sansBus (i : Nat) (x : ClusterSt) : (s.setCluster i x).sansBus = s.sansBus := State.withClusters_sansBus _ _
theorem State.sansBus_of {s t : State} (h : t.sansBack = s.sansBack) : t.sansBus = s.sansBus := congrArg (fun x : State => (x.withCores [])) h
/-- The state without hbm, poison, clusters, cores, regs, free. -/
def State.sansHome (s : State) : State := ((s.sansBus.withRegs []).withFree 0)
theorem State.sansHome_pending : s.sansHome.pending = s.pending := rfl
theorem State.sansHome_outs : s.sansHome.outs = s.outs := rfl
theorem State.sansHome_hold : s.sansHome.hold = s.hold := rfl
theorem State.sansHome_por : s.sansHome.por = s.por := rfl
theorem State.sansHome_time : s.sansHome.time = s.time := rfl
theorem State.sansHome_streams : s.sansHome.streams = s.streams := rfl
theorem State.sansHome_engines : s.sansHome.engines = s.engines := rfl
theorem State.sansHome_subs : s.sansHome.subs = s.subs := rfl
theorem State.sansHome_fabric : s.sansHome.fabric = s.fabric := rfl
theorem State.sansHome_pins : s.sansHome.pins = s.pins := rfl
theorem State.sansHome_lanes : s.sansHome.lanes = s.lanes := rfl
theorem State.sansHome_swcmd : s.sansHome.swcmd = s.swcmd := rfl
theorem State.sansHome_chan : s.sansHome.chan = s.chan := rfl
theorem State.sansHome_taken : s.sansHome.taken = s.taken := rfl
theorem State.sansHome_mgmt : s.sansHome.mgmt = s.mgmt := rfl
theorem State.sansHome_pf : s.sansHome.pf = s.pf := rfl
theorem State.sansHome_parts : s.sansHome.parts = s.parts := rfl
theorem State.sansHome_owners : s.sansHome.owners = s.owners := rfl
theorem State.sansHome_creq : s.sansHome.creq = s.creq := rfl
theorem State.sansHome_lps : s.sansHome.lps = s.lps := rfl
theorem State.sansHome_doms : s.sansHome.doms = s.doms := rfl
theorem State.sansHome_nvs : s.sansHome.nvs = s.nvs := rfl
theorem State.sansHome_test : s.sansHome.test = s.test := rfl
theorem State.sansHome_ages : s.sansHome.ages = s.ages := rfl
theorem State.sansHome_readout : s.sansHome.readout = s.readout := rfl
theorem State.sansHome_sec : s.sansHome.sec = s.sec := rfl
theorem State.sansHome_arb : s.sansHome.arb = s.arb := rfl
theorem State.sansHome_jtag : s.sansHome.jtag = s.jtag := rfl
theorem State.withHbm_sansHome (x) : (s.withHbm x).sansHome = s.sansHome := rfl
theorem State.withPoison_sansHome (x) : (s.withPoison x).sansHome = s.sansHome := rfl
theorem State.withClusters_sansHome (x) : (s.withClusters x).sansHome = s.sansHome := rfl
theorem State.withCores_sansHome (x) : (s.withCores x).sansHome = s.sansHome := rfl
theorem State.withRegs_sansHome (x) : (s.withRegs x).sansHome = s.sansHome := rfl
theorem State.withFree_sansHome (x) : (s.withFree x).sansHome = s.sansHome := rfl
theorem State.wr_sansHome (o v : Nat) : (s.wr o v).sansHome = s.sansHome := State.withRegs_sansHome _ _
theorem State.fset_sansHome (o l w v : Nat) : (s.fset o l w v).sansHome = s.sansHome := State.wr_sansHome _ _ _
theorem State.count_sansHome (o n : Nat) : (s.count o n).sansHome = s.sansHome := State.wr_sansHome _ _ _
theorem State.wr64_sansHome (o v : Nat) : (s.wr64 o v).sansHome = s.sansHome := (State.wr_sansHome _ _ _).trans (State.wr_sansHome _ _ _)
theorem State.count64_sansHome (o n : Nat) : (s.count64 o n).sansHome = s.sansHome := State.wr64_sansHome _ _ _
theorem State.hbmPut_sansHome (a : Nat) (b : Byte) : (s.hbmPut a b).sansHome = s.sansHome := State.withHbm_sansHome _ _
theorem State.setPoison_sansHome (ln : Nat) (b : Bool) : (s.setPoison ln b).sansHome = s.sansHome := State.withPoison_sansHome _ _
theorem State.setCore_sansHome (i : Nat) (x : CoreSt) : (s.setCore i x).sansHome = s.sansHome := State.withCores_sansHome _ _
theorem State.setCluster_sansHome (i : Nat) (x : ClusterSt) : (s.setCluster i x).sansHome = s.sansHome := State.withClusters_sansHome _ _
theorem State.sansHome_of {s t : State} (h : t.sansBus = s.sansBus) : t.sansHome = s.sansHome := congrArg (fun x : State => ((x.withRegs []).withFree 0)) h
/-- The state without cores. -/
def State.sansCores (s : State) : State := (s.withCores [])
theorem State.sansCores_pending : s.sansCores.pending = s.pending := rfl
theorem State.sansCores_free : s.sansCores.free = s.free := rfl
theorem State.sansCores_regs : s.sansCores.regs = s.regs := rfl
theorem State.sansCores_hbm : s.sansCores.hbm = s.hbm := rfl
theorem State.sansCores_poison : s.sansCores.poison = s.poison := rfl
theorem State.sansCores_outs : s.sansCores.outs = s.outs := rfl
theorem State.sansCores_hold : s.sansCores.hold = s.hold := rfl
theorem State.sansCores_por : s.sansCores.por = s.por := rfl
theorem State.sansCores_time : s.sansCores.time = s.time := rfl
theorem State.sansCores_streams : s.sansCores.streams = s.streams := rfl
theorem State.sansCores_engines : s.sansCores.engines = s.engines := rfl
theorem State.sansCores_subs : s.sansCores.subs = s.subs := rfl
theorem State.sansCores_fabric : s.sansCores.fabric = s.fabric := rfl
theorem State.sansCores_pins : s.sansCores.pins = s.pins := rfl
theorem State.sansCores_lanes : s.sansCores.lanes = s.lanes := rfl
theorem State.sansCores_swcmd : s.sansCores.swcmd = s.swcmd := rfl
theorem State.sansCores_chan : s.sansCores.chan = s.chan := rfl
theorem State.sansCores_clusters : s.sansCores.clusters = s.clusters := rfl
theorem State.sansCores_taken : s.sansCores.taken = s.taken := rfl
theorem State.sansCores_mgmt : s.sansCores.mgmt = s.mgmt := rfl
theorem State.sansCores_pf : s.sansCores.pf = s.pf := rfl
theorem State.sansCores_parts : s.sansCores.parts = s.parts := rfl
theorem State.sansCores_owners : s.sansCores.owners = s.owners := rfl
theorem State.sansCores_creq : s.sansCores.creq = s.creq := rfl
theorem State.sansCores_lps : s.sansCores.lps = s.lps := rfl
theorem State.sansCores_doms : s.sansCores.doms = s.doms := rfl
theorem State.sansCores_nvs : s.sansCores.nvs = s.nvs := rfl
theorem State.sansCores_test : s.sansCores.test = s.test := rfl
theorem State.sansCores_ages : s.sansCores.ages = s.ages := rfl
theorem State.sansCores_readout : s.sansCores.readout = s.readout := rfl
theorem State.sansCores_sec : s.sansCores.sec = s.sec := rfl
theorem State.sansCores_arb : s.sansCores.arb = s.arb := rfl
theorem State.sansCores_jtag : s.sansCores.jtag = s.jtag := rfl
theorem State.withCores_sansCores (x) : (s.withCores x).sansCores = s.sansCores := rfl
theorem State.setCore_sansCores (i : Nat) (x : CoreSt) : (s.setCore i x).sansCores = s.sansCores := State.withCores_sansCores _ _
/-- The state without clusters. -/
def State.sansClusters (s : State) : State := (s.withClusters [])
theorem State.sansClusters_pending : s.sansClusters.pending = s.pending := rfl
theorem State.sansClusters_free : s.sansClusters.free = s.free := rfl
theorem State.sansClusters_regs : s.sansClusters.regs = s.regs := rfl
theorem State.sansClusters_hbm : s.sansClusters.hbm = s.hbm := rfl
theorem State.sansClusters_poison : s.sansClusters.poison = s.poison := rfl
theorem State.sansClusters_outs : s.sansClusters.outs = s.outs := rfl
theorem State.sansClusters_hold : s.sansClusters.hold = s.hold := rfl
theorem State.sansClusters_por : s.sansClusters.por = s.por := rfl
theorem State.sansClusters_time : s.sansClusters.time = s.time := rfl
theorem State.sansClusters_streams : s.sansClusters.streams = s.streams := rfl
theorem State.sansClusters_engines : s.sansClusters.engines = s.engines := rfl
theorem State.sansClusters_subs : s.sansClusters.subs = s.subs := rfl
theorem State.sansClusters_fabric : s.sansClusters.fabric = s.fabric := rfl
theorem State.sansClusters_pins : s.sansClusters.pins = s.pins := rfl
theorem State.sansClusters_lanes : s.sansClusters.lanes = s.lanes := rfl
theorem State.sansClusters_swcmd : s.sansClusters.swcmd = s.swcmd := rfl
theorem State.sansClusters_chan : s.sansClusters.chan = s.chan := rfl
theorem State.sansClusters_cores : s.sansClusters.cores = s.cores := rfl
theorem State.sansClusters_taken : s.sansClusters.taken = s.taken := rfl
theorem State.sansClusters_mgmt : s.sansClusters.mgmt = s.mgmt := rfl
theorem State.sansClusters_pf : s.sansClusters.pf = s.pf := rfl
theorem State.sansClusters_parts : s.sansClusters.parts = s.parts := rfl
theorem State.sansClusters_owners : s.sansClusters.owners = s.owners := rfl
theorem State.sansClusters_creq : s.sansClusters.creq = s.creq := rfl
theorem State.sansClusters_lps : s.sansClusters.lps = s.lps := rfl
theorem State.sansClusters_doms : s.sansClusters.doms = s.doms := rfl
theorem State.sansClusters_nvs : s.sansClusters.nvs = s.nvs := rfl
theorem State.sansClusters_test : s.sansClusters.test = s.test := rfl
theorem State.sansClusters_ages : s.sansClusters.ages = s.ages := rfl
theorem State.sansClusters_readout : s.sansClusters.readout = s.readout := rfl
theorem State.sansClusters_sec : s.sansClusters.sec = s.sec := rfl
theorem State.sansClusters_arb : s.sansClusters.arb = s.arb := rfl
theorem State.sansClusters_jtag : s.sansClusters.jtag = s.jtag := rfl
theorem State.withClusters_sansClusters (x) : (s.withClusters x).sansClusters = s.sansClusters := rfl
theorem State.setCluster_sansClusters (i : Nat) (x : ClusterSt) : (s.setCluster i x).sansClusters = s.sansClusters := State.withClusters_sansClusters _ _
/-- The state without cores, clusters. -/
def State.sansLines (s : State) : State := (s.sansCores.withClusters [])
theorem State.sansLines_pending : s.sansLines.pending = s.pending := rfl
theorem State.sansLines_free : s.sansLines.free = s.free := rfl
theorem State.sansLines_regs : s.sansLines.regs = s.regs := rfl
theorem State.sansLines_hbm : s.sansLines.hbm = s.hbm := rfl
theorem State.sansLines_poison : s.sansLines.poison = s.poison := rfl
theorem State.sansLines_outs : s.sansLines.outs = s.outs := rfl
theorem State.sansLines_hold : s.sansLines.hold = s.hold := rfl
theorem State.sansLines_por : s.sansLines.por = s.por := rfl
theorem State.sansLines_time : s.sansLines.time = s.time := rfl
theorem State.sansLines_streams : s.sansLines.streams = s.streams := rfl
theorem State.sansLines_engines : s.sansLines.engines = s.engines := rfl
theorem State.sansLines_subs : s.sansLines.subs = s.subs := rfl
theorem State.sansLines_fabric : s.sansLines.fabric = s.fabric := rfl
theorem State.sansLines_pins : s.sansLines.pins = s.pins := rfl
theorem State.sansLines_lanes : s.sansLines.lanes = s.lanes := rfl
theorem State.sansLines_swcmd : s.sansLines.swcmd = s.swcmd := rfl
theorem State.sansLines_chan : s.sansLines.chan = s.chan := rfl
theorem State.sansLines_taken : s.sansLines.taken = s.taken := rfl
theorem State.sansLines_mgmt : s.sansLines.mgmt = s.mgmt := rfl
theorem State.sansLines_pf : s.sansLines.pf = s.pf := rfl
theorem State.sansLines_parts : s.sansLines.parts = s.parts := rfl
theorem State.sansLines_owners : s.sansLines.owners = s.owners := rfl
theorem State.sansLines_creq : s.sansLines.creq = s.creq := rfl
theorem State.sansLines_lps : s.sansLines.lps = s.lps := rfl
theorem State.sansLines_doms : s.sansLines.doms = s.doms := rfl
theorem State.sansLines_nvs : s.sansLines.nvs = s.nvs := rfl
theorem State.sansLines_test : s.sansLines.test = s.test := rfl
theorem State.sansLines_ages : s.sansLines.ages = s.ages := rfl
theorem State.sansLines_readout : s.sansLines.readout = s.readout := rfl
theorem State.sansLines_sec : s.sansLines.sec = s.sec := rfl
theorem State.sansLines_arb : s.sansLines.arb = s.arb := rfl
theorem State.sansLines_jtag : s.sansLines.jtag = s.jtag := rfl
theorem State.withCores_sansLines (x) : (s.withCores x).sansLines = s.sansLines := rfl
theorem State.withClusters_sansLines (x) : (s.withClusters x).sansLines = s.sansLines := rfl
theorem State.setCore_sansLines (i : Nat) (x : CoreSt) : (s.setCore i x).sansLines = s.sansLines := State.withCores_sansLines _ _
theorem State.setCluster_sansLines (i : Nat) (x : ClusterSt) : (s.setCluster i x).sansLines = s.sansLines := State.withClusters_sansLines _ _
theorem State.sansLines_of {s t : State} (h : t.sansCores = s.sansCores) : t.sansLines = s.sansLines := congrArg (fun x : State => (x.withClusters [])) h
theorem State.sansBus_ofLines {s t : State} (h : t.sansLines = s.sansLines) : t.sansBus = s.sansBus :=
  congrArg (fun x : State => (x.withHbm []).withPoison []) h

/-- pfVector changes no field but outs, pf. -/
theorem State.pfVector_frame (v : Nat) : (s.pfVector v).sansPf = s.sansPf := by
  unfold State.pfVector; dsimp only; split
  · exact State.emit_sansPf _ _
  · exact State.withPf_sansPf _ _
@[simp] theorem State.pfVector_pending (v : Nat) : (s.pfVector v).pending = s.pending :=
  (State.sansPf_pending _).symm.trans ((congrArg State.pending (State.pfVector_frame s v)).trans (State.sansPf_pending _))
@[simp] theorem State.pfVector_free (v : Nat) : (s.pfVector v).free = s.free :=
  (State.sansPf_free _).symm.trans ((congrArg State.free (State.pfVector_frame s v)).trans (State.sansPf_free _))
@[simp] theorem State.pfVector_regs (v : Nat) : (s.pfVector v).regs = s.regs :=
  (State.sansPf_regs _).symm.trans ((congrArg State.regs (State.pfVector_frame s v)).trans (State.sansPf_regs _))
@[simp] theorem State.pfVector_hbm (v : Nat) : (s.pfVector v).hbm = s.hbm :=
  (State.sansPf_hbm _).symm.trans ((congrArg State.hbm (State.pfVector_frame s v)).trans (State.sansPf_hbm _))
@[simp] theorem State.pfVector_poison (v : Nat) : (s.pfVector v).poison = s.poison :=
  (State.sansPf_poison _).symm.trans ((congrArg State.poison (State.pfVector_frame s v)).trans (State.sansPf_poison _))
@[simp] theorem State.pfVector_hold (v : Nat) : (s.pfVector v).hold = s.hold :=
  (State.sansPf_hold _).symm.trans ((congrArg State.hold (State.pfVector_frame s v)).trans (State.sansPf_hold _))
@[simp] theorem State.pfVector_por (v : Nat) : (s.pfVector v).por = s.por :=
  (State.sansPf_por _).symm.trans ((congrArg State.por (State.pfVector_frame s v)).trans (State.sansPf_por _))
@[simp] theorem State.pfVector_time (v : Nat) : (s.pfVector v).time = s.time :=
  (State.sansPf_time _).symm.trans ((congrArg State.time (State.pfVector_frame s v)).trans (State.sansPf_time _))
@[simp] theorem State.pfVector_streams (v : Nat) : (s.pfVector v).streams = s.streams :=
  (State.sansPf_streams _).symm.trans ((congrArg State.streams (State.pfVector_frame s v)).trans (State.sansPf_streams _))
@[simp] theorem State.pfVector_engines (v : Nat) : (s.pfVector v).engines = s.engines :=
  (State.sansPf_engines _).symm.trans ((congrArg State.engines (State.pfVector_frame s v)).trans (State.sansPf_engines _))
@[simp] theorem State.pfVector_subs (v : Nat) : (s.pfVector v).subs = s.subs :=
  (State.sansPf_subs _).symm.trans ((congrArg State.subs (State.pfVector_frame s v)).trans (State.sansPf_subs _))
@[simp] theorem State.pfVector_fabric (v : Nat) : (s.pfVector v).fabric = s.fabric :=
  (State.sansPf_fabric _).symm.trans ((congrArg State.fabric (State.pfVector_frame s v)).trans (State.sansPf_fabric _))
@[simp] theorem State.pfVector_pins (v : Nat) : (s.pfVector v).pins = s.pins :=
  (State.sansPf_pins _).symm.trans ((congrArg State.pins (State.pfVector_frame s v)).trans (State.sansPf_pins _))
@[simp] theorem State.pfVector_lanes (v : Nat) : (s.pfVector v).lanes = s.lanes :=
  (State.sansPf_lanes _).symm.trans ((congrArg State.lanes (State.pfVector_frame s v)).trans (State.sansPf_lanes _))
@[simp] theorem State.pfVector_swcmd (v : Nat) : (s.pfVector v).swcmd = s.swcmd :=
  (State.sansPf_swcmd _).symm.trans ((congrArg State.swcmd (State.pfVector_frame s v)).trans (State.sansPf_swcmd _))
@[simp] theorem State.pfVector_chan (v : Nat) : (s.pfVector v).chan = s.chan :=
  (State.sansPf_chan _).symm.trans ((congrArg State.chan (State.pfVector_frame s v)).trans (State.sansPf_chan _))
@[simp] theorem State.pfVector_cores (v : Nat) : (s.pfVector v).cores = s.cores :=
  (State.sansPf_cores _).symm.trans ((congrArg State.cores (State.pfVector_frame s v)).trans (State.sansPf_cores _))
@[simp] theorem State.pfVector_clusters (v : Nat) : (s.pfVector v).clusters = s.clusters :=
  (State.sansPf_clusters _).symm.trans ((congrArg State.clusters (State.pfVector_frame s v)).trans (State.sansPf_clusters _))
@[simp] theorem State.pfVector_taken (v : Nat) : (s.pfVector v).taken = s.taken :=
  (State.sansPf_taken _).symm.trans ((congrArg State.taken (State.pfVector_frame s v)).trans (State.sansPf_taken _))
@[simp] theorem State.pfVector_mgmt (v : Nat) : (s.pfVector v).mgmt = s.mgmt :=
  (State.sansPf_mgmt _).symm.trans ((congrArg State.mgmt (State.pfVector_frame s v)).trans (State.sansPf_mgmt _))
@[simp] theorem State.pfVector_parts (v : Nat) : (s.pfVector v).parts = s.parts :=
  (State.sansPf_parts _).symm.trans ((congrArg State.parts (State.pfVector_frame s v)).trans (State.sansPf_parts _))
@[simp] theorem State.pfVector_owners (v : Nat) : (s.pfVector v).owners = s.owners :=
  (State.sansPf_owners _).symm.trans ((congrArg State.owners (State.pfVector_frame s v)).trans (State.sansPf_owners _))
@[simp] theorem State.pfVector_creq (v : Nat) : (s.pfVector v).creq = s.creq :=
  (State.sansPf_creq _).symm.trans ((congrArg State.creq (State.pfVector_frame s v)).trans (State.sansPf_creq _))
@[simp] theorem State.pfVector_lps (v : Nat) : (s.pfVector v).lps = s.lps :=
  (State.sansPf_lps _).symm.trans ((congrArg State.lps (State.pfVector_frame s v)).trans (State.sansPf_lps _))
@[simp] theorem State.pfVector_doms (v : Nat) : (s.pfVector v).doms = s.doms :=
  (State.sansPf_doms _).symm.trans ((congrArg State.doms (State.pfVector_frame s v)).trans (State.sansPf_doms _))
@[simp] theorem State.pfVector_nvs (v : Nat) : (s.pfVector v).nvs = s.nvs :=
  (State.sansPf_nvs _).symm.trans ((congrArg State.nvs (State.pfVector_frame s v)).trans (State.sansPf_nvs _))
@[simp] theorem State.pfVector_test (v : Nat) : (s.pfVector v).test = s.test :=
  (State.sansPf_test _).symm.trans ((congrArg State.test (State.pfVector_frame s v)).trans (State.sansPf_test _))
@[simp] theorem State.pfVector_ages (v : Nat) : (s.pfVector v).ages = s.ages :=
  (State.sansPf_ages _).symm.trans ((congrArg State.ages (State.pfVector_frame s v)).trans (State.sansPf_ages _))
@[simp] theorem State.pfVector_readout (v : Nat) : (s.pfVector v).readout = s.readout :=
  (State.sansPf_readout _).symm.trans ((congrArg State.readout (State.pfVector_frame s v)).trans (State.sansPf_readout _))
@[simp] theorem State.pfVector_sec (v : Nat) : (s.pfVector v).sec = s.sec :=
  (State.sansPf_sec _).symm.trans ((congrArg State.sec (State.pfVector_frame s v)).trans (State.sansPf_sec _))
@[simp] theorem State.pfVector_arb (v : Nat) : (s.pfVector v).arb = s.arb :=
  (State.sansPf_arb _).symm.trans ((congrArg State.arb (State.pfVector_frame s v)).trans (State.sansPf_arb _))
@[simp] theorem State.pfVector_jtag (v : Nat) : (s.pfVector v).jtag = s.jtag :=
  (State.sansPf_jtag _).symm.trans ((congrArg State.jtag (State.pfVector_frame s v)).trans (State.sansPf_jtag _))
/-- mgrEvent changes no field but outs, pf, regs. -/
theorem State.mgrEvent_frame (i : Nat) : (s.mgrEvent i).sansEvent = s.sansEvent := by
  unfold State.mgrEvent; dsimp only; split
  · exact (State.sansEvent_of (State.pfVector_frame _ _)).trans (State.fset_sansEvent _ _ _ _ _)
  · exact State.fset_sansEvent _ _ _ _ _
@[simp] theorem State.mgrEvent_pending (i : Nat) : (s.mgrEvent i).pending = s.pending :=
  (State.sansEvent_pending _).symm.trans ((congrArg State.pending (State.mgrEvent_frame s i)).trans (State.sansEvent_pending _))
@[simp] theorem State.mgrEvent_free (i : Nat) : (s.mgrEvent i).free = s.free :=
  (State.sansEvent_free _).symm.trans ((congrArg State.free (State.mgrEvent_frame s i)).trans (State.sansEvent_free _))
@[simp] theorem State.mgrEvent_hbm (i : Nat) : (s.mgrEvent i).hbm = s.hbm :=
  (State.sansEvent_hbm _).symm.trans ((congrArg State.hbm (State.mgrEvent_frame s i)).trans (State.sansEvent_hbm _))
@[simp] theorem State.mgrEvent_poison (i : Nat) : (s.mgrEvent i).poison = s.poison :=
  (State.sansEvent_poison _).symm.trans ((congrArg State.poison (State.mgrEvent_frame s i)).trans (State.sansEvent_poison _))
@[simp] theorem State.mgrEvent_hold (i : Nat) : (s.mgrEvent i).hold = s.hold :=
  (State.sansEvent_hold _).symm.trans ((congrArg State.hold (State.mgrEvent_frame s i)).trans (State.sansEvent_hold _))
@[simp] theorem State.mgrEvent_por (i : Nat) : (s.mgrEvent i).por = s.por :=
  (State.sansEvent_por _).symm.trans ((congrArg State.por (State.mgrEvent_frame s i)).trans (State.sansEvent_por _))
@[simp] theorem State.mgrEvent_time (i : Nat) : (s.mgrEvent i).time = s.time :=
  (State.sansEvent_time _).symm.trans ((congrArg State.time (State.mgrEvent_frame s i)).trans (State.sansEvent_time _))
@[simp] theorem State.mgrEvent_streams (i : Nat) : (s.mgrEvent i).streams = s.streams :=
  (State.sansEvent_streams _).symm.trans ((congrArg State.streams (State.mgrEvent_frame s i)).trans (State.sansEvent_streams _))
@[simp] theorem State.mgrEvent_engines (i : Nat) : (s.mgrEvent i).engines = s.engines :=
  (State.sansEvent_engines _).symm.trans ((congrArg State.engines (State.mgrEvent_frame s i)).trans (State.sansEvent_engines _))
@[simp] theorem State.mgrEvent_subs (i : Nat) : (s.mgrEvent i).subs = s.subs :=
  (State.sansEvent_subs _).symm.trans ((congrArg State.subs (State.mgrEvent_frame s i)).trans (State.sansEvent_subs _))
@[simp] theorem State.mgrEvent_fabric (i : Nat) : (s.mgrEvent i).fabric = s.fabric :=
  (State.sansEvent_fabric _).symm.trans ((congrArg State.fabric (State.mgrEvent_frame s i)).trans (State.sansEvent_fabric _))
@[simp] theorem State.mgrEvent_pins (i : Nat) : (s.mgrEvent i).pins = s.pins :=
  (State.sansEvent_pins _).symm.trans ((congrArg State.pins (State.mgrEvent_frame s i)).trans (State.sansEvent_pins _))
@[simp] theorem State.mgrEvent_lanes (i : Nat) : (s.mgrEvent i).lanes = s.lanes :=
  (State.sansEvent_lanes _).symm.trans ((congrArg State.lanes (State.mgrEvent_frame s i)).trans (State.sansEvent_lanes _))
@[simp] theorem State.mgrEvent_swcmd (i : Nat) : (s.mgrEvent i).swcmd = s.swcmd :=
  (State.sansEvent_swcmd _).symm.trans ((congrArg State.swcmd (State.mgrEvent_frame s i)).trans (State.sansEvent_swcmd _))
@[simp] theorem State.mgrEvent_chan (i : Nat) : (s.mgrEvent i).chan = s.chan :=
  (State.sansEvent_chan _).symm.trans ((congrArg State.chan (State.mgrEvent_frame s i)).trans (State.sansEvent_chan _))
@[simp] theorem State.mgrEvent_cores (i : Nat) : (s.mgrEvent i).cores = s.cores :=
  (State.sansEvent_cores _).symm.trans ((congrArg State.cores (State.mgrEvent_frame s i)).trans (State.sansEvent_cores _))
@[simp] theorem State.mgrEvent_clusters (i : Nat) : (s.mgrEvent i).clusters = s.clusters :=
  (State.sansEvent_clusters _).symm.trans ((congrArg State.clusters (State.mgrEvent_frame s i)).trans (State.sansEvent_clusters _))
@[simp] theorem State.mgrEvent_taken (i : Nat) : (s.mgrEvent i).taken = s.taken :=
  (State.sansEvent_taken _).symm.trans ((congrArg State.taken (State.mgrEvent_frame s i)).trans (State.sansEvent_taken _))
@[simp] theorem State.mgrEvent_mgmt (i : Nat) : (s.mgrEvent i).mgmt = s.mgmt :=
  (State.sansEvent_mgmt _).symm.trans ((congrArg State.mgmt (State.mgrEvent_frame s i)).trans (State.sansEvent_mgmt _))
@[simp] theorem State.mgrEvent_parts (i : Nat) : (s.mgrEvent i).parts = s.parts :=
  (State.sansEvent_parts _).symm.trans ((congrArg State.parts (State.mgrEvent_frame s i)).trans (State.sansEvent_parts _))
@[simp] theorem State.mgrEvent_owners (i : Nat) : (s.mgrEvent i).owners = s.owners :=
  (State.sansEvent_owners _).symm.trans ((congrArg State.owners (State.mgrEvent_frame s i)).trans (State.sansEvent_owners _))
@[simp] theorem State.mgrEvent_creq (i : Nat) : (s.mgrEvent i).creq = s.creq :=
  (State.sansEvent_creq _).symm.trans ((congrArg State.creq (State.mgrEvent_frame s i)).trans (State.sansEvent_creq _))
@[simp] theorem State.mgrEvent_lps (i : Nat) : (s.mgrEvent i).lps = s.lps :=
  (State.sansEvent_lps _).symm.trans ((congrArg State.lps (State.mgrEvent_frame s i)).trans (State.sansEvent_lps _))
@[simp] theorem State.mgrEvent_doms (i : Nat) : (s.mgrEvent i).doms = s.doms :=
  (State.sansEvent_doms _).symm.trans ((congrArg State.doms (State.mgrEvent_frame s i)).trans (State.sansEvent_doms _))
@[simp] theorem State.mgrEvent_nvs (i : Nat) : (s.mgrEvent i).nvs = s.nvs :=
  (State.sansEvent_nvs _).symm.trans ((congrArg State.nvs (State.mgrEvent_frame s i)).trans (State.sansEvent_nvs _))
@[simp] theorem State.mgrEvent_test (i : Nat) : (s.mgrEvent i).test = s.test :=
  (State.sansEvent_test _).symm.trans ((congrArg State.test (State.mgrEvent_frame s i)).trans (State.sansEvent_test _))
@[simp] theorem State.mgrEvent_ages (i : Nat) : (s.mgrEvent i).ages = s.ages :=
  (State.sansEvent_ages _).symm.trans ((congrArg State.ages (State.mgrEvent_frame s i)).trans (State.sansEvent_ages _))
@[simp] theorem State.mgrEvent_readout (i : Nat) : (s.mgrEvent i).readout = s.readout :=
  (State.sansEvent_readout _).symm.trans ((congrArg State.readout (State.mgrEvent_frame s i)).trans (State.sansEvent_readout _))
@[simp] theorem State.mgrEvent_sec (i : Nat) : (s.mgrEvent i).sec = s.sec :=
  (State.sansEvent_sec _).symm.trans ((congrArg State.sec (State.mgrEvent_frame s i)).trans (State.sansEvent_sec _))
@[simp] theorem State.mgrEvent_arb (i : Nat) : (s.mgrEvent i).arb = s.arb :=
  (State.sansEvent_arb _).symm.trans ((congrArg State.arb (State.mgrEvent_frame s i)).trans (State.sansEvent_arb _))
@[simp] theorem State.mgrEvent_jtag (i : Nat) : (s.mgrEvent i).jtag = s.jtag :=
  (State.sansEvent_jtag _).symm.trans ((congrArg State.jtag (State.mgrEvent_frame s i)).trans (State.sansEvent_jtag _))
/-- logEntry changes no field but outs, pf, regs, mgmt. -/
theorem State.logEntry_frame (v w : Nat) : (s.logEntry v w).sansLog = s.sansLog := by
  unfold State.logEntry; dsimp only
  refine (State.sansLog_of (State.mgrEvent_frame _ _)).trans ?_
  rw [State.fset_sansLog, State.wr_sansLog]; split
  · exact (State.count_sansLog _ _ _).trans (State.withMgmt_sansLog _ _)
  · exact State.withMgmt_sansLog _ _
@[simp] theorem State.logEntry_pending (v w : Nat) : (s.logEntry v w).pending = s.pending :=
  (State.sansLog_pending _).symm.trans ((congrArg State.pending (State.logEntry_frame s v w)).trans (State.sansLog_pending _))
@[simp] theorem State.logEntry_free (v w : Nat) : (s.logEntry v w).free = s.free :=
  (State.sansLog_free _).symm.trans ((congrArg State.free (State.logEntry_frame s v w)).trans (State.sansLog_free _))
@[simp] theorem State.logEntry_hbm (v w : Nat) : (s.logEntry v w).hbm = s.hbm :=
  (State.sansLog_hbm _).symm.trans ((congrArg State.hbm (State.logEntry_frame s v w)).trans (State.sansLog_hbm _))
@[simp] theorem State.logEntry_poison (v w : Nat) : (s.logEntry v w).poison = s.poison :=
  (State.sansLog_poison _).symm.trans ((congrArg State.poison (State.logEntry_frame s v w)).trans (State.sansLog_poison _))
@[simp] theorem State.logEntry_hold (v w : Nat) : (s.logEntry v w).hold = s.hold :=
  (State.sansLog_hold _).symm.trans ((congrArg State.hold (State.logEntry_frame s v w)).trans (State.sansLog_hold _))
@[simp] theorem State.logEntry_por (v w : Nat) : (s.logEntry v w).por = s.por :=
  (State.sansLog_por _).symm.trans ((congrArg State.por (State.logEntry_frame s v w)).trans (State.sansLog_por _))
@[simp] theorem State.logEntry_time (v w : Nat) : (s.logEntry v w).time = s.time :=
  (State.sansLog_time _).symm.trans ((congrArg State.time (State.logEntry_frame s v w)).trans (State.sansLog_time _))
@[simp] theorem State.logEntry_streams (v w : Nat) : (s.logEntry v w).streams = s.streams :=
  (State.sansLog_streams _).symm.trans ((congrArg State.streams (State.logEntry_frame s v w)).trans (State.sansLog_streams _))
@[simp] theorem State.logEntry_engines (v w : Nat) : (s.logEntry v w).engines = s.engines :=
  (State.sansLog_engines _).symm.trans ((congrArg State.engines (State.logEntry_frame s v w)).trans (State.sansLog_engines _))
@[simp] theorem State.logEntry_subs (v w : Nat) : (s.logEntry v w).subs = s.subs :=
  (State.sansLog_subs _).symm.trans ((congrArg State.subs (State.logEntry_frame s v w)).trans (State.sansLog_subs _))
@[simp] theorem State.logEntry_fabric (v w : Nat) : (s.logEntry v w).fabric = s.fabric :=
  (State.sansLog_fabric _).symm.trans ((congrArg State.fabric (State.logEntry_frame s v w)).trans (State.sansLog_fabric _))
@[simp] theorem State.logEntry_pins (v w : Nat) : (s.logEntry v w).pins = s.pins :=
  (State.sansLog_pins _).symm.trans ((congrArg State.pins (State.logEntry_frame s v w)).trans (State.sansLog_pins _))
@[simp] theorem State.logEntry_lanes (v w : Nat) : (s.logEntry v w).lanes = s.lanes :=
  (State.sansLog_lanes _).symm.trans ((congrArg State.lanes (State.logEntry_frame s v w)).trans (State.sansLog_lanes _))
@[simp] theorem State.logEntry_swcmd (v w : Nat) : (s.logEntry v w).swcmd = s.swcmd :=
  (State.sansLog_swcmd _).symm.trans ((congrArg State.swcmd (State.logEntry_frame s v w)).trans (State.sansLog_swcmd _))
@[simp] theorem State.logEntry_chan (v w : Nat) : (s.logEntry v w).chan = s.chan :=
  (State.sansLog_chan _).symm.trans ((congrArg State.chan (State.logEntry_frame s v w)).trans (State.sansLog_chan _))
@[simp] theorem State.logEntry_cores (v w : Nat) : (s.logEntry v w).cores = s.cores :=
  (State.sansLog_cores _).symm.trans ((congrArg State.cores (State.logEntry_frame s v w)).trans (State.sansLog_cores _))
@[simp] theorem State.logEntry_clusters (v w : Nat) : (s.logEntry v w).clusters = s.clusters :=
  (State.sansLog_clusters _).symm.trans ((congrArg State.clusters (State.logEntry_frame s v w)).trans (State.sansLog_clusters _))
@[simp] theorem State.logEntry_taken (v w : Nat) : (s.logEntry v w).taken = s.taken :=
  (State.sansLog_taken _).symm.trans ((congrArg State.taken (State.logEntry_frame s v w)).trans (State.sansLog_taken _))
@[simp] theorem State.logEntry_parts (v w : Nat) : (s.logEntry v w).parts = s.parts :=
  (State.sansLog_parts _).symm.trans ((congrArg State.parts (State.logEntry_frame s v w)).trans (State.sansLog_parts _))
@[simp] theorem State.logEntry_owners (v w : Nat) : (s.logEntry v w).owners = s.owners :=
  (State.sansLog_owners _).symm.trans ((congrArg State.owners (State.logEntry_frame s v w)).trans (State.sansLog_owners _))
@[simp] theorem State.logEntry_creq (v w : Nat) : (s.logEntry v w).creq = s.creq :=
  (State.sansLog_creq _).symm.trans ((congrArg State.creq (State.logEntry_frame s v w)).trans (State.sansLog_creq _))
@[simp] theorem State.logEntry_lps (v w : Nat) : (s.logEntry v w).lps = s.lps :=
  (State.sansLog_lps _).symm.trans ((congrArg State.lps (State.logEntry_frame s v w)).trans (State.sansLog_lps _))
@[simp] theorem State.logEntry_doms (v w : Nat) : (s.logEntry v w).doms = s.doms :=
  (State.sansLog_doms _).symm.trans ((congrArg State.doms (State.logEntry_frame s v w)).trans (State.sansLog_doms _))
@[simp] theorem State.logEntry_nvs (v w : Nat) : (s.logEntry v w).nvs = s.nvs :=
  (State.sansLog_nvs _).symm.trans ((congrArg State.nvs (State.logEntry_frame s v w)).trans (State.sansLog_nvs _))
@[simp] theorem State.logEntry_test (v w : Nat) : (s.logEntry v w).test = s.test :=
  (State.sansLog_test _).symm.trans ((congrArg State.test (State.logEntry_frame s v w)).trans (State.sansLog_test _))
@[simp] theorem State.logEntry_ages (v w : Nat) : (s.logEntry v w).ages = s.ages :=
  (State.sansLog_ages _).symm.trans ((congrArg State.ages (State.logEntry_frame s v w)).trans (State.sansLog_ages _))
@[simp] theorem State.logEntry_readout (v w : Nat) : (s.logEntry v w).readout = s.readout :=
  (State.sansLog_readout _).symm.trans ((congrArg State.readout (State.logEntry_frame s v w)).trans (State.sansLog_readout _))
@[simp] theorem State.logEntry_sec (v w : Nat) : (s.logEntry v w).sec = s.sec :=
  (State.sansLog_sec _).symm.trans ((congrArg State.sec (State.logEntry_frame s v w)).trans (State.sansLog_sec _))
@[simp] theorem State.logEntry_arb (v w : Nat) : (s.logEntry v w).arb = s.arb :=
  (State.sansLog_arb _).symm.trans ((congrArg State.arb (State.logEntry_frame s v w)).trans (State.sansLog_arb _))
@[simp] theorem State.logEntry_jtag (v w : Nat) : (s.logEntry v w).jtag = s.jtag :=
  (State.sansLog_jtag _).symm.trans ((congrArg State.jtag (State.logEntry_frame s v w)).trans (State.sansLog_jtag _))
/-- errLog changes no field but outs, pf, regs, mgmt. -/
theorem State.errLog_frame (st src : Nat) (pn : Option Nat) (i : Nat) : (s.errLog st src pn i).sansLog = s.sansLog := by
  exact State.logEntry_frame s _ _
@[simp] theorem State.errLog_pending (st src : Nat) (pn : Option Nat) (i : Nat) : (s.errLog st src pn i).pending = s.pending :=
  (State.sansLog_pending _).symm.trans ((congrArg State.pending (State.errLog_frame s st src pn i)).trans (State.sansLog_pending _))
@[simp] theorem State.errLog_free (st src : Nat) (pn : Option Nat) (i : Nat) : (s.errLog st src pn i).free = s.free :=
  (State.sansLog_free _).symm.trans ((congrArg State.free (State.errLog_frame s st src pn i)).trans (State.sansLog_free _))
@[simp] theorem State.errLog_hbm (st src : Nat) (pn : Option Nat) (i : Nat) : (s.errLog st src pn i).hbm = s.hbm :=
  (State.sansLog_hbm _).symm.trans ((congrArg State.hbm (State.errLog_frame s st src pn i)).trans (State.sansLog_hbm _))
@[simp] theorem State.errLog_poison (st src : Nat) (pn : Option Nat) (i : Nat) : (s.errLog st src pn i).poison = s.poison :=
  (State.sansLog_poison _).symm.trans ((congrArg State.poison (State.errLog_frame s st src pn i)).trans (State.sansLog_poison _))
@[simp] theorem State.errLog_hold (st src : Nat) (pn : Option Nat) (i : Nat) : (s.errLog st src pn i).hold = s.hold :=
  (State.sansLog_hold _).symm.trans ((congrArg State.hold (State.errLog_frame s st src pn i)).trans (State.sansLog_hold _))
@[simp] theorem State.errLog_por (st src : Nat) (pn : Option Nat) (i : Nat) : (s.errLog st src pn i).por = s.por :=
  (State.sansLog_por _).symm.trans ((congrArg State.por (State.errLog_frame s st src pn i)).trans (State.sansLog_por _))
@[simp] theorem State.errLog_time (st src : Nat) (pn : Option Nat) (i : Nat) : (s.errLog st src pn i).time = s.time :=
  (State.sansLog_time _).symm.trans ((congrArg State.time (State.errLog_frame s st src pn i)).trans (State.sansLog_time _))
@[simp] theorem State.errLog_streams (st src : Nat) (pn : Option Nat) (i : Nat) : (s.errLog st src pn i).streams = s.streams :=
  (State.sansLog_streams _).symm.trans ((congrArg State.streams (State.errLog_frame s st src pn i)).trans (State.sansLog_streams _))
@[simp] theorem State.errLog_engines (st src : Nat) (pn : Option Nat) (i : Nat) : (s.errLog st src pn i).engines = s.engines :=
  (State.sansLog_engines _).symm.trans ((congrArg State.engines (State.errLog_frame s st src pn i)).trans (State.sansLog_engines _))
@[simp] theorem State.errLog_subs (st src : Nat) (pn : Option Nat) (i : Nat) : (s.errLog st src pn i).subs = s.subs :=
  (State.sansLog_subs _).symm.trans ((congrArg State.subs (State.errLog_frame s st src pn i)).trans (State.sansLog_subs _))
@[simp] theorem State.errLog_fabric (st src : Nat) (pn : Option Nat) (i : Nat) : (s.errLog st src pn i).fabric = s.fabric :=
  (State.sansLog_fabric _).symm.trans ((congrArg State.fabric (State.errLog_frame s st src pn i)).trans (State.sansLog_fabric _))
@[simp] theorem State.errLog_pins (st src : Nat) (pn : Option Nat) (i : Nat) : (s.errLog st src pn i).pins = s.pins :=
  (State.sansLog_pins _).symm.trans ((congrArg State.pins (State.errLog_frame s st src pn i)).trans (State.sansLog_pins _))
@[simp] theorem State.errLog_lanes (st src : Nat) (pn : Option Nat) (i : Nat) : (s.errLog st src pn i).lanes = s.lanes :=
  (State.sansLog_lanes _).symm.trans ((congrArg State.lanes (State.errLog_frame s st src pn i)).trans (State.sansLog_lanes _))
@[simp] theorem State.errLog_swcmd (st src : Nat) (pn : Option Nat) (i : Nat) : (s.errLog st src pn i).swcmd = s.swcmd :=
  (State.sansLog_swcmd _).symm.trans ((congrArg State.swcmd (State.errLog_frame s st src pn i)).trans (State.sansLog_swcmd _))
@[simp] theorem State.errLog_chan (st src : Nat) (pn : Option Nat) (i : Nat) : (s.errLog st src pn i).chan = s.chan :=
  (State.sansLog_chan _).symm.trans ((congrArg State.chan (State.errLog_frame s st src pn i)).trans (State.sansLog_chan _))
@[simp] theorem State.errLog_cores (st src : Nat) (pn : Option Nat) (i : Nat) : (s.errLog st src pn i).cores = s.cores :=
  (State.sansLog_cores _).symm.trans ((congrArg State.cores (State.errLog_frame s st src pn i)).trans (State.sansLog_cores _))
@[simp] theorem State.errLog_clusters (st src : Nat) (pn : Option Nat) (i : Nat) : (s.errLog st src pn i).clusters = s.clusters :=
  (State.sansLog_clusters _).symm.trans ((congrArg State.clusters (State.errLog_frame s st src pn i)).trans (State.sansLog_clusters _))
@[simp] theorem State.errLog_taken (st src : Nat) (pn : Option Nat) (i : Nat) : (s.errLog st src pn i).taken = s.taken :=
  (State.sansLog_taken _).symm.trans ((congrArg State.taken (State.errLog_frame s st src pn i)).trans (State.sansLog_taken _))
@[simp] theorem State.errLog_parts (st src : Nat) (pn : Option Nat) (i : Nat) : (s.errLog st src pn i).parts = s.parts :=
  (State.sansLog_parts _).symm.trans ((congrArg State.parts (State.errLog_frame s st src pn i)).trans (State.sansLog_parts _))
@[simp] theorem State.errLog_owners (st src : Nat) (pn : Option Nat) (i : Nat) : (s.errLog st src pn i).owners = s.owners :=
  (State.sansLog_owners _).symm.trans ((congrArg State.owners (State.errLog_frame s st src pn i)).trans (State.sansLog_owners _))
@[simp] theorem State.errLog_creq (st src : Nat) (pn : Option Nat) (i : Nat) : (s.errLog st src pn i).creq = s.creq :=
  (State.sansLog_creq _).symm.trans ((congrArg State.creq (State.errLog_frame s st src pn i)).trans (State.sansLog_creq _))
@[simp] theorem State.errLog_lps (st src : Nat) (pn : Option Nat) (i : Nat) : (s.errLog st src pn i).lps = s.lps :=
  (State.sansLog_lps _).symm.trans ((congrArg State.lps (State.errLog_frame s st src pn i)).trans (State.sansLog_lps _))
@[simp] theorem State.errLog_doms (st src : Nat) (pn : Option Nat) (i : Nat) : (s.errLog st src pn i).doms = s.doms :=
  (State.sansLog_doms _).symm.trans ((congrArg State.doms (State.errLog_frame s st src pn i)).trans (State.sansLog_doms _))
@[simp] theorem State.errLog_nvs (st src : Nat) (pn : Option Nat) (i : Nat) : (s.errLog st src pn i).nvs = s.nvs :=
  (State.sansLog_nvs _).symm.trans ((congrArg State.nvs (State.errLog_frame s st src pn i)).trans (State.sansLog_nvs _))
@[simp] theorem State.errLog_test (st src : Nat) (pn : Option Nat) (i : Nat) : (s.errLog st src pn i).test = s.test :=
  (State.sansLog_test _).symm.trans ((congrArg State.test (State.errLog_frame s st src pn i)).trans (State.sansLog_test _))
@[simp] theorem State.errLog_ages (st src : Nat) (pn : Option Nat) (i : Nat) : (s.errLog st src pn i).ages = s.ages :=
  (State.sansLog_ages _).symm.trans ((congrArg State.ages (State.errLog_frame s st src pn i)).trans (State.sansLog_ages _))
@[simp] theorem State.errLog_readout (st src : Nat) (pn : Option Nat) (i : Nat) : (s.errLog st src pn i).readout = s.readout :=
  (State.sansLog_readout _).symm.trans ((congrArg State.readout (State.errLog_frame s st src pn i)).trans (State.sansLog_readout _))
@[simp] theorem State.errLog_sec (st src : Nat) (pn : Option Nat) (i : Nat) : (s.errLog st src pn i).sec = s.sec :=
  (State.sansLog_sec _).symm.trans ((congrArg State.sec (State.errLog_frame s st src pn i)).trans (State.sansLog_sec _))
@[simp] theorem State.errLog_arb (st src : Nat) (pn : Option Nat) (i : Nat) : (s.errLog st src pn i).arb = s.arb :=
  (State.sansLog_arb _).symm.trans ((congrArg State.arb (State.errLog_frame s st src pn i)).trans (State.sansLog_arb _))
@[simp] theorem State.errLog_jtag (st src : Nat) (pn : Option Nat) (i : Nat) : (s.errLog st src pn i).jtag = s.jtag :=
  (State.sansLog_jtag _).symm.trans ((congrArg State.jtag (State.errLog_frame s st src pn i)).trans (State.sansLog_jtag _))
/-- wearControl changes no field but nvs. -/
theorem State.wearControl_frame  : (s.wearControl).sansNvs = s.sansNvs := by
  exact State.withNvs_sansNvs _ _
@[simp] theorem State.wearControl_pending  : (s.wearControl).pending = s.pending :=
  (State.sansNvs_pending _).symm.trans ((congrArg State.pending (State.wearControl_frame s )).trans (State.sansNvs_pending _))
@[simp] theorem State.wearControl_free  : (s.wearControl).free = s.free :=
  (State.sansNvs_free _).symm.trans ((congrArg State.free (State.wearControl_frame s )).trans (State.sansNvs_free _))
@[simp] theorem State.wearControl_regs  : (s.wearControl).regs = s.regs :=
  (State.sansNvs_regs _).symm.trans ((congrArg State.regs (State.wearControl_frame s )).trans (State.sansNvs_regs _))
@[simp] theorem State.wearControl_hbm  : (s.wearControl).hbm = s.hbm :=
  (State.sansNvs_hbm _).symm.trans ((congrArg State.hbm (State.wearControl_frame s )).trans (State.sansNvs_hbm _))
@[simp] theorem State.wearControl_poison  : (s.wearControl).poison = s.poison :=
  (State.sansNvs_poison _).symm.trans ((congrArg State.poison (State.wearControl_frame s )).trans (State.sansNvs_poison _))
@[simp] theorem State.wearControl_outs  : (s.wearControl).outs = s.outs :=
  (State.sansNvs_outs _).symm.trans ((congrArg State.outs (State.wearControl_frame s )).trans (State.sansNvs_outs _))
@[simp] theorem State.wearControl_hold  : (s.wearControl).hold = s.hold :=
  (State.sansNvs_hold _).symm.trans ((congrArg State.hold (State.wearControl_frame s )).trans (State.sansNvs_hold _))
@[simp] theorem State.wearControl_por  : (s.wearControl).por = s.por :=
  (State.sansNvs_por _).symm.trans ((congrArg State.por (State.wearControl_frame s )).trans (State.sansNvs_por _))
@[simp] theorem State.wearControl_time  : (s.wearControl).time = s.time :=
  (State.sansNvs_time _).symm.trans ((congrArg State.time (State.wearControl_frame s )).trans (State.sansNvs_time _))
@[simp] theorem State.wearControl_streams  : (s.wearControl).streams = s.streams :=
  (State.sansNvs_streams _).symm.trans ((congrArg State.streams (State.wearControl_frame s )).trans (State.sansNvs_streams _))
@[simp] theorem State.wearControl_engines  : (s.wearControl).engines = s.engines :=
  (State.sansNvs_engines _).symm.trans ((congrArg State.engines (State.wearControl_frame s )).trans (State.sansNvs_engines _))
@[simp] theorem State.wearControl_subs  : (s.wearControl).subs = s.subs :=
  (State.sansNvs_subs _).symm.trans ((congrArg State.subs (State.wearControl_frame s )).trans (State.sansNvs_subs _))
@[simp] theorem State.wearControl_fabric  : (s.wearControl).fabric = s.fabric :=
  (State.sansNvs_fabric _).symm.trans ((congrArg State.fabric (State.wearControl_frame s )).trans (State.sansNvs_fabric _))
@[simp] theorem State.wearControl_pins  : (s.wearControl).pins = s.pins :=
  (State.sansNvs_pins _).symm.trans ((congrArg State.pins (State.wearControl_frame s )).trans (State.sansNvs_pins _))
@[simp] theorem State.wearControl_lanes  : (s.wearControl).lanes = s.lanes :=
  (State.sansNvs_lanes _).symm.trans ((congrArg State.lanes (State.wearControl_frame s )).trans (State.sansNvs_lanes _))
@[simp] theorem State.wearControl_swcmd  : (s.wearControl).swcmd = s.swcmd :=
  (State.sansNvs_swcmd _).symm.trans ((congrArg State.swcmd (State.wearControl_frame s )).trans (State.sansNvs_swcmd _))
@[simp] theorem State.wearControl_chan  : (s.wearControl).chan = s.chan :=
  (State.sansNvs_chan _).symm.trans ((congrArg State.chan (State.wearControl_frame s )).trans (State.sansNvs_chan _))
@[simp] theorem State.wearControl_cores  : (s.wearControl).cores = s.cores :=
  (State.sansNvs_cores _).symm.trans ((congrArg State.cores (State.wearControl_frame s )).trans (State.sansNvs_cores _))
@[simp] theorem State.wearControl_clusters  : (s.wearControl).clusters = s.clusters :=
  (State.sansNvs_clusters _).symm.trans ((congrArg State.clusters (State.wearControl_frame s )).trans (State.sansNvs_clusters _))
@[simp] theorem State.wearControl_taken  : (s.wearControl).taken = s.taken :=
  (State.sansNvs_taken _).symm.trans ((congrArg State.taken (State.wearControl_frame s )).trans (State.sansNvs_taken _))
@[simp] theorem State.wearControl_mgmt  : (s.wearControl).mgmt = s.mgmt :=
  (State.sansNvs_mgmt _).symm.trans ((congrArg State.mgmt (State.wearControl_frame s )).trans (State.sansNvs_mgmt _))
@[simp] theorem State.wearControl_pf  : (s.wearControl).pf = s.pf :=
  (State.sansNvs_pf _).symm.trans ((congrArg State.pf (State.wearControl_frame s )).trans (State.sansNvs_pf _))
@[simp] theorem State.wearControl_parts  : (s.wearControl).parts = s.parts :=
  (State.sansNvs_parts _).symm.trans ((congrArg State.parts (State.wearControl_frame s )).trans (State.sansNvs_parts _))
@[simp] theorem State.wearControl_owners  : (s.wearControl).owners = s.owners :=
  (State.sansNvs_owners _).symm.trans ((congrArg State.owners (State.wearControl_frame s )).trans (State.sansNvs_owners _))
@[simp] theorem State.wearControl_creq  : (s.wearControl).creq = s.creq :=
  (State.sansNvs_creq _).symm.trans ((congrArg State.creq (State.wearControl_frame s )).trans (State.sansNvs_creq _))
@[simp] theorem State.wearControl_lps  : (s.wearControl).lps = s.lps :=
  (State.sansNvs_lps _).symm.trans ((congrArg State.lps (State.wearControl_frame s )).trans (State.sansNvs_lps _))
@[simp] theorem State.wearControl_doms  : (s.wearControl).doms = s.doms :=
  (State.sansNvs_doms _).symm.trans ((congrArg State.doms (State.wearControl_frame s )).trans (State.sansNvs_doms _))
@[simp] theorem State.wearControl_test  : (s.wearControl).test = s.test :=
  (State.sansNvs_test _).symm.trans ((congrArg State.test (State.wearControl_frame s )).trans (State.sansNvs_test _))
@[simp] theorem State.wearControl_ages  : (s.wearControl).ages = s.ages :=
  (State.sansNvs_ages _).symm.trans ((congrArg State.ages (State.wearControl_frame s )).trans (State.sansNvs_ages _))
@[simp] theorem State.wearControl_readout  : (s.wearControl).readout = s.readout :=
  (State.sansNvs_readout _).symm.trans ((congrArg State.readout (State.wearControl_frame s )).trans (State.sansNvs_readout _))
@[simp] theorem State.wearControl_sec  : (s.wearControl).sec = s.sec :=
  (State.sansNvs_sec _).symm.trans ((congrArg State.sec (State.wearControl_frame s )).trans (State.sansNvs_sec _))
@[simp] theorem State.wearControl_arb  : (s.wearControl).arb = s.arb :=
  (State.sansNvs_arb _).symm.trans ((congrArg State.arb (State.wearControl_frame s )).trans (State.sansNvs_arb _))
@[simp] theorem State.wearControl_jtag  : (s.wearControl).jtag = s.jtag :=
  (State.sansNvs_jtag _).symm.trans ((congrArg State.jtag (State.wearControl_frame s )).trans (State.sansNvs_jtag _))
/-- setInactive changes no field but nvs. -/
theorem State.setInactive_frame (b : NvsBank) : (s.setInactive b).sansNvs = s.sansNvs := by
  unfold State.setInactive; split <;> exact State.withNvs_sansNvs _ _
@[simp] theorem State.setInactive_pending (b : NvsBank) : (s.setInactive b).pending = s.pending :=
  (State.sansNvs_pending _).symm.trans ((congrArg State.pending (State.setInactive_frame s b)).trans (State.sansNvs_pending _))
@[simp] theorem State.setInactive_free (b : NvsBank) : (s.setInactive b).free = s.free :=
  (State.sansNvs_free _).symm.trans ((congrArg State.free (State.setInactive_frame s b)).trans (State.sansNvs_free _))
@[simp] theorem State.setInactive_regs (b : NvsBank) : (s.setInactive b).regs = s.regs :=
  (State.sansNvs_regs _).symm.trans ((congrArg State.regs (State.setInactive_frame s b)).trans (State.sansNvs_regs _))
@[simp] theorem State.setInactive_hbm (b : NvsBank) : (s.setInactive b).hbm = s.hbm :=
  (State.sansNvs_hbm _).symm.trans ((congrArg State.hbm (State.setInactive_frame s b)).trans (State.sansNvs_hbm _))
@[simp] theorem State.setInactive_poison (b : NvsBank) : (s.setInactive b).poison = s.poison :=
  (State.sansNvs_poison _).symm.trans ((congrArg State.poison (State.setInactive_frame s b)).trans (State.sansNvs_poison _))
@[simp] theorem State.setInactive_outs (b : NvsBank) : (s.setInactive b).outs = s.outs :=
  (State.sansNvs_outs _).symm.trans ((congrArg State.outs (State.setInactive_frame s b)).trans (State.sansNvs_outs _))
@[simp] theorem State.setInactive_hold (b : NvsBank) : (s.setInactive b).hold = s.hold :=
  (State.sansNvs_hold _).symm.trans ((congrArg State.hold (State.setInactive_frame s b)).trans (State.sansNvs_hold _))
@[simp] theorem State.setInactive_por (b : NvsBank) : (s.setInactive b).por = s.por :=
  (State.sansNvs_por _).symm.trans ((congrArg State.por (State.setInactive_frame s b)).trans (State.sansNvs_por _))
@[simp] theorem State.setInactive_time (b : NvsBank) : (s.setInactive b).time = s.time :=
  (State.sansNvs_time _).symm.trans ((congrArg State.time (State.setInactive_frame s b)).trans (State.sansNvs_time _))
@[simp] theorem State.setInactive_streams (b : NvsBank) : (s.setInactive b).streams = s.streams :=
  (State.sansNvs_streams _).symm.trans ((congrArg State.streams (State.setInactive_frame s b)).trans (State.sansNvs_streams _))
@[simp] theorem State.setInactive_engines (b : NvsBank) : (s.setInactive b).engines = s.engines :=
  (State.sansNvs_engines _).symm.trans ((congrArg State.engines (State.setInactive_frame s b)).trans (State.sansNvs_engines _))
@[simp] theorem State.setInactive_subs (b : NvsBank) : (s.setInactive b).subs = s.subs :=
  (State.sansNvs_subs _).symm.trans ((congrArg State.subs (State.setInactive_frame s b)).trans (State.sansNvs_subs _))
@[simp] theorem State.setInactive_fabric (b : NvsBank) : (s.setInactive b).fabric = s.fabric :=
  (State.sansNvs_fabric _).symm.trans ((congrArg State.fabric (State.setInactive_frame s b)).trans (State.sansNvs_fabric _))
@[simp] theorem State.setInactive_pins (b : NvsBank) : (s.setInactive b).pins = s.pins :=
  (State.sansNvs_pins _).symm.trans ((congrArg State.pins (State.setInactive_frame s b)).trans (State.sansNvs_pins _))
@[simp] theorem State.setInactive_lanes (b : NvsBank) : (s.setInactive b).lanes = s.lanes :=
  (State.sansNvs_lanes _).symm.trans ((congrArg State.lanes (State.setInactive_frame s b)).trans (State.sansNvs_lanes _))
@[simp] theorem State.setInactive_swcmd (b : NvsBank) : (s.setInactive b).swcmd = s.swcmd :=
  (State.sansNvs_swcmd _).symm.trans ((congrArg State.swcmd (State.setInactive_frame s b)).trans (State.sansNvs_swcmd _))
@[simp] theorem State.setInactive_chan (b : NvsBank) : (s.setInactive b).chan = s.chan :=
  (State.sansNvs_chan _).symm.trans ((congrArg State.chan (State.setInactive_frame s b)).trans (State.sansNvs_chan _))
@[simp] theorem State.setInactive_cores (b : NvsBank) : (s.setInactive b).cores = s.cores :=
  (State.sansNvs_cores _).symm.trans ((congrArg State.cores (State.setInactive_frame s b)).trans (State.sansNvs_cores _))
@[simp] theorem State.setInactive_clusters (b : NvsBank) : (s.setInactive b).clusters = s.clusters :=
  (State.sansNvs_clusters _).symm.trans ((congrArg State.clusters (State.setInactive_frame s b)).trans (State.sansNvs_clusters _))
@[simp] theorem State.setInactive_taken (b : NvsBank) : (s.setInactive b).taken = s.taken :=
  (State.sansNvs_taken _).symm.trans ((congrArg State.taken (State.setInactive_frame s b)).trans (State.sansNvs_taken _))
@[simp] theorem State.setInactive_mgmt (b : NvsBank) : (s.setInactive b).mgmt = s.mgmt :=
  (State.sansNvs_mgmt _).symm.trans ((congrArg State.mgmt (State.setInactive_frame s b)).trans (State.sansNvs_mgmt _))
@[simp] theorem State.setInactive_pf (b : NvsBank) : (s.setInactive b).pf = s.pf :=
  (State.sansNvs_pf _).symm.trans ((congrArg State.pf (State.setInactive_frame s b)).trans (State.sansNvs_pf _))
@[simp] theorem State.setInactive_parts (b : NvsBank) : (s.setInactive b).parts = s.parts :=
  (State.sansNvs_parts _).symm.trans ((congrArg State.parts (State.setInactive_frame s b)).trans (State.sansNvs_parts _))
@[simp] theorem State.setInactive_owners (b : NvsBank) : (s.setInactive b).owners = s.owners :=
  (State.sansNvs_owners _).symm.trans ((congrArg State.owners (State.setInactive_frame s b)).trans (State.sansNvs_owners _))
@[simp] theorem State.setInactive_creq (b : NvsBank) : (s.setInactive b).creq = s.creq :=
  (State.sansNvs_creq _).symm.trans ((congrArg State.creq (State.setInactive_frame s b)).trans (State.sansNvs_creq _))
@[simp] theorem State.setInactive_lps (b : NvsBank) : (s.setInactive b).lps = s.lps :=
  (State.sansNvs_lps _).symm.trans ((congrArg State.lps (State.setInactive_frame s b)).trans (State.sansNvs_lps _))
@[simp] theorem State.setInactive_doms (b : NvsBank) : (s.setInactive b).doms = s.doms :=
  (State.sansNvs_doms _).symm.trans ((congrArg State.doms (State.setInactive_frame s b)).trans (State.sansNvs_doms _))
@[simp] theorem State.setInactive_test (b : NvsBank) : (s.setInactive b).test = s.test :=
  (State.sansNvs_test _).symm.trans ((congrArg State.test (State.setInactive_frame s b)).trans (State.sansNvs_test _))
@[simp] theorem State.setInactive_ages (b : NvsBank) : (s.setInactive b).ages = s.ages :=
  (State.sansNvs_ages _).symm.trans ((congrArg State.ages (State.setInactive_frame s b)).trans (State.sansNvs_ages _))
@[simp] theorem State.setInactive_readout (b : NvsBank) : (s.setInactive b).readout = s.readout :=
  (State.sansNvs_readout _).symm.trans ((congrArg State.readout (State.setInactive_frame s b)).trans (State.sansNvs_readout _))
@[simp] theorem State.setInactive_sec (b : NvsBank) : (s.setInactive b).sec = s.sec :=
  (State.sansNvs_sec _).symm.trans ((congrArg State.sec (State.setInactive_frame s b)).trans (State.sansNvs_sec _))
@[simp] theorem State.setInactive_arb (b : NvsBank) : (s.setInactive b).arb = s.arb :=
  (State.sansNvs_arb _).symm.trans ((congrArg State.arb (State.setInactive_frame s b)).trans (State.sansNvs_arb _))
@[simp] theorem State.setInactive_jtag (b : NvsBank) : (s.setInactive b).jtag = s.jtag :=
  (State.sansNvs_jtag _).symm.trans ((congrArg State.jtag (State.setInactive_frame s b)).trans (State.sansNvs_jtag _))
/-- storeSwitch changes no field but nvs, regs. -/
theorem State.storeSwitch_frame (l : List Word) : (s.storeSwitch l).sansStore = s.sansStore := by
  unfold State.storeSwitch State.wearControl; dsimp only
  rw [State.wr64_sansStore, State.fset_sansStore, State.withNvs_sansStore, State.withNvs_sansStore, State.withNvs_sansStore]
  exact State.sansStore_of (State.setInactive_frame _ _)
@[simp] theorem State.storeSwitch_pending (l : List Word) : (s.storeSwitch l).pending = s.pending :=
  (State.sansStore_pending _).symm.trans ((congrArg State.pending (State.storeSwitch_frame s l)).trans (State.sansStore_pending _))
@[simp] theorem State.storeSwitch_free (l : List Word) : (s.storeSwitch l).free = s.free :=
  (State.sansStore_free _).symm.trans ((congrArg State.free (State.storeSwitch_frame s l)).trans (State.sansStore_free _))
@[simp] theorem State.storeSwitch_hbm (l : List Word) : (s.storeSwitch l).hbm = s.hbm :=
  (State.sansStore_hbm _).symm.trans ((congrArg State.hbm (State.storeSwitch_frame s l)).trans (State.sansStore_hbm _))
@[simp] theorem State.storeSwitch_poison (l : List Word) : (s.storeSwitch l).poison = s.poison :=
  (State.sansStore_poison _).symm.trans ((congrArg State.poison (State.storeSwitch_frame s l)).trans (State.sansStore_poison _))
@[simp] theorem State.storeSwitch_outs (l : List Word) : (s.storeSwitch l).outs = s.outs :=
  (State.sansStore_outs _).symm.trans ((congrArg State.outs (State.storeSwitch_frame s l)).trans (State.sansStore_outs _))
@[simp] theorem State.storeSwitch_hold (l : List Word) : (s.storeSwitch l).hold = s.hold :=
  (State.sansStore_hold _).symm.trans ((congrArg State.hold (State.storeSwitch_frame s l)).trans (State.sansStore_hold _))
@[simp] theorem State.storeSwitch_por (l : List Word) : (s.storeSwitch l).por = s.por :=
  (State.sansStore_por _).symm.trans ((congrArg State.por (State.storeSwitch_frame s l)).trans (State.sansStore_por _))
@[simp] theorem State.storeSwitch_time (l : List Word) : (s.storeSwitch l).time = s.time :=
  (State.sansStore_time _).symm.trans ((congrArg State.time (State.storeSwitch_frame s l)).trans (State.sansStore_time _))
@[simp] theorem State.storeSwitch_streams (l : List Word) : (s.storeSwitch l).streams = s.streams :=
  (State.sansStore_streams _).symm.trans ((congrArg State.streams (State.storeSwitch_frame s l)).trans (State.sansStore_streams _))
@[simp] theorem State.storeSwitch_engines (l : List Word) : (s.storeSwitch l).engines = s.engines :=
  (State.sansStore_engines _).symm.trans ((congrArg State.engines (State.storeSwitch_frame s l)).trans (State.sansStore_engines _))
@[simp] theorem State.storeSwitch_subs (l : List Word) : (s.storeSwitch l).subs = s.subs :=
  (State.sansStore_subs _).symm.trans ((congrArg State.subs (State.storeSwitch_frame s l)).trans (State.sansStore_subs _))
@[simp] theorem State.storeSwitch_fabric (l : List Word) : (s.storeSwitch l).fabric = s.fabric :=
  (State.sansStore_fabric _).symm.trans ((congrArg State.fabric (State.storeSwitch_frame s l)).trans (State.sansStore_fabric _))
@[simp] theorem State.storeSwitch_pins (l : List Word) : (s.storeSwitch l).pins = s.pins :=
  (State.sansStore_pins _).symm.trans ((congrArg State.pins (State.storeSwitch_frame s l)).trans (State.sansStore_pins _))
@[simp] theorem State.storeSwitch_lanes (l : List Word) : (s.storeSwitch l).lanes = s.lanes :=
  (State.sansStore_lanes _).symm.trans ((congrArg State.lanes (State.storeSwitch_frame s l)).trans (State.sansStore_lanes _))
@[simp] theorem State.storeSwitch_swcmd (l : List Word) : (s.storeSwitch l).swcmd = s.swcmd :=
  (State.sansStore_swcmd _).symm.trans ((congrArg State.swcmd (State.storeSwitch_frame s l)).trans (State.sansStore_swcmd _))
@[simp] theorem State.storeSwitch_chan (l : List Word) : (s.storeSwitch l).chan = s.chan :=
  (State.sansStore_chan _).symm.trans ((congrArg State.chan (State.storeSwitch_frame s l)).trans (State.sansStore_chan _))
@[simp] theorem State.storeSwitch_cores (l : List Word) : (s.storeSwitch l).cores = s.cores :=
  (State.sansStore_cores _).symm.trans ((congrArg State.cores (State.storeSwitch_frame s l)).trans (State.sansStore_cores _))
@[simp] theorem State.storeSwitch_clusters (l : List Word) : (s.storeSwitch l).clusters = s.clusters :=
  (State.sansStore_clusters _).symm.trans ((congrArg State.clusters (State.storeSwitch_frame s l)).trans (State.sansStore_clusters _))
@[simp] theorem State.storeSwitch_taken (l : List Word) : (s.storeSwitch l).taken = s.taken :=
  (State.sansStore_taken _).symm.trans ((congrArg State.taken (State.storeSwitch_frame s l)).trans (State.sansStore_taken _))
@[simp] theorem State.storeSwitch_mgmt (l : List Word) : (s.storeSwitch l).mgmt = s.mgmt :=
  (State.sansStore_mgmt _).symm.trans ((congrArg State.mgmt (State.storeSwitch_frame s l)).trans (State.sansStore_mgmt _))
@[simp] theorem State.storeSwitch_pf (l : List Word) : (s.storeSwitch l).pf = s.pf :=
  (State.sansStore_pf _).symm.trans ((congrArg State.pf (State.storeSwitch_frame s l)).trans (State.sansStore_pf _))
@[simp] theorem State.storeSwitch_parts (l : List Word) : (s.storeSwitch l).parts = s.parts :=
  (State.sansStore_parts _).symm.trans ((congrArg State.parts (State.storeSwitch_frame s l)).trans (State.sansStore_parts _))
@[simp] theorem State.storeSwitch_owners (l : List Word) : (s.storeSwitch l).owners = s.owners :=
  (State.sansStore_owners _).symm.trans ((congrArg State.owners (State.storeSwitch_frame s l)).trans (State.sansStore_owners _))
@[simp] theorem State.storeSwitch_creq (l : List Word) : (s.storeSwitch l).creq = s.creq :=
  (State.sansStore_creq _).symm.trans ((congrArg State.creq (State.storeSwitch_frame s l)).trans (State.sansStore_creq _))
@[simp] theorem State.storeSwitch_lps (l : List Word) : (s.storeSwitch l).lps = s.lps :=
  (State.sansStore_lps _).symm.trans ((congrArg State.lps (State.storeSwitch_frame s l)).trans (State.sansStore_lps _))
@[simp] theorem State.storeSwitch_doms (l : List Word) : (s.storeSwitch l).doms = s.doms :=
  (State.sansStore_doms _).symm.trans ((congrArg State.doms (State.storeSwitch_frame s l)).trans (State.sansStore_doms _))
@[simp] theorem State.storeSwitch_test (l : List Word) : (s.storeSwitch l).test = s.test :=
  (State.sansStore_test _).symm.trans ((congrArg State.test (State.storeSwitch_frame s l)).trans (State.sansStore_test _))
@[simp] theorem State.storeSwitch_ages (l : List Word) : (s.storeSwitch l).ages = s.ages :=
  (State.sansStore_ages _).symm.trans ((congrArg State.ages (State.storeSwitch_frame s l)).trans (State.sansStore_ages _))
@[simp] theorem State.storeSwitch_readout (l : List Word) : (s.storeSwitch l).readout = s.readout :=
  (State.sansStore_readout _).symm.trans ((congrArg State.readout (State.storeSwitch_frame s l)).trans (State.sansStore_readout _))
@[simp] theorem State.storeSwitch_sec (l : List Word) : (s.storeSwitch l).sec = s.sec :=
  (State.sansStore_sec _).symm.trans ((congrArg State.sec (State.storeSwitch_frame s l)).trans (State.sansStore_sec _))
@[simp] theorem State.storeSwitch_arb (l : List Word) : (s.storeSwitch l).arb = s.arb :=
  (State.sansStore_arb _).symm.trans ((congrArg State.arb (State.storeSwitch_frame s l)).trans (State.sansStore_arb _))
@[simp] theorem State.storeSwitch_jtag (l : List Word) : (s.storeSwitch l).jtag = s.jtag :=
  (State.sansStore_jtag _).symm.trans ((congrArg State.jtag (State.storeSwitch_frame s l)).trans (State.sansStore_jtag _))
/-- storeAbandon changes no field but nvs, regs, free. -/
theorem State.storeAbandon_frame  : (s.storeAbandon).sansAbandon = s.sansAbandon := by
  unfold State.storeAbandon; split
  · next l _ =>
    dsimp only [State.draw]
    rw [State.withNvs_sansAbandon]; split
    · exact (State.sansAbandon_of (State.storeSwitch_frame _ _)).trans (State.withFree_sansAbandon _ _)
    · exact (State.sansAbandon_of (State.sansStore_of (State.setInactive_frame _ _))).trans (State.withFree_sansAbandon _ _)
  · rfl
@[simp] theorem State.storeAbandon_pending  : (s.storeAbandon).pending = s.pending :=
  (State.sansAbandon_pending _).symm.trans ((congrArg State.pending (State.storeAbandon_frame s )).trans (State.sansAbandon_pending _))
@[simp] theorem State.storeAbandon_hbm  : (s.storeAbandon).hbm = s.hbm :=
  (State.sansAbandon_hbm _).symm.trans ((congrArg State.hbm (State.storeAbandon_frame s )).trans (State.sansAbandon_hbm _))
@[simp] theorem State.storeAbandon_poison  : (s.storeAbandon).poison = s.poison :=
  (State.sansAbandon_poison _).symm.trans ((congrArg State.poison (State.storeAbandon_frame s )).trans (State.sansAbandon_poison _))
@[simp] theorem State.storeAbandon_outs  : (s.storeAbandon).outs = s.outs :=
  (State.sansAbandon_outs _).symm.trans ((congrArg State.outs (State.storeAbandon_frame s )).trans (State.sansAbandon_outs _))
@[simp] theorem State.storeAbandon_hold  : (s.storeAbandon).hold = s.hold :=
  (State.sansAbandon_hold _).symm.trans ((congrArg State.hold (State.storeAbandon_frame s )).trans (State.sansAbandon_hold _))
@[simp] theorem State.storeAbandon_por  : (s.storeAbandon).por = s.por :=
  (State.sansAbandon_por _).symm.trans ((congrArg State.por (State.storeAbandon_frame s )).trans (State.sansAbandon_por _))
@[simp] theorem State.storeAbandon_time  : (s.storeAbandon).time = s.time :=
  (State.sansAbandon_time _).symm.trans ((congrArg State.time (State.storeAbandon_frame s )).trans (State.sansAbandon_time _))
@[simp] theorem State.storeAbandon_streams  : (s.storeAbandon).streams = s.streams :=
  (State.sansAbandon_streams _).symm.trans ((congrArg State.streams (State.storeAbandon_frame s )).trans (State.sansAbandon_streams _))
@[simp] theorem State.storeAbandon_engines  : (s.storeAbandon).engines = s.engines :=
  (State.sansAbandon_engines _).symm.trans ((congrArg State.engines (State.storeAbandon_frame s )).trans (State.sansAbandon_engines _))
@[simp] theorem State.storeAbandon_subs  : (s.storeAbandon).subs = s.subs :=
  (State.sansAbandon_subs _).symm.trans ((congrArg State.subs (State.storeAbandon_frame s )).trans (State.sansAbandon_subs _))
@[simp] theorem State.storeAbandon_fabric  : (s.storeAbandon).fabric = s.fabric :=
  (State.sansAbandon_fabric _).symm.trans ((congrArg State.fabric (State.storeAbandon_frame s )).trans (State.sansAbandon_fabric _))
@[simp] theorem State.storeAbandon_pins  : (s.storeAbandon).pins = s.pins :=
  (State.sansAbandon_pins _).symm.trans ((congrArg State.pins (State.storeAbandon_frame s )).trans (State.sansAbandon_pins _))
@[simp] theorem State.storeAbandon_lanes  : (s.storeAbandon).lanes = s.lanes :=
  (State.sansAbandon_lanes _).symm.trans ((congrArg State.lanes (State.storeAbandon_frame s )).trans (State.sansAbandon_lanes _))
@[simp] theorem State.storeAbandon_swcmd  : (s.storeAbandon).swcmd = s.swcmd :=
  (State.sansAbandon_swcmd _).symm.trans ((congrArg State.swcmd (State.storeAbandon_frame s )).trans (State.sansAbandon_swcmd _))
@[simp] theorem State.storeAbandon_chan  : (s.storeAbandon).chan = s.chan :=
  (State.sansAbandon_chan _).symm.trans ((congrArg State.chan (State.storeAbandon_frame s )).trans (State.sansAbandon_chan _))
@[simp] theorem State.storeAbandon_cores  : (s.storeAbandon).cores = s.cores :=
  (State.sansAbandon_cores _).symm.trans ((congrArg State.cores (State.storeAbandon_frame s )).trans (State.sansAbandon_cores _))
@[simp] theorem State.storeAbandon_clusters  : (s.storeAbandon).clusters = s.clusters :=
  (State.sansAbandon_clusters _).symm.trans ((congrArg State.clusters (State.storeAbandon_frame s )).trans (State.sansAbandon_clusters _))
@[simp] theorem State.storeAbandon_taken  : (s.storeAbandon).taken = s.taken :=
  (State.sansAbandon_taken _).symm.trans ((congrArg State.taken (State.storeAbandon_frame s )).trans (State.sansAbandon_taken _))
@[simp] theorem State.storeAbandon_mgmt  : (s.storeAbandon).mgmt = s.mgmt :=
  (State.sansAbandon_mgmt _).symm.trans ((congrArg State.mgmt (State.storeAbandon_frame s )).trans (State.sansAbandon_mgmt _))
@[simp] theorem State.storeAbandon_pf  : (s.storeAbandon).pf = s.pf :=
  (State.sansAbandon_pf _).symm.trans ((congrArg State.pf (State.storeAbandon_frame s )).trans (State.sansAbandon_pf _))
@[simp] theorem State.storeAbandon_parts  : (s.storeAbandon).parts = s.parts :=
  (State.sansAbandon_parts _).symm.trans ((congrArg State.parts (State.storeAbandon_frame s )).trans (State.sansAbandon_parts _))
@[simp] theorem State.storeAbandon_owners  : (s.storeAbandon).owners = s.owners :=
  (State.sansAbandon_owners _).symm.trans ((congrArg State.owners (State.storeAbandon_frame s )).trans (State.sansAbandon_owners _))
@[simp] theorem State.storeAbandon_creq  : (s.storeAbandon).creq = s.creq :=
  (State.sansAbandon_creq _).symm.trans ((congrArg State.creq (State.storeAbandon_frame s )).trans (State.sansAbandon_creq _))
@[simp] theorem State.storeAbandon_lps  : (s.storeAbandon).lps = s.lps :=
  (State.sansAbandon_lps _).symm.trans ((congrArg State.lps (State.storeAbandon_frame s )).trans (State.sansAbandon_lps _))
@[simp] theorem State.storeAbandon_doms  : (s.storeAbandon).doms = s.doms :=
  (State.sansAbandon_doms _).symm.trans ((congrArg State.doms (State.storeAbandon_frame s )).trans (State.sansAbandon_doms _))
@[simp] theorem State.storeAbandon_test  : (s.storeAbandon).test = s.test :=
  (State.sansAbandon_test _).symm.trans ((congrArg State.test (State.storeAbandon_frame s )).trans (State.sansAbandon_test _))
@[simp] theorem State.storeAbandon_ages  : (s.storeAbandon).ages = s.ages :=
  (State.sansAbandon_ages _).symm.trans ((congrArg State.ages (State.storeAbandon_frame s )).trans (State.sansAbandon_ages _))
@[simp] theorem State.storeAbandon_readout  : (s.storeAbandon).readout = s.readout :=
  (State.sansAbandon_readout _).symm.trans ((congrArg State.readout (State.storeAbandon_frame s )).trans (State.sansAbandon_readout _))
@[simp] theorem State.storeAbandon_sec  : (s.storeAbandon).sec = s.sec :=
  (State.sansAbandon_sec _).symm.trans ((congrArg State.sec (State.storeAbandon_frame s )).trans (State.sansAbandon_sec _))
@[simp] theorem State.storeAbandon_arb  : (s.storeAbandon).arb = s.arb :=
  (State.sansAbandon_arb _).symm.trans ((congrArg State.arb (State.storeAbandon_frame s )).trans (State.sansAbandon_arb _))
@[simp] theorem State.storeAbandon_jtag  : (s.storeAbandon).jtag = s.jtag :=
  (State.sansAbandon_jtag _).symm.trans ((congrArg State.jtag (State.storeAbandon_frame s )).trans (State.sansAbandon_jtag _))
/-- retireUnit changes no field but outs, pf, regs, mgmt, nvs. -/
theorem State.retireUnit_frame (t src st : Nat) : (s.retireUnit t src st).sansRetire = s.sansRetire := by
  unfold State.retireUnit State.wearControl; dsimp only
  refine (State.sansRetire_of (State.errLog_frame _ _ _ _ _)).trans ?_
  rw [State.fset_sansRetire]; split
  · rfl
  · exact (State.withNvs_sansRetire _ _).trans (State.withNvs_sansRetire _ _)
@[simp] theorem State.retireUnit_pending (t src st : Nat) : (s.retireUnit t src st).pending = s.pending :=
  (State.sansRetire_pending _).symm.trans ((congrArg State.pending (State.retireUnit_frame s t src st)).trans (State.sansRetire_pending _))
@[simp] theorem State.retireUnit_free (t src st : Nat) : (s.retireUnit t src st).free = s.free :=
  (State.sansRetire_free _).symm.trans ((congrArg State.free (State.retireUnit_frame s t src st)).trans (State.sansRetire_free _))
@[simp] theorem State.retireUnit_hbm (t src st : Nat) : (s.retireUnit t src st).hbm = s.hbm :=
  (State.sansRetire_hbm _).symm.trans ((congrArg State.hbm (State.retireUnit_frame s t src st)).trans (State.sansRetire_hbm _))
@[simp] theorem State.retireUnit_poison (t src st : Nat) : (s.retireUnit t src st).poison = s.poison :=
  (State.sansRetire_poison _).symm.trans ((congrArg State.poison (State.retireUnit_frame s t src st)).trans (State.sansRetire_poison _))
@[simp] theorem State.retireUnit_hold (t src st : Nat) : (s.retireUnit t src st).hold = s.hold :=
  (State.sansRetire_hold _).symm.trans ((congrArg State.hold (State.retireUnit_frame s t src st)).trans (State.sansRetire_hold _))
@[simp] theorem State.retireUnit_por (t src st : Nat) : (s.retireUnit t src st).por = s.por :=
  (State.sansRetire_por _).symm.trans ((congrArg State.por (State.retireUnit_frame s t src st)).trans (State.sansRetire_por _))
@[simp] theorem State.retireUnit_time (t src st : Nat) : (s.retireUnit t src st).time = s.time :=
  (State.sansRetire_time _).symm.trans ((congrArg State.time (State.retireUnit_frame s t src st)).trans (State.sansRetire_time _))
@[simp] theorem State.retireUnit_streams (t src st : Nat) : (s.retireUnit t src st).streams = s.streams :=
  (State.sansRetire_streams _).symm.trans ((congrArg State.streams (State.retireUnit_frame s t src st)).trans (State.sansRetire_streams _))
@[simp] theorem State.retireUnit_engines (t src st : Nat) : (s.retireUnit t src st).engines = s.engines :=
  (State.sansRetire_engines _).symm.trans ((congrArg State.engines (State.retireUnit_frame s t src st)).trans (State.sansRetire_engines _))
@[simp] theorem State.retireUnit_subs (t src st : Nat) : (s.retireUnit t src st).subs = s.subs :=
  (State.sansRetire_subs _).symm.trans ((congrArg State.subs (State.retireUnit_frame s t src st)).trans (State.sansRetire_subs _))
@[simp] theorem State.retireUnit_fabric (t src st : Nat) : (s.retireUnit t src st).fabric = s.fabric :=
  (State.sansRetire_fabric _).symm.trans ((congrArg State.fabric (State.retireUnit_frame s t src st)).trans (State.sansRetire_fabric _))
@[simp] theorem State.retireUnit_pins (t src st : Nat) : (s.retireUnit t src st).pins = s.pins :=
  (State.sansRetire_pins _).symm.trans ((congrArg State.pins (State.retireUnit_frame s t src st)).trans (State.sansRetire_pins _))
@[simp] theorem State.retireUnit_lanes (t src st : Nat) : (s.retireUnit t src st).lanes = s.lanes :=
  (State.sansRetire_lanes _).symm.trans ((congrArg State.lanes (State.retireUnit_frame s t src st)).trans (State.sansRetire_lanes _))
@[simp] theorem State.retireUnit_swcmd (t src st : Nat) : (s.retireUnit t src st).swcmd = s.swcmd :=
  (State.sansRetire_swcmd _).symm.trans ((congrArg State.swcmd (State.retireUnit_frame s t src st)).trans (State.sansRetire_swcmd _))
@[simp] theorem State.retireUnit_chan (t src st : Nat) : (s.retireUnit t src st).chan = s.chan :=
  (State.sansRetire_chan _).symm.trans ((congrArg State.chan (State.retireUnit_frame s t src st)).trans (State.sansRetire_chan _))
@[simp] theorem State.retireUnit_cores (t src st : Nat) : (s.retireUnit t src st).cores = s.cores :=
  (State.sansRetire_cores _).symm.trans ((congrArg State.cores (State.retireUnit_frame s t src st)).trans (State.sansRetire_cores _))
@[simp] theorem State.retireUnit_clusters (t src st : Nat) : (s.retireUnit t src st).clusters = s.clusters :=
  (State.sansRetire_clusters _).symm.trans ((congrArg State.clusters (State.retireUnit_frame s t src st)).trans (State.sansRetire_clusters _))
@[simp] theorem State.retireUnit_taken (t src st : Nat) : (s.retireUnit t src st).taken = s.taken :=
  (State.sansRetire_taken _).symm.trans ((congrArg State.taken (State.retireUnit_frame s t src st)).trans (State.sansRetire_taken _))
@[simp] theorem State.retireUnit_parts (t src st : Nat) : (s.retireUnit t src st).parts = s.parts :=
  (State.sansRetire_parts _).symm.trans ((congrArg State.parts (State.retireUnit_frame s t src st)).trans (State.sansRetire_parts _))
@[simp] theorem State.retireUnit_owners (t src st : Nat) : (s.retireUnit t src st).owners = s.owners :=
  (State.sansRetire_owners _).symm.trans ((congrArg State.owners (State.retireUnit_frame s t src st)).trans (State.sansRetire_owners _))
@[simp] theorem State.retireUnit_creq (t src st : Nat) : (s.retireUnit t src st).creq = s.creq :=
  (State.sansRetire_creq _).symm.trans ((congrArg State.creq (State.retireUnit_frame s t src st)).trans (State.sansRetire_creq _))
@[simp] theorem State.retireUnit_lps (t src st : Nat) : (s.retireUnit t src st).lps = s.lps :=
  (State.sansRetire_lps _).symm.trans ((congrArg State.lps (State.retireUnit_frame s t src st)).trans (State.sansRetire_lps _))
@[simp] theorem State.retireUnit_doms (t src st : Nat) : (s.retireUnit t src st).doms = s.doms :=
  (State.sansRetire_doms _).symm.trans ((congrArg State.doms (State.retireUnit_frame s t src st)).trans (State.sansRetire_doms _))
@[simp] theorem State.retireUnit_test (t src st : Nat) : (s.retireUnit t src st).test = s.test :=
  (State.sansRetire_test _).symm.trans ((congrArg State.test (State.retireUnit_frame s t src st)).trans (State.sansRetire_test _))
@[simp] theorem State.retireUnit_ages (t src st : Nat) : (s.retireUnit t src st).ages = s.ages :=
  (State.sansRetire_ages _).symm.trans ((congrArg State.ages (State.retireUnit_frame s t src st)).trans (State.sansRetire_ages _))
@[simp] theorem State.retireUnit_readout (t src st : Nat) : (s.retireUnit t src st).readout = s.readout :=
  (State.sansRetire_readout _).symm.trans ((congrArg State.readout (State.retireUnit_frame s t src st)).trans (State.sansRetire_readout _))
@[simp] theorem State.retireUnit_sec (t src st : Nat) : (s.retireUnit t src st).sec = s.sec :=
  (State.sansRetire_sec _).symm.trans ((congrArg State.sec (State.retireUnit_frame s t src st)).trans (State.sansRetire_sec _))
@[simp] theorem State.retireUnit_arb (t src st : Nat) : (s.retireUnit t src st).arb = s.arb :=
  (State.sansRetire_arb _).symm.trans ((congrArg State.arb (State.retireUnit_frame s t src st)).trans (State.sansRetire_arb _))
@[simp] theorem State.retireUnit_jtag (t src st : Nat) : (s.retireUnit t src st).jtag = s.jtag :=
  (State.sansRetire_jtag _).symm.trans ((congrArg State.jtag (State.retireUnit_frame s t src st)).trans (State.sansRetire_jtag _))
/-- vfVector changes no field but outs, parts. -/
theorem State.vfVector_frame (pn v : Nat) : (s.vfVector pn v).sansVf = s.sansVf := by
  unfold State.vfVector; dsimp only; split
  · exact State.emit_sansVf _ _
  · exact State.setPart_sansVf _ _ _
@[simp] theorem State.vfVector_pending (pn v : Nat) : (s.vfVector pn v).pending = s.pending :=
  (State.sansVf_pending _).symm.trans ((congrArg State.pending (State.vfVector_frame s pn v)).trans (State.sansVf_pending _))
@[simp] theorem State.vfVector_free (pn v : Nat) : (s.vfVector pn v).free = s.free :=
  (State.sansVf_free _).symm.trans ((congrArg State.free (State.vfVector_frame s pn v)).trans (State.sansVf_free _))
@[simp] theorem State.vfVector_regs (pn v : Nat) : (s.vfVector pn v).regs = s.regs :=
  (State.sansVf_regs _).symm.trans ((congrArg State.regs (State.vfVector_frame s pn v)).trans (State.sansVf_regs _))
@[simp] theorem State.vfVector_hbm (pn v : Nat) : (s.vfVector pn v).hbm = s.hbm :=
  (State.sansVf_hbm _).symm.trans ((congrArg State.hbm (State.vfVector_frame s pn v)).trans (State.sansVf_hbm _))
@[simp] theorem State.vfVector_poison (pn v : Nat) : (s.vfVector pn v).poison = s.poison :=
  (State.sansVf_poison _).symm.trans ((congrArg State.poison (State.vfVector_frame s pn v)).trans (State.sansVf_poison _))
@[simp] theorem State.vfVector_hold (pn v : Nat) : (s.vfVector pn v).hold = s.hold :=
  (State.sansVf_hold _).symm.trans ((congrArg State.hold (State.vfVector_frame s pn v)).trans (State.sansVf_hold _))
@[simp] theorem State.vfVector_por (pn v : Nat) : (s.vfVector pn v).por = s.por :=
  (State.sansVf_por _).symm.trans ((congrArg State.por (State.vfVector_frame s pn v)).trans (State.sansVf_por _))
@[simp] theorem State.vfVector_time (pn v : Nat) : (s.vfVector pn v).time = s.time :=
  (State.sansVf_time _).symm.trans ((congrArg State.time (State.vfVector_frame s pn v)).trans (State.sansVf_time _))
@[simp] theorem State.vfVector_streams (pn v : Nat) : (s.vfVector pn v).streams = s.streams :=
  (State.sansVf_streams _).symm.trans ((congrArg State.streams (State.vfVector_frame s pn v)).trans (State.sansVf_streams _))
@[simp] theorem State.vfVector_engines (pn v : Nat) : (s.vfVector pn v).engines = s.engines :=
  (State.sansVf_engines _).symm.trans ((congrArg State.engines (State.vfVector_frame s pn v)).trans (State.sansVf_engines _))
@[simp] theorem State.vfVector_subs (pn v : Nat) : (s.vfVector pn v).subs = s.subs :=
  (State.sansVf_subs _).symm.trans ((congrArg State.subs (State.vfVector_frame s pn v)).trans (State.sansVf_subs _))
@[simp] theorem State.vfVector_fabric (pn v : Nat) : (s.vfVector pn v).fabric = s.fabric :=
  (State.sansVf_fabric _).symm.trans ((congrArg State.fabric (State.vfVector_frame s pn v)).trans (State.sansVf_fabric _))
@[simp] theorem State.vfVector_pins (pn v : Nat) : (s.vfVector pn v).pins = s.pins :=
  (State.sansVf_pins _).symm.trans ((congrArg State.pins (State.vfVector_frame s pn v)).trans (State.sansVf_pins _))
@[simp] theorem State.vfVector_lanes (pn v : Nat) : (s.vfVector pn v).lanes = s.lanes :=
  (State.sansVf_lanes _).symm.trans ((congrArg State.lanes (State.vfVector_frame s pn v)).trans (State.sansVf_lanes _))
@[simp] theorem State.vfVector_swcmd (pn v : Nat) : (s.vfVector pn v).swcmd = s.swcmd :=
  (State.sansVf_swcmd _).symm.trans ((congrArg State.swcmd (State.vfVector_frame s pn v)).trans (State.sansVf_swcmd _))
@[simp] theorem State.vfVector_chan (pn v : Nat) : (s.vfVector pn v).chan = s.chan :=
  (State.sansVf_chan _).symm.trans ((congrArg State.chan (State.vfVector_frame s pn v)).trans (State.sansVf_chan _))
@[simp] theorem State.vfVector_cores (pn v : Nat) : (s.vfVector pn v).cores = s.cores :=
  (State.sansVf_cores _).symm.trans ((congrArg State.cores (State.vfVector_frame s pn v)).trans (State.sansVf_cores _))
@[simp] theorem State.vfVector_clusters (pn v : Nat) : (s.vfVector pn v).clusters = s.clusters :=
  (State.sansVf_clusters _).symm.trans ((congrArg State.clusters (State.vfVector_frame s pn v)).trans (State.sansVf_clusters _))
@[simp] theorem State.vfVector_taken (pn v : Nat) : (s.vfVector pn v).taken = s.taken :=
  (State.sansVf_taken _).symm.trans ((congrArg State.taken (State.vfVector_frame s pn v)).trans (State.sansVf_taken _))
@[simp] theorem State.vfVector_mgmt (pn v : Nat) : (s.vfVector pn v).mgmt = s.mgmt :=
  (State.sansVf_mgmt _).symm.trans ((congrArg State.mgmt (State.vfVector_frame s pn v)).trans (State.sansVf_mgmt _))
@[simp] theorem State.vfVector_pf (pn v : Nat) : (s.vfVector pn v).pf = s.pf :=
  (State.sansVf_pf _).symm.trans ((congrArg State.pf (State.vfVector_frame s pn v)).trans (State.sansVf_pf _))
@[simp] theorem State.vfVector_owners (pn v : Nat) : (s.vfVector pn v).owners = s.owners :=
  (State.sansVf_owners _).symm.trans ((congrArg State.owners (State.vfVector_frame s pn v)).trans (State.sansVf_owners _))
@[simp] theorem State.vfVector_creq (pn v : Nat) : (s.vfVector pn v).creq = s.creq :=
  (State.sansVf_creq _).symm.trans ((congrArg State.creq (State.vfVector_frame s pn v)).trans (State.sansVf_creq _))
@[simp] theorem State.vfVector_lps (pn v : Nat) : (s.vfVector pn v).lps = s.lps :=
  (State.sansVf_lps _).symm.trans ((congrArg State.lps (State.vfVector_frame s pn v)).trans (State.sansVf_lps _))
@[simp] theorem State.vfVector_doms (pn v : Nat) : (s.vfVector pn v).doms = s.doms :=
  (State.sansVf_doms _).symm.trans ((congrArg State.doms (State.vfVector_frame s pn v)).trans (State.sansVf_doms _))
@[simp] theorem State.vfVector_nvs (pn v : Nat) : (s.vfVector pn v).nvs = s.nvs :=
  (State.sansVf_nvs _).symm.trans ((congrArg State.nvs (State.vfVector_frame s pn v)).trans (State.sansVf_nvs _))
@[simp] theorem State.vfVector_test (pn v : Nat) : (s.vfVector pn v).test = s.test :=
  (State.sansVf_test _).symm.trans ((congrArg State.test (State.vfVector_frame s pn v)).trans (State.sansVf_test _))
@[simp] theorem State.vfVector_ages (pn v : Nat) : (s.vfVector pn v).ages = s.ages :=
  (State.sansVf_ages _).symm.trans ((congrArg State.ages (State.vfVector_frame s pn v)).trans (State.sansVf_ages _))
@[simp] theorem State.vfVector_readout (pn v : Nat) : (s.vfVector pn v).readout = s.readout :=
  (State.sansVf_readout _).symm.trans ((congrArg State.readout (State.vfVector_frame s pn v)).trans (State.sansVf_readout _))
@[simp] theorem State.vfVector_sec (pn v : Nat) : (s.vfVector pn v).sec = s.sec :=
  (State.sansVf_sec _).symm.trans ((congrArg State.sec (State.vfVector_frame s pn v)).trans (State.sansVf_sec _))
@[simp] theorem State.vfVector_arb (pn v : Nat) : (s.vfVector pn v).arb = s.arb :=
  (State.sansVf_arb _).symm.trans ((congrArg State.arb (State.vfVector_frame s pn v)).trans (State.sansVf_arb _))
@[simp] theorem State.vfVector_jtag (pn v : Nat) : (s.vfVector pn v).jtag = s.jtag :=
  (State.sansVf_jtag _).symm.trans ((congrArg State.jtag (State.vfVector_frame s pn v)).trans (State.sansVf_jtag _))
/-- partEvent changes no field but outs, parts, regs. -/
theorem State.partEvent_frame (pn i : Nat) : (s.partEvent pn i).sansPart = s.sansPart := by
  unfold State.partEvent; dsimp only; split
  · exact (State.sansPart_of (State.vfVector_frame _ _ _)).trans (State.fset_sansPart _ _ _ _ _)
  · exact State.fset_sansPart _ _ _ _ _
@[simp] theorem State.partEvent_pending (pn i : Nat) : (s.partEvent pn i).pending = s.pending :=
  (State.sansPart_pending _).symm.trans ((congrArg State.pending (State.partEvent_frame s pn i)).trans (State.sansPart_pending _))
@[simp] theorem State.partEvent_free (pn i : Nat) : (s.partEvent pn i).free = s.free :=
  (State.sansPart_free _).symm.trans ((congrArg State.free (State.partEvent_frame s pn i)).trans (State.sansPart_free _))
@[simp] theorem State.partEvent_hbm (pn i : Nat) : (s.partEvent pn i).hbm = s.hbm :=
  (State.sansPart_hbm _).symm.trans ((congrArg State.hbm (State.partEvent_frame s pn i)).trans (State.sansPart_hbm _))
@[simp] theorem State.partEvent_poison (pn i : Nat) : (s.partEvent pn i).poison = s.poison :=
  (State.sansPart_poison _).symm.trans ((congrArg State.poison (State.partEvent_frame s pn i)).trans (State.sansPart_poison _))
@[simp] theorem State.partEvent_hold (pn i : Nat) : (s.partEvent pn i).hold = s.hold :=
  (State.sansPart_hold _).symm.trans ((congrArg State.hold (State.partEvent_frame s pn i)).trans (State.sansPart_hold _))
@[simp] theorem State.partEvent_por (pn i : Nat) : (s.partEvent pn i).por = s.por :=
  (State.sansPart_por _).symm.trans ((congrArg State.por (State.partEvent_frame s pn i)).trans (State.sansPart_por _))
@[simp] theorem State.partEvent_time (pn i : Nat) : (s.partEvent pn i).time = s.time :=
  (State.sansPart_time _).symm.trans ((congrArg State.time (State.partEvent_frame s pn i)).trans (State.sansPart_time _))
@[simp] theorem State.partEvent_streams (pn i : Nat) : (s.partEvent pn i).streams = s.streams :=
  (State.sansPart_streams _).symm.trans ((congrArg State.streams (State.partEvent_frame s pn i)).trans (State.sansPart_streams _))
@[simp] theorem State.partEvent_engines (pn i : Nat) : (s.partEvent pn i).engines = s.engines :=
  (State.sansPart_engines _).symm.trans ((congrArg State.engines (State.partEvent_frame s pn i)).trans (State.sansPart_engines _))
@[simp] theorem State.partEvent_subs (pn i : Nat) : (s.partEvent pn i).subs = s.subs :=
  (State.sansPart_subs _).symm.trans ((congrArg State.subs (State.partEvent_frame s pn i)).trans (State.sansPart_subs _))
@[simp] theorem State.partEvent_fabric (pn i : Nat) : (s.partEvent pn i).fabric = s.fabric :=
  (State.sansPart_fabric _).symm.trans ((congrArg State.fabric (State.partEvent_frame s pn i)).trans (State.sansPart_fabric _))
@[simp] theorem State.partEvent_pins (pn i : Nat) : (s.partEvent pn i).pins = s.pins :=
  (State.sansPart_pins _).symm.trans ((congrArg State.pins (State.partEvent_frame s pn i)).trans (State.sansPart_pins _))
@[simp] theorem State.partEvent_lanes (pn i : Nat) : (s.partEvent pn i).lanes = s.lanes :=
  (State.sansPart_lanes _).symm.trans ((congrArg State.lanes (State.partEvent_frame s pn i)).trans (State.sansPart_lanes _))
@[simp] theorem State.partEvent_swcmd (pn i : Nat) : (s.partEvent pn i).swcmd = s.swcmd :=
  (State.sansPart_swcmd _).symm.trans ((congrArg State.swcmd (State.partEvent_frame s pn i)).trans (State.sansPart_swcmd _))
@[simp] theorem State.partEvent_chan (pn i : Nat) : (s.partEvent pn i).chan = s.chan :=
  (State.sansPart_chan _).symm.trans ((congrArg State.chan (State.partEvent_frame s pn i)).trans (State.sansPart_chan _))
@[simp] theorem State.partEvent_cores (pn i : Nat) : (s.partEvent pn i).cores = s.cores :=
  (State.sansPart_cores _).symm.trans ((congrArg State.cores (State.partEvent_frame s pn i)).trans (State.sansPart_cores _))
@[simp] theorem State.partEvent_clusters (pn i : Nat) : (s.partEvent pn i).clusters = s.clusters :=
  (State.sansPart_clusters _).symm.trans ((congrArg State.clusters (State.partEvent_frame s pn i)).trans (State.sansPart_clusters _))
@[simp] theorem State.partEvent_taken (pn i : Nat) : (s.partEvent pn i).taken = s.taken :=
  (State.sansPart_taken _).symm.trans ((congrArg State.taken (State.partEvent_frame s pn i)).trans (State.sansPart_taken _))
@[simp] theorem State.partEvent_mgmt (pn i : Nat) : (s.partEvent pn i).mgmt = s.mgmt :=
  (State.sansPart_mgmt _).symm.trans ((congrArg State.mgmt (State.partEvent_frame s pn i)).trans (State.sansPart_mgmt _))
@[simp] theorem State.partEvent_pf (pn i : Nat) : (s.partEvent pn i).pf = s.pf :=
  (State.sansPart_pf _).symm.trans ((congrArg State.pf (State.partEvent_frame s pn i)).trans (State.sansPart_pf _))
@[simp] theorem State.partEvent_owners (pn i : Nat) : (s.partEvent pn i).owners = s.owners :=
  (State.sansPart_owners _).symm.trans ((congrArg State.owners (State.partEvent_frame s pn i)).trans (State.sansPart_owners _))
@[simp] theorem State.partEvent_creq (pn i : Nat) : (s.partEvent pn i).creq = s.creq :=
  (State.sansPart_creq _).symm.trans ((congrArg State.creq (State.partEvent_frame s pn i)).trans (State.sansPart_creq _))
@[simp] theorem State.partEvent_lps (pn i : Nat) : (s.partEvent pn i).lps = s.lps :=
  (State.sansPart_lps _).symm.trans ((congrArg State.lps (State.partEvent_frame s pn i)).trans (State.sansPart_lps _))
@[simp] theorem State.partEvent_doms (pn i : Nat) : (s.partEvent pn i).doms = s.doms :=
  (State.sansPart_doms _).symm.trans ((congrArg State.doms (State.partEvent_frame s pn i)).trans (State.sansPart_doms _))
@[simp] theorem State.partEvent_nvs (pn i : Nat) : (s.partEvent pn i).nvs = s.nvs :=
  (State.sansPart_nvs _).symm.trans ((congrArg State.nvs (State.partEvent_frame s pn i)).trans (State.sansPart_nvs _))
@[simp] theorem State.partEvent_test (pn i : Nat) : (s.partEvent pn i).test = s.test :=
  (State.sansPart_test _).symm.trans ((congrArg State.test (State.partEvent_frame s pn i)).trans (State.sansPart_test _))
@[simp] theorem State.partEvent_ages (pn i : Nat) : (s.partEvent pn i).ages = s.ages :=
  (State.sansPart_ages _).symm.trans ((congrArg State.ages (State.partEvent_frame s pn i)).trans (State.sansPart_ages _))
@[simp] theorem State.partEvent_readout (pn i : Nat) : (s.partEvent pn i).readout = s.readout :=
  (State.sansPart_readout _).symm.trans ((congrArg State.readout (State.partEvent_frame s pn i)).trans (State.sansPart_readout _))
@[simp] theorem State.partEvent_sec (pn i : Nat) : (s.partEvent pn i).sec = s.sec :=
  (State.sansPart_sec _).symm.trans ((congrArg State.sec (State.partEvent_frame s pn i)).trans (State.sansPart_sec _))
@[simp] theorem State.partEvent_arb (pn i : Nat) : (s.partEvent pn i).arb = s.arb :=
  (State.sansPart_arb _).symm.trans ((congrArg State.arb (State.partEvent_frame s pn i)).trans (State.sansPart_arb _))
@[simp] theorem State.partEvent_jtag (pn i : Nat) : (s.partEvent pn i).jtag = s.jtag :=
  (State.sansPart_jtag _).symm.trans ((congrArg State.jtag (State.partEvent_frame s pn i)).trans (State.sansPart_jtag _))
/-- partErr changes no field but outs, parts, regs. -/
theorem State.partErr_frame (pn src st i : Nat) : (s.partErr pn src st i).sansPart = s.sansPart := by
  unfold State.partErr; dsimp only
  refine (State.partEvent_frame _ _ _).trans ?_
  split
  · exact State.fset_sansPart _ _ _ _ _
  · exact (State.wr_sansPart _ _ _).trans (State.wr_sansPart _ _ _)
@[simp] theorem State.partErr_pending (pn src st i : Nat) : (s.partErr pn src st i).pending = s.pending :=
  (State.sansPart_pending _).symm.trans ((congrArg State.pending (State.partErr_frame s pn src st i)).trans (State.sansPart_pending _))
@[simp] theorem State.partErr_free (pn src st i : Nat) : (s.partErr pn src st i).free = s.free :=
  (State.sansPart_free _).symm.trans ((congrArg State.free (State.partErr_frame s pn src st i)).trans (State.sansPart_free _))
@[simp] theorem State.partErr_hbm (pn src st i : Nat) : (s.partErr pn src st i).hbm = s.hbm :=
  (State.sansPart_hbm _).symm.trans ((congrArg State.hbm (State.partErr_frame s pn src st i)).trans (State.sansPart_hbm _))
@[simp] theorem State.partErr_poison (pn src st i : Nat) : (s.partErr pn src st i).poison = s.poison :=
  (State.sansPart_poison _).symm.trans ((congrArg State.poison (State.partErr_frame s pn src st i)).trans (State.sansPart_poison _))
@[simp] theorem State.partErr_hold (pn src st i : Nat) : (s.partErr pn src st i).hold = s.hold :=
  (State.sansPart_hold _).symm.trans ((congrArg State.hold (State.partErr_frame s pn src st i)).trans (State.sansPart_hold _))
@[simp] theorem State.partErr_por (pn src st i : Nat) : (s.partErr pn src st i).por = s.por :=
  (State.sansPart_por _).symm.trans ((congrArg State.por (State.partErr_frame s pn src st i)).trans (State.sansPart_por _))
@[simp] theorem State.partErr_time (pn src st i : Nat) : (s.partErr pn src st i).time = s.time :=
  (State.sansPart_time _).symm.trans ((congrArg State.time (State.partErr_frame s pn src st i)).trans (State.sansPart_time _))
@[simp] theorem State.partErr_streams (pn src st i : Nat) : (s.partErr pn src st i).streams = s.streams :=
  (State.sansPart_streams _).symm.trans ((congrArg State.streams (State.partErr_frame s pn src st i)).trans (State.sansPart_streams _))
@[simp] theorem State.partErr_engines (pn src st i : Nat) : (s.partErr pn src st i).engines = s.engines :=
  (State.sansPart_engines _).symm.trans ((congrArg State.engines (State.partErr_frame s pn src st i)).trans (State.sansPart_engines _))
@[simp] theorem State.partErr_subs (pn src st i : Nat) : (s.partErr pn src st i).subs = s.subs :=
  (State.sansPart_subs _).symm.trans ((congrArg State.subs (State.partErr_frame s pn src st i)).trans (State.sansPart_subs _))
@[simp] theorem State.partErr_fabric (pn src st i : Nat) : (s.partErr pn src st i).fabric = s.fabric :=
  (State.sansPart_fabric _).symm.trans ((congrArg State.fabric (State.partErr_frame s pn src st i)).trans (State.sansPart_fabric _))
@[simp] theorem State.partErr_pins (pn src st i : Nat) : (s.partErr pn src st i).pins = s.pins :=
  (State.sansPart_pins _).symm.trans ((congrArg State.pins (State.partErr_frame s pn src st i)).trans (State.sansPart_pins _))
@[simp] theorem State.partErr_lanes (pn src st i : Nat) : (s.partErr pn src st i).lanes = s.lanes :=
  (State.sansPart_lanes _).symm.trans ((congrArg State.lanes (State.partErr_frame s pn src st i)).trans (State.sansPart_lanes _))
@[simp] theorem State.partErr_swcmd (pn src st i : Nat) : (s.partErr pn src st i).swcmd = s.swcmd :=
  (State.sansPart_swcmd _).symm.trans ((congrArg State.swcmd (State.partErr_frame s pn src st i)).trans (State.sansPart_swcmd _))
@[simp] theorem State.partErr_chan (pn src st i : Nat) : (s.partErr pn src st i).chan = s.chan :=
  (State.sansPart_chan _).symm.trans ((congrArg State.chan (State.partErr_frame s pn src st i)).trans (State.sansPart_chan _))
@[simp] theorem State.partErr_cores (pn src st i : Nat) : (s.partErr pn src st i).cores = s.cores :=
  (State.sansPart_cores _).symm.trans ((congrArg State.cores (State.partErr_frame s pn src st i)).trans (State.sansPart_cores _))
@[simp] theorem State.partErr_clusters (pn src st i : Nat) : (s.partErr pn src st i).clusters = s.clusters :=
  (State.sansPart_clusters _).symm.trans ((congrArg State.clusters (State.partErr_frame s pn src st i)).trans (State.sansPart_clusters _))
@[simp] theorem State.partErr_taken (pn src st i : Nat) : (s.partErr pn src st i).taken = s.taken :=
  (State.sansPart_taken _).symm.trans ((congrArg State.taken (State.partErr_frame s pn src st i)).trans (State.sansPart_taken _))
@[simp] theorem State.partErr_mgmt (pn src st i : Nat) : (s.partErr pn src st i).mgmt = s.mgmt :=
  (State.sansPart_mgmt _).symm.trans ((congrArg State.mgmt (State.partErr_frame s pn src st i)).trans (State.sansPart_mgmt _))
@[simp] theorem State.partErr_pf (pn src st i : Nat) : (s.partErr pn src st i).pf = s.pf :=
  (State.sansPart_pf _).symm.trans ((congrArg State.pf (State.partErr_frame s pn src st i)).trans (State.sansPart_pf _))
@[simp] theorem State.partErr_owners (pn src st i : Nat) : (s.partErr pn src st i).owners = s.owners :=
  (State.sansPart_owners _).symm.trans ((congrArg State.owners (State.partErr_frame s pn src st i)).trans (State.sansPart_owners _))
@[simp] theorem State.partErr_creq (pn src st i : Nat) : (s.partErr pn src st i).creq = s.creq :=
  (State.sansPart_creq _).symm.trans ((congrArg State.creq (State.partErr_frame s pn src st i)).trans (State.sansPart_creq _))
@[simp] theorem State.partErr_lps (pn src st i : Nat) : (s.partErr pn src st i).lps = s.lps :=
  (State.sansPart_lps _).symm.trans ((congrArg State.lps (State.partErr_frame s pn src st i)).trans (State.sansPart_lps _))
@[simp] theorem State.partErr_doms (pn src st i : Nat) : (s.partErr pn src st i).doms = s.doms :=
  (State.sansPart_doms _).symm.trans ((congrArg State.doms (State.partErr_frame s pn src st i)).trans (State.sansPart_doms _))
@[simp] theorem State.partErr_nvs (pn src st i : Nat) : (s.partErr pn src st i).nvs = s.nvs :=
  (State.sansPart_nvs _).symm.trans ((congrArg State.nvs (State.partErr_frame s pn src st i)).trans (State.sansPart_nvs _))
@[simp] theorem State.partErr_test (pn src st i : Nat) : (s.partErr pn src st i).test = s.test :=
  (State.sansPart_test _).symm.trans ((congrArg State.test (State.partErr_frame s pn src st i)).trans (State.sansPart_test _))
@[simp] theorem State.partErr_ages (pn src st i : Nat) : (s.partErr pn src st i).ages = s.ages :=
  (State.sansPart_ages _).symm.trans ((congrArg State.ages (State.partErr_frame s pn src st i)).trans (State.sansPart_ages _))
@[simp] theorem State.partErr_readout (pn src st i : Nat) : (s.partErr pn src st i).readout = s.readout :=
  (State.sansPart_readout _).symm.trans ((congrArg State.readout (State.partErr_frame s pn src st i)).trans (State.sansPart_readout _))
@[simp] theorem State.partErr_sec (pn src st i : Nat) : (s.partErr pn src st i).sec = s.sec :=
  (State.sansPart_sec _).symm.trans ((congrArg State.sec (State.partErr_frame s pn src st i)).trans (State.sansPart_sec _))
@[simp] theorem State.partErr_arb (pn src st i : Nat) : (s.partErr pn src st i).arb = s.arb :=
  (State.sansPart_arb _).symm.trans ((congrArg State.arb (State.partErr_frame s pn src st i)).trans (State.sansPart_arb _))
@[simp] theorem State.partErr_jtag (pn src st i : Nat) : (s.partErr pn src st i).jtag = s.jtag :=
  (State.sansPart_jtag _).symm.trans ((congrArg State.jtag (State.partErr_frame s pn src st i)).trans (State.sansPart_jtag _))
/-- stale changes no field but regs. -/
theorem State.stale_frame (pn src ep : Nat) : (s.stale pn src ep).sansRegs = s.sansRegs := by
  unfold State.stale; exact (State.wr_sansRegs _ _ _).trans (State.count_sansRegs _ _ _)
@[simp] theorem State.stale_pending (pn src ep : Nat) : (s.stale pn src ep).pending = s.pending :=
  (State.sansRegs_pending _).symm.trans ((congrArg State.pending (State.stale_frame s pn src ep)).trans (State.sansRegs_pending _))
@[simp] theorem State.stale_free (pn src ep : Nat) : (s.stale pn src ep).free = s.free :=
  (State.sansRegs_free _).symm.trans ((congrArg State.free (State.stale_frame s pn src ep)).trans (State.sansRegs_free _))
@[simp] theorem State.stale_hbm (pn src ep : Nat) : (s.stale pn src ep).hbm = s.hbm :=
  (State.sansRegs_hbm _).symm.trans ((congrArg State.hbm (State.stale_frame s pn src ep)).trans (State.sansRegs_hbm _))
@[simp] theorem State.stale_poison (pn src ep : Nat) : (s.stale pn src ep).poison = s.poison :=
  (State.sansRegs_poison _).symm.trans ((congrArg State.poison (State.stale_frame s pn src ep)).trans (State.sansRegs_poison _))
@[simp] theorem State.stale_outs (pn src ep : Nat) : (s.stale pn src ep).outs = s.outs :=
  (State.sansRegs_outs _).symm.trans ((congrArg State.outs (State.stale_frame s pn src ep)).trans (State.sansRegs_outs _))
@[simp] theorem State.stale_hold (pn src ep : Nat) : (s.stale pn src ep).hold = s.hold :=
  (State.sansRegs_hold _).symm.trans ((congrArg State.hold (State.stale_frame s pn src ep)).trans (State.sansRegs_hold _))
@[simp] theorem State.stale_por (pn src ep : Nat) : (s.stale pn src ep).por = s.por :=
  (State.sansRegs_por _).symm.trans ((congrArg State.por (State.stale_frame s pn src ep)).trans (State.sansRegs_por _))
@[simp] theorem State.stale_time (pn src ep : Nat) : (s.stale pn src ep).time = s.time :=
  (State.sansRegs_time _).symm.trans ((congrArg State.time (State.stale_frame s pn src ep)).trans (State.sansRegs_time _))
@[simp] theorem State.stale_streams (pn src ep : Nat) : (s.stale pn src ep).streams = s.streams :=
  (State.sansRegs_streams _).symm.trans ((congrArg State.streams (State.stale_frame s pn src ep)).trans (State.sansRegs_streams _))
@[simp] theorem State.stale_engines (pn src ep : Nat) : (s.stale pn src ep).engines = s.engines :=
  (State.sansRegs_engines _).symm.trans ((congrArg State.engines (State.stale_frame s pn src ep)).trans (State.sansRegs_engines _))
@[simp] theorem State.stale_subs (pn src ep : Nat) : (s.stale pn src ep).subs = s.subs :=
  (State.sansRegs_subs _).symm.trans ((congrArg State.subs (State.stale_frame s pn src ep)).trans (State.sansRegs_subs _))
@[simp] theorem State.stale_fabric (pn src ep : Nat) : (s.stale pn src ep).fabric = s.fabric :=
  (State.sansRegs_fabric _).symm.trans ((congrArg State.fabric (State.stale_frame s pn src ep)).trans (State.sansRegs_fabric _))
@[simp] theorem State.stale_pins (pn src ep : Nat) : (s.stale pn src ep).pins = s.pins :=
  (State.sansRegs_pins _).symm.trans ((congrArg State.pins (State.stale_frame s pn src ep)).trans (State.sansRegs_pins _))
@[simp] theorem State.stale_lanes (pn src ep : Nat) : (s.stale pn src ep).lanes = s.lanes :=
  (State.sansRegs_lanes _).symm.trans ((congrArg State.lanes (State.stale_frame s pn src ep)).trans (State.sansRegs_lanes _))
@[simp] theorem State.stale_swcmd (pn src ep : Nat) : (s.stale pn src ep).swcmd = s.swcmd :=
  (State.sansRegs_swcmd _).symm.trans ((congrArg State.swcmd (State.stale_frame s pn src ep)).trans (State.sansRegs_swcmd _))
@[simp] theorem State.stale_chan (pn src ep : Nat) : (s.stale pn src ep).chan = s.chan :=
  (State.sansRegs_chan _).symm.trans ((congrArg State.chan (State.stale_frame s pn src ep)).trans (State.sansRegs_chan _))
@[simp] theorem State.stale_cores (pn src ep : Nat) : (s.stale pn src ep).cores = s.cores :=
  (State.sansRegs_cores _).symm.trans ((congrArg State.cores (State.stale_frame s pn src ep)).trans (State.sansRegs_cores _))
@[simp] theorem State.stale_clusters (pn src ep : Nat) : (s.stale pn src ep).clusters = s.clusters :=
  (State.sansRegs_clusters _).symm.trans ((congrArg State.clusters (State.stale_frame s pn src ep)).trans (State.sansRegs_clusters _))
@[simp] theorem State.stale_taken (pn src ep : Nat) : (s.stale pn src ep).taken = s.taken :=
  (State.sansRegs_taken _).symm.trans ((congrArg State.taken (State.stale_frame s pn src ep)).trans (State.sansRegs_taken _))
@[simp] theorem State.stale_mgmt (pn src ep : Nat) : (s.stale pn src ep).mgmt = s.mgmt :=
  (State.sansRegs_mgmt _).symm.trans ((congrArg State.mgmt (State.stale_frame s pn src ep)).trans (State.sansRegs_mgmt _))
@[simp] theorem State.stale_pf (pn src ep : Nat) : (s.stale pn src ep).pf = s.pf :=
  (State.sansRegs_pf _).symm.trans ((congrArg State.pf (State.stale_frame s pn src ep)).trans (State.sansRegs_pf _))
@[simp] theorem State.stale_parts (pn src ep : Nat) : (s.stale pn src ep).parts = s.parts :=
  (State.sansRegs_parts _).symm.trans ((congrArg State.parts (State.stale_frame s pn src ep)).trans (State.sansRegs_parts _))
@[simp] theorem State.stale_owners (pn src ep : Nat) : (s.stale pn src ep).owners = s.owners :=
  (State.sansRegs_owners _).symm.trans ((congrArg State.owners (State.stale_frame s pn src ep)).trans (State.sansRegs_owners _))
@[simp] theorem State.stale_creq (pn src ep : Nat) : (s.stale pn src ep).creq = s.creq :=
  (State.sansRegs_creq _).symm.trans ((congrArg State.creq (State.stale_frame s pn src ep)).trans (State.sansRegs_creq _))
@[simp] theorem State.stale_lps (pn src ep : Nat) : (s.stale pn src ep).lps = s.lps :=
  (State.sansRegs_lps _).symm.trans ((congrArg State.lps (State.stale_frame s pn src ep)).trans (State.sansRegs_lps _))
@[simp] theorem State.stale_doms (pn src ep : Nat) : (s.stale pn src ep).doms = s.doms :=
  (State.sansRegs_doms _).symm.trans ((congrArg State.doms (State.stale_frame s pn src ep)).trans (State.sansRegs_doms _))
@[simp] theorem State.stale_nvs (pn src ep : Nat) : (s.stale pn src ep).nvs = s.nvs :=
  (State.sansRegs_nvs _).symm.trans ((congrArg State.nvs (State.stale_frame s pn src ep)).trans (State.sansRegs_nvs _))
@[simp] theorem State.stale_test (pn src ep : Nat) : (s.stale pn src ep).test = s.test :=
  (State.sansRegs_test _).symm.trans ((congrArg State.test (State.stale_frame s pn src ep)).trans (State.sansRegs_test _))
@[simp] theorem State.stale_ages (pn src ep : Nat) : (s.stale pn src ep).ages = s.ages :=
  (State.sansRegs_ages _).symm.trans ((congrArg State.ages (State.stale_frame s pn src ep)).trans (State.sansRegs_ages _))
@[simp] theorem State.stale_readout (pn src ep : Nat) : (s.stale pn src ep).readout = s.readout :=
  (State.sansRegs_readout _).symm.trans ((congrArg State.readout (State.stale_frame s pn src ep)).trans (State.sansRegs_readout _))
@[simp] theorem State.stale_sec (pn src ep : Nat) : (s.stale pn src ep).sec = s.sec :=
  (State.sansRegs_sec _).symm.trans ((congrArg State.sec (State.stale_frame s pn src ep)).trans (State.sansRegs_sec _))
@[simp] theorem State.stale_arb (pn src ep : Nat) : (s.stale pn src ep).arb = s.arb :=
  (State.sansRegs_arb _).symm.trans ((congrArg State.arb (State.stale_frame s pn src ep)).trans (State.sansRegs_arb _))
@[simp] theorem State.stale_jtag (pn src ep : Nat) : (s.stale pn src ep).jtag = s.jtag :=
  (State.sansRegs_jtag _).symm.trans ((congrArg State.jtag (State.stale_frame s pn src ep)).trans (State.sansRegs_jtag _))
/-- hbmWrite changes no field but hbm. -/
theorem State.hbmWrite_frame (a : Nat) (bs : List Byte) : (s.hbmWrite a bs).sansHbm = s.sansHbm := by
  induction bs generalizing s a with
  | nil => rfl
  | cons x l ih =>
    rw [State.hbmWrite]
    exact (ih _ _).trans (State.hbmPut_sansHbm _ _ _)
@[simp] theorem State.hbmWrite_pending (a : Nat) (bs : List Byte) : (s.hbmWrite a bs).pending = s.pending :=
  (State.sansHbm_pending _).symm.trans ((congrArg State.pending (State.hbmWrite_frame s a bs)).trans (State.sansHbm_pending _))
@[simp] theorem State.hbmWrite_free (a : Nat) (bs : List Byte) : (s.hbmWrite a bs).free = s.free :=
  (State.sansHbm_free _).symm.trans ((congrArg State.free (State.hbmWrite_frame s a bs)).trans (State.sansHbm_free _))
@[simp] theorem State.hbmWrite_regs (a : Nat) (bs : List Byte) : (s.hbmWrite a bs).regs = s.regs :=
  (State.sansHbm_regs _).symm.trans ((congrArg State.regs (State.hbmWrite_frame s a bs)).trans (State.sansHbm_regs _))
@[simp] theorem State.hbmWrite_poison (a : Nat) (bs : List Byte) : (s.hbmWrite a bs).poison = s.poison :=
  (State.sansHbm_poison _).symm.trans ((congrArg State.poison (State.hbmWrite_frame s a bs)).trans (State.sansHbm_poison _))
@[simp] theorem State.hbmWrite_outs (a : Nat) (bs : List Byte) : (s.hbmWrite a bs).outs = s.outs :=
  (State.sansHbm_outs _).symm.trans ((congrArg State.outs (State.hbmWrite_frame s a bs)).trans (State.sansHbm_outs _))
@[simp] theorem State.hbmWrite_hold (a : Nat) (bs : List Byte) : (s.hbmWrite a bs).hold = s.hold :=
  (State.sansHbm_hold _).symm.trans ((congrArg State.hold (State.hbmWrite_frame s a bs)).trans (State.sansHbm_hold _))
@[simp] theorem State.hbmWrite_por (a : Nat) (bs : List Byte) : (s.hbmWrite a bs).por = s.por :=
  (State.sansHbm_por _).symm.trans ((congrArg State.por (State.hbmWrite_frame s a bs)).trans (State.sansHbm_por _))
@[simp] theorem State.hbmWrite_time (a : Nat) (bs : List Byte) : (s.hbmWrite a bs).time = s.time :=
  (State.sansHbm_time _).symm.trans ((congrArg State.time (State.hbmWrite_frame s a bs)).trans (State.sansHbm_time _))
@[simp] theorem State.hbmWrite_streams (a : Nat) (bs : List Byte) : (s.hbmWrite a bs).streams = s.streams :=
  (State.sansHbm_streams _).symm.trans ((congrArg State.streams (State.hbmWrite_frame s a bs)).trans (State.sansHbm_streams _))
@[simp] theorem State.hbmWrite_engines (a : Nat) (bs : List Byte) : (s.hbmWrite a bs).engines = s.engines :=
  (State.sansHbm_engines _).symm.trans ((congrArg State.engines (State.hbmWrite_frame s a bs)).trans (State.sansHbm_engines _))
@[simp] theorem State.hbmWrite_subs (a : Nat) (bs : List Byte) : (s.hbmWrite a bs).subs = s.subs :=
  (State.sansHbm_subs _).symm.trans ((congrArg State.subs (State.hbmWrite_frame s a bs)).trans (State.sansHbm_subs _))
@[simp] theorem State.hbmWrite_fabric (a : Nat) (bs : List Byte) : (s.hbmWrite a bs).fabric = s.fabric :=
  (State.sansHbm_fabric _).symm.trans ((congrArg State.fabric (State.hbmWrite_frame s a bs)).trans (State.sansHbm_fabric _))
@[simp] theorem State.hbmWrite_pins (a : Nat) (bs : List Byte) : (s.hbmWrite a bs).pins = s.pins :=
  (State.sansHbm_pins _).symm.trans ((congrArg State.pins (State.hbmWrite_frame s a bs)).trans (State.sansHbm_pins _))
@[simp] theorem State.hbmWrite_lanes (a : Nat) (bs : List Byte) : (s.hbmWrite a bs).lanes = s.lanes :=
  (State.sansHbm_lanes _).symm.trans ((congrArg State.lanes (State.hbmWrite_frame s a bs)).trans (State.sansHbm_lanes _))
@[simp] theorem State.hbmWrite_swcmd (a : Nat) (bs : List Byte) : (s.hbmWrite a bs).swcmd = s.swcmd :=
  (State.sansHbm_swcmd _).symm.trans ((congrArg State.swcmd (State.hbmWrite_frame s a bs)).trans (State.sansHbm_swcmd _))
@[simp] theorem State.hbmWrite_chan (a : Nat) (bs : List Byte) : (s.hbmWrite a bs).chan = s.chan :=
  (State.sansHbm_chan _).symm.trans ((congrArg State.chan (State.hbmWrite_frame s a bs)).trans (State.sansHbm_chan _))
@[simp] theorem State.hbmWrite_cores (a : Nat) (bs : List Byte) : (s.hbmWrite a bs).cores = s.cores :=
  (State.sansHbm_cores _).symm.trans ((congrArg State.cores (State.hbmWrite_frame s a bs)).trans (State.sansHbm_cores _))
@[simp] theorem State.hbmWrite_clusters (a : Nat) (bs : List Byte) : (s.hbmWrite a bs).clusters = s.clusters :=
  (State.sansHbm_clusters _).symm.trans ((congrArg State.clusters (State.hbmWrite_frame s a bs)).trans (State.sansHbm_clusters _))
@[simp] theorem State.hbmWrite_taken (a : Nat) (bs : List Byte) : (s.hbmWrite a bs).taken = s.taken :=
  (State.sansHbm_taken _).symm.trans ((congrArg State.taken (State.hbmWrite_frame s a bs)).trans (State.sansHbm_taken _))
@[simp] theorem State.hbmWrite_mgmt (a : Nat) (bs : List Byte) : (s.hbmWrite a bs).mgmt = s.mgmt :=
  (State.sansHbm_mgmt _).symm.trans ((congrArg State.mgmt (State.hbmWrite_frame s a bs)).trans (State.sansHbm_mgmt _))
@[simp] theorem State.hbmWrite_pf (a : Nat) (bs : List Byte) : (s.hbmWrite a bs).pf = s.pf :=
  (State.sansHbm_pf _).symm.trans ((congrArg State.pf (State.hbmWrite_frame s a bs)).trans (State.sansHbm_pf _))
@[simp] theorem State.hbmWrite_parts (a : Nat) (bs : List Byte) : (s.hbmWrite a bs).parts = s.parts :=
  (State.sansHbm_parts _).symm.trans ((congrArg State.parts (State.hbmWrite_frame s a bs)).trans (State.sansHbm_parts _))
@[simp] theorem State.hbmWrite_owners (a : Nat) (bs : List Byte) : (s.hbmWrite a bs).owners = s.owners :=
  (State.sansHbm_owners _).symm.trans ((congrArg State.owners (State.hbmWrite_frame s a bs)).trans (State.sansHbm_owners _))
@[simp] theorem State.hbmWrite_creq (a : Nat) (bs : List Byte) : (s.hbmWrite a bs).creq = s.creq :=
  (State.sansHbm_creq _).symm.trans ((congrArg State.creq (State.hbmWrite_frame s a bs)).trans (State.sansHbm_creq _))
@[simp] theorem State.hbmWrite_lps (a : Nat) (bs : List Byte) : (s.hbmWrite a bs).lps = s.lps :=
  (State.sansHbm_lps _).symm.trans ((congrArg State.lps (State.hbmWrite_frame s a bs)).trans (State.sansHbm_lps _))
@[simp] theorem State.hbmWrite_doms (a : Nat) (bs : List Byte) : (s.hbmWrite a bs).doms = s.doms :=
  (State.sansHbm_doms _).symm.trans ((congrArg State.doms (State.hbmWrite_frame s a bs)).trans (State.sansHbm_doms _))
@[simp] theorem State.hbmWrite_nvs (a : Nat) (bs : List Byte) : (s.hbmWrite a bs).nvs = s.nvs :=
  (State.sansHbm_nvs _).symm.trans ((congrArg State.nvs (State.hbmWrite_frame s a bs)).trans (State.sansHbm_nvs _))
@[simp] theorem State.hbmWrite_test (a : Nat) (bs : List Byte) : (s.hbmWrite a bs).test = s.test :=
  (State.sansHbm_test _).symm.trans ((congrArg State.test (State.hbmWrite_frame s a bs)).trans (State.sansHbm_test _))
@[simp] theorem State.hbmWrite_ages (a : Nat) (bs : List Byte) : (s.hbmWrite a bs).ages = s.ages :=
  (State.sansHbm_ages _).symm.trans ((congrArg State.ages (State.hbmWrite_frame s a bs)).trans (State.sansHbm_ages _))
@[simp] theorem State.hbmWrite_readout (a : Nat) (bs : List Byte) : (s.hbmWrite a bs).readout = s.readout :=
  (State.sansHbm_readout _).symm.trans ((congrArg State.readout (State.hbmWrite_frame s a bs)).trans (State.sansHbm_readout _))
@[simp] theorem State.hbmWrite_sec (a : Nat) (bs : List Byte) : (s.hbmWrite a bs).sec = s.sec :=
  (State.sansHbm_sec _).symm.trans ((congrArg State.sec (State.hbmWrite_frame s a bs)).trans (State.sansHbm_sec _))
@[simp] theorem State.hbmWrite_arb (a : Nat) (bs : List Byte) : (s.hbmWrite a bs).arb = s.arb :=
  (State.sansHbm_arb _).symm.trans ((congrArg State.arb (State.hbmWrite_frame s a bs)).trans (State.sansHbm_arb _))
@[simp] theorem State.hbmWrite_jtag (a : Nat) (bs : List Byte) : (s.hbmWrite a bs).jtag = s.jtag :=
  (State.sansHbm_jtag _).symm.trans ((congrArg State.jtag (State.hbmWrite_frame s a bs)).trans (State.sansHbm_jtag _))
/-- hbmWordPut changes no field but hbm. -/
theorem State.hbmWordPut_frame (a v : Nat) : (s.hbmWordPut a v).sansHbm = s.sansHbm := by
  unfold State.hbmWordPut; exact State.hbmWrite_frame s _ _
@[simp] theorem State.hbmWordPut_pending (a v : Nat) : (s.hbmWordPut a v).pending = s.pending :=
  (State.sansHbm_pending _).symm.trans ((congrArg State.pending (State.hbmWordPut_frame s a v)).trans (State.sansHbm_pending _))
@[simp] theorem State.hbmWordPut_free (a v : Nat) : (s.hbmWordPut a v).free = s.free :=
  (State.sansHbm_free _).symm.trans ((congrArg State.free (State.hbmWordPut_frame s a v)).trans (State.sansHbm_free _))
@[simp] theorem State.hbmWordPut_regs (a v : Nat) : (s.hbmWordPut a v).regs = s.regs :=
  (State.sansHbm_regs _).symm.trans ((congrArg State.regs (State.hbmWordPut_frame s a v)).trans (State.sansHbm_regs _))
@[simp] theorem State.hbmWordPut_poison (a v : Nat) : (s.hbmWordPut a v).poison = s.poison :=
  (State.sansHbm_poison _).symm.trans ((congrArg State.poison (State.hbmWordPut_frame s a v)).trans (State.sansHbm_poison _))
@[simp] theorem State.hbmWordPut_outs (a v : Nat) : (s.hbmWordPut a v).outs = s.outs :=
  (State.sansHbm_outs _).symm.trans ((congrArg State.outs (State.hbmWordPut_frame s a v)).trans (State.sansHbm_outs _))
@[simp] theorem State.hbmWordPut_hold (a v : Nat) : (s.hbmWordPut a v).hold = s.hold :=
  (State.sansHbm_hold _).symm.trans ((congrArg State.hold (State.hbmWordPut_frame s a v)).trans (State.sansHbm_hold _))
@[simp] theorem State.hbmWordPut_por (a v : Nat) : (s.hbmWordPut a v).por = s.por :=
  (State.sansHbm_por _).symm.trans ((congrArg State.por (State.hbmWordPut_frame s a v)).trans (State.sansHbm_por _))
@[simp] theorem State.hbmWordPut_time (a v : Nat) : (s.hbmWordPut a v).time = s.time :=
  (State.sansHbm_time _).symm.trans ((congrArg State.time (State.hbmWordPut_frame s a v)).trans (State.sansHbm_time _))
@[simp] theorem State.hbmWordPut_streams (a v : Nat) : (s.hbmWordPut a v).streams = s.streams :=
  (State.sansHbm_streams _).symm.trans ((congrArg State.streams (State.hbmWordPut_frame s a v)).trans (State.sansHbm_streams _))
@[simp] theorem State.hbmWordPut_engines (a v : Nat) : (s.hbmWordPut a v).engines = s.engines :=
  (State.sansHbm_engines _).symm.trans ((congrArg State.engines (State.hbmWordPut_frame s a v)).trans (State.sansHbm_engines _))
@[simp] theorem State.hbmWordPut_subs (a v : Nat) : (s.hbmWordPut a v).subs = s.subs :=
  (State.sansHbm_subs _).symm.trans ((congrArg State.subs (State.hbmWordPut_frame s a v)).trans (State.sansHbm_subs _))
@[simp] theorem State.hbmWordPut_fabric (a v : Nat) : (s.hbmWordPut a v).fabric = s.fabric :=
  (State.sansHbm_fabric _).symm.trans ((congrArg State.fabric (State.hbmWordPut_frame s a v)).trans (State.sansHbm_fabric _))
@[simp] theorem State.hbmWordPut_pins (a v : Nat) : (s.hbmWordPut a v).pins = s.pins :=
  (State.sansHbm_pins _).symm.trans ((congrArg State.pins (State.hbmWordPut_frame s a v)).trans (State.sansHbm_pins _))
@[simp] theorem State.hbmWordPut_lanes (a v : Nat) : (s.hbmWordPut a v).lanes = s.lanes :=
  (State.sansHbm_lanes _).symm.trans ((congrArg State.lanes (State.hbmWordPut_frame s a v)).trans (State.sansHbm_lanes _))
@[simp] theorem State.hbmWordPut_swcmd (a v : Nat) : (s.hbmWordPut a v).swcmd = s.swcmd :=
  (State.sansHbm_swcmd _).symm.trans ((congrArg State.swcmd (State.hbmWordPut_frame s a v)).trans (State.sansHbm_swcmd _))
@[simp] theorem State.hbmWordPut_chan (a v : Nat) : (s.hbmWordPut a v).chan = s.chan :=
  (State.sansHbm_chan _).symm.trans ((congrArg State.chan (State.hbmWordPut_frame s a v)).trans (State.sansHbm_chan _))
@[simp] theorem State.hbmWordPut_cores (a v : Nat) : (s.hbmWordPut a v).cores = s.cores :=
  (State.sansHbm_cores _).symm.trans ((congrArg State.cores (State.hbmWordPut_frame s a v)).trans (State.sansHbm_cores _))
@[simp] theorem State.hbmWordPut_clusters (a v : Nat) : (s.hbmWordPut a v).clusters = s.clusters :=
  (State.sansHbm_clusters _).symm.trans ((congrArg State.clusters (State.hbmWordPut_frame s a v)).trans (State.sansHbm_clusters _))
@[simp] theorem State.hbmWordPut_taken (a v : Nat) : (s.hbmWordPut a v).taken = s.taken :=
  (State.sansHbm_taken _).symm.trans ((congrArg State.taken (State.hbmWordPut_frame s a v)).trans (State.sansHbm_taken _))
@[simp] theorem State.hbmWordPut_mgmt (a v : Nat) : (s.hbmWordPut a v).mgmt = s.mgmt :=
  (State.sansHbm_mgmt _).symm.trans ((congrArg State.mgmt (State.hbmWordPut_frame s a v)).trans (State.sansHbm_mgmt _))
@[simp] theorem State.hbmWordPut_pf (a v : Nat) : (s.hbmWordPut a v).pf = s.pf :=
  (State.sansHbm_pf _).symm.trans ((congrArg State.pf (State.hbmWordPut_frame s a v)).trans (State.sansHbm_pf _))
@[simp] theorem State.hbmWordPut_parts (a v : Nat) : (s.hbmWordPut a v).parts = s.parts :=
  (State.sansHbm_parts _).symm.trans ((congrArg State.parts (State.hbmWordPut_frame s a v)).trans (State.sansHbm_parts _))
@[simp] theorem State.hbmWordPut_owners (a v : Nat) : (s.hbmWordPut a v).owners = s.owners :=
  (State.sansHbm_owners _).symm.trans ((congrArg State.owners (State.hbmWordPut_frame s a v)).trans (State.sansHbm_owners _))
@[simp] theorem State.hbmWordPut_creq (a v : Nat) : (s.hbmWordPut a v).creq = s.creq :=
  (State.sansHbm_creq _).symm.trans ((congrArg State.creq (State.hbmWordPut_frame s a v)).trans (State.sansHbm_creq _))
@[simp] theorem State.hbmWordPut_lps (a v : Nat) : (s.hbmWordPut a v).lps = s.lps :=
  (State.sansHbm_lps _).symm.trans ((congrArg State.lps (State.hbmWordPut_frame s a v)).trans (State.sansHbm_lps _))
@[simp] theorem State.hbmWordPut_doms (a v : Nat) : (s.hbmWordPut a v).doms = s.doms :=
  (State.sansHbm_doms _).symm.trans ((congrArg State.doms (State.hbmWordPut_frame s a v)).trans (State.sansHbm_doms _))
@[simp] theorem State.hbmWordPut_nvs (a v : Nat) : (s.hbmWordPut a v).nvs = s.nvs :=
  (State.sansHbm_nvs _).symm.trans ((congrArg State.nvs (State.hbmWordPut_frame s a v)).trans (State.sansHbm_nvs _))
@[simp] theorem State.hbmWordPut_test (a v : Nat) : (s.hbmWordPut a v).test = s.test :=
  (State.sansHbm_test _).symm.trans ((congrArg State.test (State.hbmWordPut_frame s a v)).trans (State.sansHbm_test _))
@[simp] theorem State.hbmWordPut_ages (a v : Nat) : (s.hbmWordPut a v).ages = s.ages :=
  (State.sansHbm_ages _).symm.trans ((congrArg State.ages (State.hbmWordPut_frame s a v)).trans (State.sansHbm_ages _))
@[simp] theorem State.hbmWordPut_readout (a v : Nat) : (s.hbmWordPut a v).readout = s.readout :=
  (State.sansHbm_readout _).symm.trans ((congrArg State.readout (State.hbmWordPut_frame s a v)).trans (State.sansHbm_readout _))
@[simp] theorem State.hbmWordPut_sec (a v : Nat) : (s.hbmWordPut a v).sec = s.sec :=
  (State.sansHbm_sec _).symm.trans ((congrArg State.sec (State.hbmWordPut_frame s a v)).trans (State.sansHbm_sec _))
@[simp] theorem State.hbmWordPut_arb (a v : Nat) : (s.hbmWordPut a v).arb = s.arb :=
  (State.sansHbm_arb _).symm.trans ((congrArg State.arb (State.hbmWordPut_frame s a v)).trans (State.sansHbm_arb _))
@[simp] theorem State.hbmWordPut_jtag (a v : Nat) : (s.hbmWordPut a v).jtag = s.jtag :=
  (State.sansHbm_jtag _).symm.trans ((congrArg State.jtag (State.hbmWordPut_frame s a v)).trans (State.sansHbm_jtag _))
/-- hbmWords changes no field but hbm. -/
theorem State.hbmWords_frame (a : Nat) (vs : List Nat) : (s.hbmWords a vs).sansHbm = s.sansHbm := by
  induction vs generalizing s a with
  | nil => rfl
  | cons x l ih =>
    have h := ih (s.hbmWordPut a x) (a + 8)
    rw [State.hbmWordPut_frame] at h
    unfold State.hbmWords; exact h
@[simp] theorem State.hbmWords_pending (a : Nat) (vs : List Nat) : (s.hbmWords a vs).pending = s.pending :=
  (State.sansHbm_pending _).symm.trans ((congrArg State.pending (State.hbmWords_frame s a vs)).trans (State.sansHbm_pending _))
@[simp] theorem State.hbmWords_free (a : Nat) (vs : List Nat) : (s.hbmWords a vs).free = s.free :=
  (State.sansHbm_free _).symm.trans ((congrArg State.free (State.hbmWords_frame s a vs)).trans (State.sansHbm_free _))
@[simp] theorem State.hbmWords_regs (a : Nat) (vs : List Nat) : (s.hbmWords a vs).regs = s.regs :=
  (State.sansHbm_regs _).symm.trans ((congrArg State.regs (State.hbmWords_frame s a vs)).trans (State.sansHbm_regs _))
@[simp] theorem State.hbmWords_poison (a : Nat) (vs : List Nat) : (s.hbmWords a vs).poison = s.poison :=
  (State.sansHbm_poison _).symm.trans ((congrArg State.poison (State.hbmWords_frame s a vs)).trans (State.sansHbm_poison _))
@[simp] theorem State.hbmWords_outs (a : Nat) (vs : List Nat) : (s.hbmWords a vs).outs = s.outs :=
  (State.sansHbm_outs _).symm.trans ((congrArg State.outs (State.hbmWords_frame s a vs)).trans (State.sansHbm_outs _))
@[simp] theorem State.hbmWords_hold (a : Nat) (vs : List Nat) : (s.hbmWords a vs).hold = s.hold :=
  (State.sansHbm_hold _).symm.trans ((congrArg State.hold (State.hbmWords_frame s a vs)).trans (State.sansHbm_hold _))
@[simp] theorem State.hbmWords_por (a : Nat) (vs : List Nat) : (s.hbmWords a vs).por = s.por :=
  (State.sansHbm_por _).symm.trans ((congrArg State.por (State.hbmWords_frame s a vs)).trans (State.sansHbm_por _))
@[simp] theorem State.hbmWords_time (a : Nat) (vs : List Nat) : (s.hbmWords a vs).time = s.time :=
  (State.sansHbm_time _).symm.trans ((congrArg State.time (State.hbmWords_frame s a vs)).trans (State.sansHbm_time _))
@[simp] theorem State.hbmWords_streams (a : Nat) (vs : List Nat) : (s.hbmWords a vs).streams = s.streams :=
  (State.sansHbm_streams _).symm.trans ((congrArg State.streams (State.hbmWords_frame s a vs)).trans (State.sansHbm_streams _))
@[simp] theorem State.hbmWords_engines (a : Nat) (vs : List Nat) : (s.hbmWords a vs).engines = s.engines :=
  (State.sansHbm_engines _).symm.trans ((congrArg State.engines (State.hbmWords_frame s a vs)).trans (State.sansHbm_engines _))
@[simp] theorem State.hbmWords_subs (a : Nat) (vs : List Nat) : (s.hbmWords a vs).subs = s.subs :=
  (State.sansHbm_subs _).symm.trans ((congrArg State.subs (State.hbmWords_frame s a vs)).trans (State.sansHbm_subs _))
@[simp] theorem State.hbmWords_fabric (a : Nat) (vs : List Nat) : (s.hbmWords a vs).fabric = s.fabric :=
  (State.sansHbm_fabric _).symm.trans ((congrArg State.fabric (State.hbmWords_frame s a vs)).trans (State.sansHbm_fabric _))
@[simp] theorem State.hbmWords_pins (a : Nat) (vs : List Nat) : (s.hbmWords a vs).pins = s.pins :=
  (State.sansHbm_pins _).symm.trans ((congrArg State.pins (State.hbmWords_frame s a vs)).trans (State.sansHbm_pins _))
@[simp] theorem State.hbmWords_lanes (a : Nat) (vs : List Nat) : (s.hbmWords a vs).lanes = s.lanes :=
  (State.sansHbm_lanes _).symm.trans ((congrArg State.lanes (State.hbmWords_frame s a vs)).trans (State.sansHbm_lanes _))
@[simp] theorem State.hbmWords_swcmd (a : Nat) (vs : List Nat) : (s.hbmWords a vs).swcmd = s.swcmd :=
  (State.sansHbm_swcmd _).symm.trans ((congrArg State.swcmd (State.hbmWords_frame s a vs)).trans (State.sansHbm_swcmd _))
@[simp] theorem State.hbmWords_chan (a : Nat) (vs : List Nat) : (s.hbmWords a vs).chan = s.chan :=
  (State.sansHbm_chan _).symm.trans ((congrArg State.chan (State.hbmWords_frame s a vs)).trans (State.sansHbm_chan _))
@[simp] theorem State.hbmWords_cores (a : Nat) (vs : List Nat) : (s.hbmWords a vs).cores = s.cores :=
  (State.sansHbm_cores _).symm.trans ((congrArg State.cores (State.hbmWords_frame s a vs)).trans (State.sansHbm_cores _))
@[simp] theorem State.hbmWords_clusters (a : Nat) (vs : List Nat) : (s.hbmWords a vs).clusters = s.clusters :=
  (State.sansHbm_clusters _).symm.trans ((congrArg State.clusters (State.hbmWords_frame s a vs)).trans (State.sansHbm_clusters _))
@[simp] theorem State.hbmWords_taken (a : Nat) (vs : List Nat) : (s.hbmWords a vs).taken = s.taken :=
  (State.sansHbm_taken _).symm.trans ((congrArg State.taken (State.hbmWords_frame s a vs)).trans (State.sansHbm_taken _))
@[simp] theorem State.hbmWords_mgmt (a : Nat) (vs : List Nat) : (s.hbmWords a vs).mgmt = s.mgmt :=
  (State.sansHbm_mgmt _).symm.trans ((congrArg State.mgmt (State.hbmWords_frame s a vs)).trans (State.sansHbm_mgmt _))
@[simp] theorem State.hbmWords_pf (a : Nat) (vs : List Nat) : (s.hbmWords a vs).pf = s.pf :=
  (State.sansHbm_pf _).symm.trans ((congrArg State.pf (State.hbmWords_frame s a vs)).trans (State.sansHbm_pf _))
@[simp] theorem State.hbmWords_parts (a : Nat) (vs : List Nat) : (s.hbmWords a vs).parts = s.parts :=
  (State.sansHbm_parts _).symm.trans ((congrArg State.parts (State.hbmWords_frame s a vs)).trans (State.sansHbm_parts _))
@[simp] theorem State.hbmWords_owners (a : Nat) (vs : List Nat) : (s.hbmWords a vs).owners = s.owners :=
  (State.sansHbm_owners _).symm.trans ((congrArg State.owners (State.hbmWords_frame s a vs)).trans (State.sansHbm_owners _))
@[simp] theorem State.hbmWords_creq (a : Nat) (vs : List Nat) : (s.hbmWords a vs).creq = s.creq :=
  (State.sansHbm_creq _).symm.trans ((congrArg State.creq (State.hbmWords_frame s a vs)).trans (State.sansHbm_creq _))
@[simp] theorem State.hbmWords_lps (a : Nat) (vs : List Nat) : (s.hbmWords a vs).lps = s.lps :=
  (State.sansHbm_lps _).symm.trans ((congrArg State.lps (State.hbmWords_frame s a vs)).trans (State.sansHbm_lps _))
@[simp] theorem State.hbmWords_doms (a : Nat) (vs : List Nat) : (s.hbmWords a vs).doms = s.doms :=
  (State.sansHbm_doms _).symm.trans ((congrArg State.doms (State.hbmWords_frame s a vs)).trans (State.sansHbm_doms _))
@[simp] theorem State.hbmWords_nvs (a : Nat) (vs : List Nat) : (s.hbmWords a vs).nvs = s.nvs :=
  (State.sansHbm_nvs _).symm.trans ((congrArg State.nvs (State.hbmWords_frame s a vs)).trans (State.sansHbm_nvs _))
@[simp] theorem State.hbmWords_test (a : Nat) (vs : List Nat) : (s.hbmWords a vs).test = s.test :=
  (State.sansHbm_test _).symm.trans ((congrArg State.test (State.hbmWords_frame s a vs)).trans (State.sansHbm_test _))
@[simp] theorem State.hbmWords_ages (a : Nat) (vs : List Nat) : (s.hbmWords a vs).ages = s.ages :=
  (State.sansHbm_ages _).symm.trans ((congrArg State.ages (State.hbmWords_frame s a vs)).trans (State.sansHbm_ages _))
@[simp] theorem State.hbmWords_readout (a : Nat) (vs : List Nat) : (s.hbmWords a vs).readout = s.readout :=
  (State.sansHbm_readout _).symm.trans ((congrArg State.readout (State.hbmWords_frame s a vs)).trans (State.sansHbm_readout _))
@[simp] theorem State.hbmWords_sec (a : Nat) (vs : List Nat) : (s.hbmWords a vs).sec = s.sec :=
  (State.sansHbm_sec _).symm.trans ((congrArg State.sec (State.hbmWords_frame s a vs)).trans (State.sansHbm_sec _))
@[simp] theorem State.hbmWords_arb (a : Nat) (vs : List Nat) : (s.hbmWords a vs).arb = s.arb :=
  (State.sansHbm_arb _).symm.trans ((congrArg State.arb (State.hbmWords_frame s a vs)).trans (State.sansHbm_arb _))
@[simp] theorem State.hbmWords_jtag (a : Nat) (vs : List Nat) : (s.hbmWords a vs).jtag = s.jtag :=
  (State.sansHbm_jtag _).symm.trans ((congrArg State.jtag (State.hbmWords_frame s a vs)).trans (State.sansHbm_jtag _))
/-- dropL1 changes no field but cores. -/
theorem State.dropL1_frame (c l : Nat) : (s.dropL1 c l).sansCores = s.sansCores := by
  exact State.withCores_sansCores _ _
@[simp] theorem State.dropL1_pending (c l : Nat) : (s.dropL1 c l).pending = s.pending :=
  (State.sansCores_pending _).symm.trans ((congrArg State.pending (State.dropL1_frame s c l)).trans (State.sansCores_pending _))
@[simp] theorem State.dropL1_free (c l : Nat) : (s.dropL1 c l).free = s.free :=
  (State.sansCores_free _).symm.trans ((congrArg State.free (State.dropL1_frame s c l)).trans (State.sansCores_free _))
@[simp] theorem State.dropL1_regs (c l : Nat) : (s.dropL1 c l).regs = s.regs :=
  (State.sansCores_regs _).symm.trans ((congrArg State.regs (State.dropL1_frame s c l)).trans (State.sansCores_regs _))
@[simp] theorem State.dropL1_hbm (c l : Nat) : (s.dropL1 c l).hbm = s.hbm :=
  (State.sansCores_hbm _).symm.trans ((congrArg State.hbm (State.dropL1_frame s c l)).trans (State.sansCores_hbm _))
@[simp] theorem State.dropL1_poison (c l : Nat) : (s.dropL1 c l).poison = s.poison :=
  (State.sansCores_poison _).symm.trans ((congrArg State.poison (State.dropL1_frame s c l)).trans (State.sansCores_poison _))
@[simp] theorem State.dropL1_outs (c l : Nat) : (s.dropL1 c l).outs = s.outs :=
  (State.sansCores_outs _).symm.trans ((congrArg State.outs (State.dropL1_frame s c l)).trans (State.sansCores_outs _))
@[simp] theorem State.dropL1_hold (c l : Nat) : (s.dropL1 c l).hold = s.hold :=
  (State.sansCores_hold _).symm.trans ((congrArg State.hold (State.dropL1_frame s c l)).trans (State.sansCores_hold _))
@[simp] theorem State.dropL1_por (c l : Nat) : (s.dropL1 c l).por = s.por :=
  (State.sansCores_por _).symm.trans ((congrArg State.por (State.dropL1_frame s c l)).trans (State.sansCores_por _))
@[simp] theorem State.dropL1_time (c l : Nat) : (s.dropL1 c l).time = s.time :=
  (State.sansCores_time _).symm.trans ((congrArg State.time (State.dropL1_frame s c l)).trans (State.sansCores_time _))
@[simp] theorem State.dropL1_streams (c l : Nat) : (s.dropL1 c l).streams = s.streams :=
  (State.sansCores_streams _).symm.trans ((congrArg State.streams (State.dropL1_frame s c l)).trans (State.sansCores_streams _))
@[simp] theorem State.dropL1_engines (c l : Nat) : (s.dropL1 c l).engines = s.engines :=
  (State.sansCores_engines _).symm.trans ((congrArg State.engines (State.dropL1_frame s c l)).trans (State.sansCores_engines _))
@[simp] theorem State.dropL1_subs (c l : Nat) : (s.dropL1 c l).subs = s.subs :=
  (State.sansCores_subs _).symm.trans ((congrArg State.subs (State.dropL1_frame s c l)).trans (State.sansCores_subs _))
@[simp] theorem State.dropL1_fabric (c l : Nat) : (s.dropL1 c l).fabric = s.fabric :=
  (State.sansCores_fabric _).symm.trans ((congrArg State.fabric (State.dropL1_frame s c l)).trans (State.sansCores_fabric _))
@[simp] theorem State.dropL1_pins (c l : Nat) : (s.dropL1 c l).pins = s.pins :=
  (State.sansCores_pins _).symm.trans ((congrArg State.pins (State.dropL1_frame s c l)).trans (State.sansCores_pins _))
@[simp] theorem State.dropL1_lanes (c l : Nat) : (s.dropL1 c l).lanes = s.lanes :=
  (State.sansCores_lanes _).symm.trans ((congrArg State.lanes (State.dropL1_frame s c l)).trans (State.sansCores_lanes _))
@[simp] theorem State.dropL1_swcmd (c l : Nat) : (s.dropL1 c l).swcmd = s.swcmd :=
  (State.sansCores_swcmd _).symm.trans ((congrArg State.swcmd (State.dropL1_frame s c l)).trans (State.sansCores_swcmd _))
@[simp] theorem State.dropL1_chan (c l : Nat) : (s.dropL1 c l).chan = s.chan :=
  (State.sansCores_chan _).symm.trans ((congrArg State.chan (State.dropL1_frame s c l)).trans (State.sansCores_chan _))
@[simp] theorem State.dropL1_clusters (c l : Nat) : (s.dropL1 c l).clusters = s.clusters :=
  (State.sansCores_clusters _).symm.trans ((congrArg State.clusters (State.dropL1_frame s c l)).trans (State.sansCores_clusters _))
@[simp] theorem State.dropL1_taken (c l : Nat) : (s.dropL1 c l).taken = s.taken :=
  (State.sansCores_taken _).symm.trans ((congrArg State.taken (State.dropL1_frame s c l)).trans (State.sansCores_taken _))
@[simp] theorem State.dropL1_mgmt (c l : Nat) : (s.dropL1 c l).mgmt = s.mgmt :=
  (State.sansCores_mgmt _).symm.trans ((congrArg State.mgmt (State.dropL1_frame s c l)).trans (State.sansCores_mgmt _))
@[simp] theorem State.dropL1_pf (c l : Nat) : (s.dropL1 c l).pf = s.pf :=
  (State.sansCores_pf _).symm.trans ((congrArg State.pf (State.dropL1_frame s c l)).trans (State.sansCores_pf _))
@[simp] theorem State.dropL1_parts (c l : Nat) : (s.dropL1 c l).parts = s.parts :=
  (State.sansCores_parts _).symm.trans ((congrArg State.parts (State.dropL1_frame s c l)).trans (State.sansCores_parts _))
@[simp] theorem State.dropL1_owners (c l : Nat) : (s.dropL1 c l).owners = s.owners :=
  (State.sansCores_owners _).symm.trans ((congrArg State.owners (State.dropL1_frame s c l)).trans (State.sansCores_owners _))
@[simp] theorem State.dropL1_creq (c l : Nat) : (s.dropL1 c l).creq = s.creq :=
  (State.sansCores_creq _).symm.trans ((congrArg State.creq (State.dropL1_frame s c l)).trans (State.sansCores_creq _))
@[simp] theorem State.dropL1_lps (c l : Nat) : (s.dropL1 c l).lps = s.lps :=
  (State.sansCores_lps _).symm.trans ((congrArg State.lps (State.dropL1_frame s c l)).trans (State.sansCores_lps _))
@[simp] theorem State.dropL1_doms (c l : Nat) : (s.dropL1 c l).doms = s.doms :=
  (State.sansCores_doms _).symm.trans ((congrArg State.doms (State.dropL1_frame s c l)).trans (State.sansCores_doms _))
@[simp] theorem State.dropL1_nvs (c l : Nat) : (s.dropL1 c l).nvs = s.nvs :=
  (State.sansCores_nvs _).symm.trans ((congrArg State.nvs (State.dropL1_frame s c l)).trans (State.sansCores_nvs _))
@[simp] theorem State.dropL1_test (c l : Nat) : (s.dropL1 c l).test = s.test :=
  (State.sansCores_test _).symm.trans ((congrArg State.test (State.dropL1_frame s c l)).trans (State.sansCores_test _))
@[simp] theorem State.dropL1_ages (c l : Nat) : (s.dropL1 c l).ages = s.ages :=
  (State.sansCores_ages _).symm.trans ((congrArg State.ages (State.dropL1_frame s c l)).trans (State.sansCores_ages _))
@[simp] theorem State.dropL1_readout (c l : Nat) : (s.dropL1 c l).readout = s.readout :=
  (State.sansCores_readout _).symm.trans ((congrArg State.readout (State.dropL1_frame s c l)).trans (State.sansCores_readout _))
@[simp] theorem State.dropL1_sec (c l : Nat) : (s.dropL1 c l).sec = s.sec :=
  (State.sansCores_sec _).symm.trans ((congrArg State.sec (State.dropL1_frame s c l)).trans (State.sansCores_sec _))
@[simp] theorem State.dropL1_arb (c l : Nat) : (s.dropL1 c l).arb = s.arb :=
  (State.sansCores_arb _).symm.trans ((congrArg State.arb (State.dropL1_frame s c l)).trans (State.sansCores_arb _))
@[simp] theorem State.dropL1_jtag (c l : Nat) : (s.dropL1 c l).jtag = s.jtag :=
  (State.sansCores_jtag _).symm.trans ((congrArg State.jtag (State.dropL1_frame s c l)).trans (State.sansCores_jtag _))
/-- setL2 changes no field but clusters. -/
theorem State.setL2_frame (c l : Nat) (x : L2Line) : (s.setL2 c l x).sansClusters = s.sansClusters := by
  exact State.setCluster_sansClusters _ _ _
@[simp] theorem State.setL2_pending (c l : Nat) (x : L2Line) : (s.setL2 c l x).pending = s.pending :=
  (State.sansClusters_pending _).symm.trans ((congrArg State.pending (State.setL2_frame s c l x)).trans (State.sansClusters_pending _))
@[simp] theorem State.setL2_free (c l : Nat) (x : L2Line) : (s.setL2 c l x).free = s.free :=
  (State.sansClusters_free _).symm.trans ((congrArg State.free (State.setL2_frame s c l x)).trans (State.sansClusters_free _))
@[simp] theorem State.setL2_regs (c l : Nat) (x : L2Line) : (s.setL2 c l x).regs = s.regs :=
  (State.sansClusters_regs _).symm.trans ((congrArg State.regs (State.setL2_frame s c l x)).trans (State.sansClusters_regs _))
@[simp] theorem State.setL2_hbm (c l : Nat) (x : L2Line) : (s.setL2 c l x).hbm = s.hbm :=
  (State.sansClusters_hbm _).symm.trans ((congrArg State.hbm (State.setL2_frame s c l x)).trans (State.sansClusters_hbm _))
@[simp] theorem State.setL2_poison (c l : Nat) (x : L2Line) : (s.setL2 c l x).poison = s.poison :=
  (State.sansClusters_poison _).symm.trans ((congrArg State.poison (State.setL2_frame s c l x)).trans (State.sansClusters_poison _))
@[simp] theorem State.setL2_outs (c l : Nat) (x : L2Line) : (s.setL2 c l x).outs = s.outs :=
  (State.sansClusters_outs _).symm.trans ((congrArg State.outs (State.setL2_frame s c l x)).trans (State.sansClusters_outs _))
@[simp] theorem State.setL2_hold (c l : Nat) (x : L2Line) : (s.setL2 c l x).hold = s.hold :=
  (State.sansClusters_hold _).symm.trans ((congrArg State.hold (State.setL2_frame s c l x)).trans (State.sansClusters_hold _))
@[simp] theorem State.setL2_por (c l : Nat) (x : L2Line) : (s.setL2 c l x).por = s.por :=
  (State.sansClusters_por _).symm.trans ((congrArg State.por (State.setL2_frame s c l x)).trans (State.sansClusters_por _))
@[simp] theorem State.setL2_time (c l : Nat) (x : L2Line) : (s.setL2 c l x).time = s.time :=
  (State.sansClusters_time _).symm.trans ((congrArg State.time (State.setL2_frame s c l x)).trans (State.sansClusters_time _))
@[simp] theorem State.setL2_streams (c l : Nat) (x : L2Line) : (s.setL2 c l x).streams = s.streams :=
  (State.sansClusters_streams _).symm.trans ((congrArg State.streams (State.setL2_frame s c l x)).trans (State.sansClusters_streams _))
@[simp] theorem State.setL2_engines (c l : Nat) (x : L2Line) : (s.setL2 c l x).engines = s.engines :=
  (State.sansClusters_engines _).symm.trans ((congrArg State.engines (State.setL2_frame s c l x)).trans (State.sansClusters_engines _))
@[simp] theorem State.setL2_subs (c l : Nat) (x : L2Line) : (s.setL2 c l x).subs = s.subs :=
  (State.sansClusters_subs _).symm.trans ((congrArg State.subs (State.setL2_frame s c l x)).trans (State.sansClusters_subs _))
@[simp] theorem State.setL2_fabric (c l : Nat) (x : L2Line) : (s.setL2 c l x).fabric = s.fabric :=
  (State.sansClusters_fabric _).symm.trans ((congrArg State.fabric (State.setL2_frame s c l x)).trans (State.sansClusters_fabric _))
@[simp] theorem State.setL2_pins (c l : Nat) (x : L2Line) : (s.setL2 c l x).pins = s.pins :=
  (State.sansClusters_pins _).symm.trans ((congrArg State.pins (State.setL2_frame s c l x)).trans (State.sansClusters_pins _))
@[simp] theorem State.setL2_lanes (c l : Nat) (x : L2Line) : (s.setL2 c l x).lanes = s.lanes :=
  (State.sansClusters_lanes _).symm.trans ((congrArg State.lanes (State.setL2_frame s c l x)).trans (State.sansClusters_lanes _))
@[simp] theorem State.setL2_swcmd (c l : Nat) (x : L2Line) : (s.setL2 c l x).swcmd = s.swcmd :=
  (State.sansClusters_swcmd _).symm.trans ((congrArg State.swcmd (State.setL2_frame s c l x)).trans (State.sansClusters_swcmd _))
@[simp] theorem State.setL2_chan (c l : Nat) (x : L2Line) : (s.setL2 c l x).chan = s.chan :=
  (State.sansClusters_chan _).symm.trans ((congrArg State.chan (State.setL2_frame s c l x)).trans (State.sansClusters_chan _))
@[simp] theorem State.setL2_cores (c l : Nat) (x : L2Line) : (s.setL2 c l x).cores = s.cores :=
  (State.sansClusters_cores _).symm.trans ((congrArg State.cores (State.setL2_frame s c l x)).trans (State.sansClusters_cores _))
@[simp] theorem State.setL2_taken (c l : Nat) (x : L2Line) : (s.setL2 c l x).taken = s.taken :=
  (State.sansClusters_taken _).symm.trans ((congrArg State.taken (State.setL2_frame s c l x)).trans (State.sansClusters_taken _))
@[simp] theorem State.setL2_mgmt (c l : Nat) (x : L2Line) : (s.setL2 c l x).mgmt = s.mgmt :=
  (State.sansClusters_mgmt _).symm.trans ((congrArg State.mgmt (State.setL2_frame s c l x)).trans (State.sansClusters_mgmt _))
@[simp] theorem State.setL2_pf (c l : Nat) (x : L2Line) : (s.setL2 c l x).pf = s.pf :=
  (State.sansClusters_pf _).symm.trans ((congrArg State.pf (State.setL2_frame s c l x)).trans (State.sansClusters_pf _))
@[simp] theorem State.setL2_parts (c l : Nat) (x : L2Line) : (s.setL2 c l x).parts = s.parts :=
  (State.sansClusters_parts _).symm.trans ((congrArg State.parts (State.setL2_frame s c l x)).trans (State.sansClusters_parts _))
@[simp] theorem State.setL2_owners (c l : Nat) (x : L2Line) : (s.setL2 c l x).owners = s.owners :=
  (State.sansClusters_owners _).symm.trans ((congrArg State.owners (State.setL2_frame s c l x)).trans (State.sansClusters_owners _))
@[simp] theorem State.setL2_creq (c l : Nat) (x : L2Line) : (s.setL2 c l x).creq = s.creq :=
  (State.sansClusters_creq _).symm.trans ((congrArg State.creq (State.setL2_frame s c l x)).trans (State.sansClusters_creq _))
@[simp] theorem State.setL2_lps (c l : Nat) (x : L2Line) : (s.setL2 c l x).lps = s.lps :=
  (State.sansClusters_lps _).symm.trans ((congrArg State.lps (State.setL2_frame s c l x)).trans (State.sansClusters_lps _))
@[simp] theorem State.setL2_doms (c l : Nat) (x : L2Line) : (s.setL2 c l x).doms = s.doms :=
  (State.sansClusters_doms _).symm.trans ((congrArg State.doms (State.setL2_frame s c l x)).trans (State.sansClusters_doms _))
@[simp] theorem State.setL2_nvs (c l : Nat) (x : L2Line) : (s.setL2 c l x).nvs = s.nvs :=
  (State.sansClusters_nvs _).symm.trans ((congrArg State.nvs (State.setL2_frame s c l x)).trans (State.sansClusters_nvs _))
@[simp] theorem State.setL2_test (c l : Nat) (x : L2Line) : (s.setL2 c l x).test = s.test :=
  (State.sansClusters_test _).symm.trans ((congrArg State.test (State.setL2_frame s c l x)).trans (State.sansClusters_test _))
@[simp] theorem State.setL2_ages (c l : Nat) (x : L2Line) : (s.setL2 c l x).ages = s.ages :=
  (State.sansClusters_ages _).symm.trans ((congrArg State.ages (State.setL2_frame s c l x)).trans (State.sansClusters_ages _))
@[simp] theorem State.setL2_readout (c l : Nat) (x : L2Line) : (s.setL2 c l x).readout = s.readout :=
  (State.sansClusters_readout _).symm.trans ((congrArg State.readout (State.setL2_frame s c l x)).trans (State.sansClusters_readout _))
@[simp] theorem State.setL2_sec (c l : Nat) (x : L2Line) : (s.setL2 c l x).sec = s.sec :=
  (State.sansClusters_sec _).symm.trans ((congrArg State.sec (State.setL2_frame s c l x)).trans (State.sansClusters_sec _))
@[simp] theorem State.setL2_arb (c l : Nat) (x : L2Line) : (s.setL2 c l x).arb = s.arb :=
  (State.sansClusters_arb _).symm.trans ((congrArg State.arb (State.setL2_frame s c l x)).trans (State.sansClusters_arb _))
@[simp] theorem State.setL2_jtag (c l : Nat) (x : L2Line) : (s.setL2 c l x).jtag = s.jtag :=
  (State.sansClusters_jtag _).symm.trans ((congrArg State.jtag (State.setL2_frame s c l x)).trans (State.sansClusters_jtag _))
/-- writeBack changes no field but hbm, poison, clusters. -/
theorem State.writeBack_frame (c l : Nat) : (s.writeBack c l).sansBack = s.sansBack := by
  unfold State.writeBack State.setL2; split
  · split
    · rw [State.setCluster_sansBack, State.setPoison_sansBack]; exact State.sansBack_of (State.hbmWrite_frame _ _ _)
    · rfl
  · rfl
@[simp] theorem State.writeBack_pending (c l : Nat) : (s.writeBack c l).pending = s.pending :=
  (State.sansBack_pending _).symm.trans ((congrArg State.pending (State.writeBack_frame s c l)).trans (State.sansBack_pending _))
@[simp] theorem State.writeBack_free (c l : Nat) : (s.writeBack c l).free = s.free :=
  (State.sansBack_free _).symm.trans ((congrArg State.free (State.writeBack_frame s c l)).trans (State.sansBack_free _))
@[simp] theorem State.writeBack_regs (c l : Nat) : (s.writeBack c l).regs = s.regs :=
  (State.sansBack_regs _).symm.trans ((congrArg State.regs (State.writeBack_frame s c l)).trans (State.sansBack_regs _))
@[simp] theorem State.writeBack_outs (c l : Nat) : (s.writeBack c l).outs = s.outs :=
  (State.sansBack_outs _).symm.trans ((congrArg State.outs (State.writeBack_frame s c l)).trans (State.sansBack_outs _))
@[simp] theorem State.writeBack_hold (c l : Nat) : (s.writeBack c l).hold = s.hold :=
  (State.sansBack_hold _).symm.trans ((congrArg State.hold (State.writeBack_frame s c l)).trans (State.sansBack_hold _))
@[simp] theorem State.writeBack_por (c l : Nat) : (s.writeBack c l).por = s.por :=
  (State.sansBack_por _).symm.trans ((congrArg State.por (State.writeBack_frame s c l)).trans (State.sansBack_por _))
@[simp] theorem State.writeBack_time (c l : Nat) : (s.writeBack c l).time = s.time :=
  (State.sansBack_time _).symm.trans ((congrArg State.time (State.writeBack_frame s c l)).trans (State.sansBack_time _))
@[simp] theorem State.writeBack_streams (c l : Nat) : (s.writeBack c l).streams = s.streams :=
  (State.sansBack_streams _).symm.trans ((congrArg State.streams (State.writeBack_frame s c l)).trans (State.sansBack_streams _))
@[simp] theorem State.writeBack_engines (c l : Nat) : (s.writeBack c l).engines = s.engines :=
  (State.sansBack_engines _).symm.trans ((congrArg State.engines (State.writeBack_frame s c l)).trans (State.sansBack_engines _))
@[simp] theorem State.writeBack_subs (c l : Nat) : (s.writeBack c l).subs = s.subs :=
  (State.sansBack_subs _).symm.trans ((congrArg State.subs (State.writeBack_frame s c l)).trans (State.sansBack_subs _))
@[simp] theorem State.writeBack_fabric (c l : Nat) : (s.writeBack c l).fabric = s.fabric :=
  (State.sansBack_fabric _).symm.trans ((congrArg State.fabric (State.writeBack_frame s c l)).trans (State.sansBack_fabric _))
@[simp] theorem State.writeBack_pins (c l : Nat) : (s.writeBack c l).pins = s.pins :=
  (State.sansBack_pins _).symm.trans ((congrArg State.pins (State.writeBack_frame s c l)).trans (State.sansBack_pins _))
@[simp] theorem State.writeBack_lanes (c l : Nat) : (s.writeBack c l).lanes = s.lanes :=
  (State.sansBack_lanes _).symm.trans ((congrArg State.lanes (State.writeBack_frame s c l)).trans (State.sansBack_lanes _))
@[simp] theorem State.writeBack_swcmd (c l : Nat) : (s.writeBack c l).swcmd = s.swcmd :=
  (State.sansBack_swcmd _).symm.trans ((congrArg State.swcmd (State.writeBack_frame s c l)).trans (State.sansBack_swcmd _))
@[simp] theorem State.writeBack_chan (c l : Nat) : (s.writeBack c l).chan = s.chan :=
  (State.sansBack_chan _).symm.trans ((congrArg State.chan (State.writeBack_frame s c l)).trans (State.sansBack_chan _))
@[simp] theorem State.writeBack_cores (c l : Nat) : (s.writeBack c l).cores = s.cores :=
  (State.sansBack_cores _).symm.trans ((congrArg State.cores (State.writeBack_frame s c l)).trans (State.sansBack_cores _))
@[simp] theorem State.writeBack_taken (c l : Nat) : (s.writeBack c l).taken = s.taken :=
  (State.sansBack_taken _).symm.trans ((congrArg State.taken (State.writeBack_frame s c l)).trans (State.sansBack_taken _))
@[simp] theorem State.writeBack_mgmt (c l : Nat) : (s.writeBack c l).mgmt = s.mgmt :=
  (State.sansBack_mgmt _).symm.trans ((congrArg State.mgmt (State.writeBack_frame s c l)).trans (State.sansBack_mgmt _))
@[simp] theorem State.writeBack_pf (c l : Nat) : (s.writeBack c l).pf = s.pf :=
  (State.sansBack_pf _).symm.trans ((congrArg State.pf (State.writeBack_frame s c l)).trans (State.sansBack_pf _))
@[simp] theorem State.writeBack_parts (c l : Nat) : (s.writeBack c l).parts = s.parts :=
  (State.sansBack_parts _).symm.trans ((congrArg State.parts (State.writeBack_frame s c l)).trans (State.sansBack_parts _))
@[simp] theorem State.writeBack_owners (c l : Nat) : (s.writeBack c l).owners = s.owners :=
  (State.sansBack_owners _).symm.trans ((congrArg State.owners (State.writeBack_frame s c l)).trans (State.sansBack_owners _))
@[simp] theorem State.writeBack_creq (c l : Nat) : (s.writeBack c l).creq = s.creq :=
  (State.sansBack_creq _).symm.trans ((congrArg State.creq (State.writeBack_frame s c l)).trans (State.sansBack_creq _))
@[simp] theorem State.writeBack_lps (c l : Nat) : (s.writeBack c l).lps = s.lps :=
  (State.sansBack_lps _).symm.trans ((congrArg State.lps (State.writeBack_frame s c l)).trans (State.sansBack_lps _))
@[simp] theorem State.writeBack_doms (c l : Nat) : (s.writeBack c l).doms = s.doms :=
  (State.sansBack_doms _).symm.trans ((congrArg State.doms (State.writeBack_frame s c l)).trans (State.sansBack_doms _))
@[simp] theorem State.writeBack_nvs (c l : Nat) : (s.writeBack c l).nvs = s.nvs :=
  (State.sansBack_nvs _).symm.trans ((congrArg State.nvs (State.writeBack_frame s c l)).trans (State.sansBack_nvs _))
@[simp] theorem State.writeBack_test (c l : Nat) : (s.writeBack c l).test = s.test :=
  (State.sansBack_test _).symm.trans ((congrArg State.test (State.writeBack_frame s c l)).trans (State.sansBack_test _))
@[simp] theorem State.writeBack_ages (c l : Nat) : (s.writeBack c l).ages = s.ages :=
  (State.sansBack_ages _).symm.trans ((congrArg State.ages (State.writeBack_frame s c l)).trans (State.sansBack_ages _))
@[simp] theorem State.writeBack_readout (c l : Nat) : (s.writeBack c l).readout = s.readout :=
  (State.sansBack_readout _).symm.trans ((congrArg State.readout (State.writeBack_frame s c l)).trans (State.sansBack_readout _))
@[simp] theorem State.writeBack_sec (c l : Nat) : (s.writeBack c l).sec = s.sec :=
  (State.sansBack_sec _).symm.trans ((congrArg State.sec (State.writeBack_frame s c l)).trans (State.sansBack_sec _))
@[simp] theorem State.writeBack_arb (c l : Nat) : (s.writeBack c l).arb = s.arb :=
  (State.sansBack_arb _).symm.trans ((congrArg State.arb (State.writeBack_frame s c l)).trans (State.sansBack_arb _))
@[simp] theorem State.writeBack_jtag (c l : Nat) : (s.writeBack c l).jtag = s.jtag :=
  (State.sansBack_jtag _).symm.trans ((congrArg State.jtag (State.writeBack_frame s c l)).trans (State.sansBack_jtag _))
/-- dropLine changes no field but cores, clusters. -/
theorem State.dropLine_frame (c l : Nat) : (s.dropLine c l).sansLines = s.sansLines := by
  unfold State.dropLine State.dropL1; exact (State.setCluster_sansLines _ _ _).trans (State.withCores_sansLines _ _)
@[simp] theorem State.dropLine_pending (c l : Nat) : (s.dropLine c l).pending = s.pending :=
  (State.sansLines_pending _).symm.trans ((congrArg State.pending (State.dropLine_frame s c l)).trans (State.sansLines_pending _))
@[simp] theorem State.dropLine_free (c l : Nat) : (s.dropLine c l).free = s.free :=
  (State.sansLines_free _).symm.trans ((congrArg State.free (State.dropLine_frame s c l)).trans (State.sansLines_free _))
@[simp] theorem State.dropLine_regs (c l : Nat) : (s.dropLine c l).regs = s.regs :=
  (State.sansLines_regs _).symm.trans ((congrArg State.regs (State.dropLine_frame s c l)).trans (State.sansLines_regs _))
@[simp] theorem State.dropLine_hbm (c l : Nat) : (s.dropLine c l).hbm = s.hbm :=
  (State.sansLines_hbm _).symm.trans ((congrArg State.hbm (State.dropLine_frame s c l)).trans (State.sansLines_hbm _))
@[simp] theorem State.dropLine_poison (c l : Nat) : (s.dropLine c l).poison = s.poison :=
  (State.sansLines_poison _).symm.trans ((congrArg State.poison (State.dropLine_frame s c l)).trans (State.sansLines_poison _))
@[simp] theorem State.dropLine_outs (c l : Nat) : (s.dropLine c l).outs = s.outs :=
  (State.sansLines_outs _).symm.trans ((congrArg State.outs (State.dropLine_frame s c l)).trans (State.sansLines_outs _))
@[simp] theorem State.dropLine_hold (c l : Nat) : (s.dropLine c l).hold = s.hold :=
  (State.sansLines_hold _).symm.trans ((congrArg State.hold (State.dropLine_frame s c l)).trans (State.sansLines_hold _))
@[simp] theorem State.dropLine_por (c l : Nat) : (s.dropLine c l).por = s.por :=
  (State.sansLines_por _).symm.trans ((congrArg State.por (State.dropLine_frame s c l)).trans (State.sansLines_por _))
@[simp] theorem State.dropLine_time (c l : Nat) : (s.dropLine c l).time = s.time :=
  (State.sansLines_time _).symm.trans ((congrArg State.time (State.dropLine_frame s c l)).trans (State.sansLines_time _))
@[simp] theorem State.dropLine_streams (c l : Nat) : (s.dropLine c l).streams = s.streams :=
  (State.sansLines_streams _).symm.trans ((congrArg State.streams (State.dropLine_frame s c l)).trans (State.sansLines_streams _))
@[simp] theorem State.dropLine_engines (c l : Nat) : (s.dropLine c l).engines = s.engines :=
  (State.sansLines_engines _).symm.trans ((congrArg State.engines (State.dropLine_frame s c l)).trans (State.sansLines_engines _))
@[simp] theorem State.dropLine_subs (c l : Nat) : (s.dropLine c l).subs = s.subs :=
  (State.sansLines_subs _).symm.trans ((congrArg State.subs (State.dropLine_frame s c l)).trans (State.sansLines_subs _))
@[simp] theorem State.dropLine_fabric (c l : Nat) : (s.dropLine c l).fabric = s.fabric :=
  (State.sansLines_fabric _).symm.trans ((congrArg State.fabric (State.dropLine_frame s c l)).trans (State.sansLines_fabric _))
@[simp] theorem State.dropLine_pins (c l : Nat) : (s.dropLine c l).pins = s.pins :=
  (State.sansLines_pins _).symm.trans ((congrArg State.pins (State.dropLine_frame s c l)).trans (State.sansLines_pins _))
@[simp] theorem State.dropLine_lanes (c l : Nat) : (s.dropLine c l).lanes = s.lanes :=
  (State.sansLines_lanes _).symm.trans ((congrArg State.lanes (State.dropLine_frame s c l)).trans (State.sansLines_lanes _))
@[simp] theorem State.dropLine_swcmd (c l : Nat) : (s.dropLine c l).swcmd = s.swcmd :=
  (State.sansLines_swcmd _).symm.trans ((congrArg State.swcmd (State.dropLine_frame s c l)).trans (State.sansLines_swcmd _))
@[simp] theorem State.dropLine_chan (c l : Nat) : (s.dropLine c l).chan = s.chan :=
  (State.sansLines_chan _).symm.trans ((congrArg State.chan (State.dropLine_frame s c l)).trans (State.sansLines_chan _))
@[simp] theorem State.dropLine_taken (c l : Nat) : (s.dropLine c l).taken = s.taken :=
  (State.sansLines_taken _).symm.trans ((congrArg State.taken (State.dropLine_frame s c l)).trans (State.sansLines_taken _))
@[simp] theorem State.dropLine_mgmt (c l : Nat) : (s.dropLine c l).mgmt = s.mgmt :=
  (State.sansLines_mgmt _).symm.trans ((congrArg State.mgmt (State.dropLine_frame s c l)).trans (State.sansLines_mgmt _))
@[simp] theorem State.dropLine_pf (c l : Nat) : (s.dropLine c l).pf = s.pf :=
  (State.sansLines_pf _).symm.trans ((congrArg State.pf (State.dropLine_frame s c l)).trans (State.sansLines_pf _))
@[simp] theorem State.dropLine_parts (c l : Nat) : (s.dropLine c l).parts = s.parts :=
  (State.sansLines_parts _).symm.trans ((congrArg State.parts (State.dropLine_frame s c l)).trans (State.sansLines_parts _))
@[simp] theorem State.dropLine_owners (c l : Nat) : (s.dropLine c l).owners = s.owners :=
  (State.sansLines_owners _).symm.trans ((congrArg State.owners (State.dropLine_frame s c l)).trans (State.sansLines_owners _))
@[simp] theorem State.dropLine_creq (c l : Nat) : (s.dropLine c l).creq = s.creq :=
  (State.sansLines_creq _).symm.trans ((congrArg State.creq (State.dropLine_frame s c l)).trans (State.sansLines_creq _))
@[simp] theorem State.dropLine_lps (c l : Nat) : (s.dropLine c l).lps = s.lps :=
  (State.sansLines_lps _).symm.trans ((congrArg State.lps (State.dropLine_frame s c l)).trans (State.sansLines_lps _))
@[simp] theorem State.dropLine_doms (c l : Nat) : (s.dropLine c l).doms = s.doms :=
  (State.sansLines_doms _).symm.trans ((congrArg State.doms (State.dropLine_frame s c l)).trans (State.sansLines_doms _))
@[simp] theorem State.dropLine_nvs (c l : Nat) : (s.dropLine c l).nvs = s.nvs :=
  (State.sansLines_nvs _).symm.trans ((congrArg State.nvs (State.dropLine_frame s c l)).trans (State.sansLines_nvs _))
@[simp] theorem State.dropLine_test (c l : Nat) : (s.dropLine c l).test = s.test :=
  (State.sansLines_test _).symm.trans ((congrArg State.test (State.dropLine_frame s c l)).trans (State.sansLines_test _))
@[simp] theorem State.dropLine_ages (c l : Nat) : (s.dropLine c l).ages = s.ages :=
  (State.sansLines_ages _).symm.trans ((congrArg State.ages (State.dropLine_frame s c l)).trans (State.sansLines_ages _))
@[simp] theorem State.dropLine_readout (c l : Nat) : (s.dropLine c l).readout = s.readout :=
  (State.sansLines_readout _).symm.trans ((congrArg State.readout (State.dropLine_frame s c l)).trans (State.sansLines_readout _))
@[simp] theorem State.dropLine_sec (c l : Nat) : (s.dropLine c l).sec = s.sec :=
  (State.sansLines_sec _).symm.trans ((congrArg State.sec (State.dropLine_frame s c l)).trans (State.sansLines_sec _))
@[simp] theorem State.dropLine_arb (c l : Nat) : (s.dropLine c l).arb = s.arb :=
  (State.sansLines_arb _).symm.trans ((congrArg State.arb (State.dropLine_frame s c l)).trans (State.sansLines_arb _))
@[simp] theorem State.dropLine_jtag (c l : Nat) : (s.dropLine c l).jtag = s.jtag :=
  (State.sansLines_jtag _).symm.trans ((congrArg State.jtag (State.dropLine_frame s c l)).trans (State.sansLines_jtag _))
/-- evictLine changes no field but hbm, poison, clusters, cores. -/
theorem State.evictLine_frame (c l : Nat) : (s.evictLine c l).sansBus = s.sansBus := by
  unfold State.evictLine; exact (State.sansBus_ofLines (State.dropLine_frame _ _ _)).trans (State.sansBus_of (State.writeBack_frame _ _ _))
@[simp] theorem State.evictLine_pending (c l : Nat) : (s.evictLine c l).pending = s.pending :=
  (State.sansBus_pending _).symm.trans ((congrArg State.pending (State.evictLine_frame s c l)).trans (State.sansBus_pending _))
@[simp] theorem State.evictLine_free (c l : Nat) : (s.evictLine c l).free = s.free :=
  (State.sansBus_free _).symm.trans ((congrArg State.free (State.evictLine_frame s c l)).trans (State.sansBus_free _))
@[simp] theorem State.evictLine_regs (c l : Nat) : (s.evictLine c l).regs = s.regs :=
  (State.sansBus_regs _).symm.trans ((congrArg State.regs (State.evictLine_frame s c l)).trans (State.sansBus_regs _))
@[simp] theorem State.evictLine_outs (c l : Nat) : (s.evictLine c l).outs = s.outs :=
  (State.sansBus_outs _).symm.trans ((congrArg State.outs (State.evictLine_frame s c l)).trans (State.sansBus_outs _))
@[simp] theorem State.evictLine_hold (c l : Nat) : (s.evictLine c l).hold = s.hold :=
  (State.sansBus_hold _).symm.trans ((congrArg State.hold (State.evictLine_frame s c l)).trans (State.sansBus_hold _))
@[simp] theorem State.evictLine_por (c l : Nat) : (s.evictLine c l).por = s.por :=
  (State.sansBus_por _).symm.trans ((congrArg State.por (State.evictLine_frame s c l)).trans (State.sansBus_por _))
@[simp] theorem State.evictLine_time (c l : Nat) : (s.evictLine c l).time = s.time :=
  (State.sansBus_time _).symm.trans ((congrArg State.time (State.evictLine_frame s c l)).trans (State.sansBus_time _))
@[simp] theorem State.evictLine_streams (c l : Nat) : (s.evictLine c l).streams = s.streams :=
  (State.sansBus_streams _).symm.trans ((congrArg State.streams (State.evictLine_frame s c l)).trans (State.sansBus_streams _))
@[simp] theorem State.evictLine_engines (c l : Nat) : (s.evictLine c l).engines = s.engines :=
  (State.sansBus_engines _).symm.trans ((congrArg State.engines (State.evictLine_frame s c l)).trans (State.sansBus_engines _))
@[simp] theorem State.evictLine_subs (c l : Nat) : (s.evictLine c l).subs = s.subs :=
  (State.sansBus_subs _).symm.trans ((congrArg State.subs (State.evictLine_frame s c l)).trans (State.sansBus_subs _))
@[simp] theorem State.evictLine_fabric (c l : Nat) : (s.evictLine c l).fabric = s.fabric :=
  (State.sansBus_fabric _).symm.trans ((congrArg State.fabric (State.evictLine_frame s c l)).trans (State.sansBus_fabric _))
@[simp] theorem State.evictLine_pins (c l : Nat) : (s.evictLine c l).pins = s.pins :=
  (State.sansBus_pins _).symm.trans ((congrArg State.pins (State.evictLine_frame s c l)).trans (State.sansBus_pins _))
@[simp] theorem State.evictLine_lanes (c l : Nat) : (s.evictLine c l).lanes = s.lanes :=
  (State.sansBus_lanes _).symm.trans ((congrArg State.lanes (State.evictLine_frame s c l)).trans (State.sansBus_lanes _))
@[simp] theorem State.evictLine_swcmd (c l : Nat) : (s.evictLine c l).swcmd = s.swcmd :=
  (State.sansBus_swcmd _).symm.trans ((congrArg State.swcmd (State.evictLine_frame s c l)).trans (State.sansBus_swcmd _))
@[simp] theorem State.evictLine_chan (c l : Nat) : (s.evictLine c l).chan = s.chan :=
  (State.sansBus_chan _).symm.trans ((congrArg State.chan (State.evictLine_frame s c l)).trans (State.sansBus_chan _))
@[simp] theorem State.evictLine_taken (c l : Nat) : (s.evictLine c l).taken = s.taken :=
  (State.sansBus_taken _).symm.trans ((congrArg State.taken (State.evictLine_frame s c l)).trans (State.sansBus_taken _))
@[simp] theorem State.evictLine_mgmt (c l : Nat) : (s.evictLine c l).mgmt = s.mgmt :=
  (State.sansBus_mgmt _).symm.trans ((congrArg State.mgmt (State.evictLine_frame s c l)).trans (State.sansBus_mgmt _))
@[simp] theorem State.evictLine_pf (c l : Nat) : (s.evictLine c l).pf = s.pf :=
  (State.sansBus_pf _).symm.trans ((congrArg State.pf (State.evictLine_frame s c l)).trans (State.sansBus_pf _))
@[simp] theorem State.evictLine_parts (c l : Nat) : (s.evictLine c l).parts = s.parts :=
  (State.sansBus_parts _).symm.trans ((congrArg State.parts (State.evictLine_frame s c l)).trans (State.sansBus_parts _))
@[simp] theorem State.evictLine_owners (c l : Nat) : (s.evictLine c l).owners = s.owners :=
  (State.sansBus_owners _).symm.trans ((congrArg State.owners (State.evictLine_frame s c l)).trans (State.sansBus_owners _))
@[simp] theorem State.evictLine_creq (c l : Nat) : (s.evictLine c l).creq = s.creq :=
  (State.sansBus_creq _).symm.trans ((congrArg State.creq (State.evictLine_frame s c l)).trans (State.sansBus_creq _))
@[simp] theorem State.evictLine_lps (c l : Nat) : (s.evictLine c l).lps = s.lps :=
  (State.sansBus_lps _).symm.trans ((congrArg State.lps (State.evictLine_frame s c l)).trans (State.sansBus_lps _))
@[simp] theorem State.evictLine_doms (c l : Nat) : (s.evictLine c l).doms = s.doms :=
  (State.sansBus_doms _).symm.trans ((congrArg State.doms (State.evictLine_frame s c l)).trans (State.sansBus_doms _))
@[simp] theorem State.evictLine_nvs (c l : Nat) : (s.evictLine c l).nvs = s.nvs :=
  (State.sansBus_nvs _).symm.trans ((congrArg State.nvs (State.evictLine_frame s c l)).trans (State.sansBus_nvs _))
@[simp] theorem State.evictLine_test (c l : Nat) : (s.evictLine c l).test = s.test :=
  (State.sansBus_test _).symm.trans ((congrArg State.test (State.evictLine_frame s c l)).trans (State.sansBus_test _))
@[simp] theorem State.evictLine_ages (c l : Nat) : (s.evictLine c l).ages = s.ages :=
  (State.sansBus_ages _).symm.trans ((congrArg State.ages (State.evictLine_frame s c l)).trans (State.sansBus_ages _))
@[simp] theorem State.evictLine_readout (c l : Nat) : (s.evictLine c l).readout = s.readout :=
  (State.sansBus_readout _).symm.trans ((congrArg State.readout (State.evictLine_frame s c l)).trans (State.sansBus_readout _))
@[simp] theorem State.evictLine_sec (c l : Nat) : (s.evictLine c l).sec = s.sec :=
  (State.sansBus_sec _).symm.trans ((congrArg State.sec (State.evictLine_frame s c l)).trans (State.sansBus_sec _))
@[simp] theorem State.evictLine_arb (c l : Nat) : (s.evictLine c l).arb = s.arb :=
  (State.sansBus_arb _).symm.trans ((congrArg State.arb (State.evictLine_frame s c l)).trans (State.sansBus_arb _))
@[simp] theorem State.evictLine_jtag (c l : Nat) : (s.evictLine c l).jtag = s.jtag :=
  (State.sansBus_jtag _).symm.trans ((congrArg State.jtag (State.evictLine_frame s c l)).trans (State.sansBus_jtag _))
/-- l2Install changes no field but hbm, poison, clusters, cores. -/
theorem State.l2Install_frame (c l : Nat) (d : List Byte) (x y : Bool) : (s.l2Install c l d x y).sansBus = s.sansBus := by
  unfold State.l2Install State.setL2; dsimp only
  rw [State.setCluster_sansBus, State.setCluster_sansBus]; split
  · exact State.evictLine_frame _ _ _
  · rfl
@[simp] theorem State.l2Install_pending (c l : Nat) (d : List Byte) (x y : Bool) : (s.l2Install c l d x y).pending = s.pending :=
  (State.sansBus_pending _).symm.trans ((congrArg State.pending (State.l2Install_frame s c l d x y)).trans (State.sansBus_pending _))
@[simp] theorem State.l2Install_free (c l : Nat) (d : List Byte) (x y : Bool) : (s.l2Install c l d x y).free = s.free :=
  (State.sansBus_free _).symm.trans ((congrArg State.free (State.l2Install_frame s c l d x y)).trans (State.sansBus_free _))
@[simp] theorem State.l2Install_regs (c l : Nat) (d : List Byte) (x y : Bool) : (s.l2Install c l d x y).regs = s.regs :=
  (State.sansBus_regs _).symm.trans ((congrArg State.regs (State.l2Install_frame s c l d x y)).trans (State.sansBus_regs _))
@[simp] theorem State.l2Install_outs (c l : Nat) (d : List Byte) (x y : Bool) : (s.l2Install c l d x y).outs = s.outs :=
  (State.sansBus_outs _).symm.trans ((congrArg State.outs (State.l2Install_frame s c l d x y)).trans (State.sansBus_outs _))
@[simp] theorem State.l2Install_hold (c l : Nat) (d : List Byte) (x y : Bool) : (s.l2Install c l d x y).hold = s.hold :=
  (State.sansBus_hold _).symm.trans ((congrArg State.hold (State.l2Install_frame s c l d x y)).trans (State.sansBus_hold _))
@[simp] theorem State.l2Install_por (c l : Nat) (d : List Byte) (x y : Bool) : (s.l2Install c l d x y).por = s.por :=
  (State.sansBus_por _).symm.trans ((congrArg State.por (State.l2Install_frame s c l d x y)).trans (State.sansBus_por _))
@[simp] theorem State.l2Install_time (c l : Nat) (d : List Byte) (x y : Bool) : (s.l2Install c l d x y).time = s.time :=
  (State.sansBus_time _).symm.trans ((congrArg State.time (State.l2Install_frame s c l d x y)).trans (State.sansBus_time _))
@[simp] theorem State.l2Install_streams (c l : Nat) (d : List Byte) (x y : Bool) : (s.l2Install c l d x y).streams = s.streams :=
  (State.sansBus_streams _).symm.trans ((congrArg State.streams (State.l2Install_frame s c l d x y)).trans (State.sansBus_streams _))
@[simp] theorem State.l2Install_engines (c l : Nat) (d : List Byte) (x y : Bool) : (s.l2Install c l d x y).engines = s.engines :=
  (State.sansBus_engines _).symm.trans ((congrArg State.engines (State.l2Install_frame s c l d x y)).trans (State.sansBus_engines _))
@[simp] theorem State.l2Install_subs (c l : Nat) (d : List Byte) (x y : Bool) : (s.l2Install c l d x y).subs = s.subs :=
  (State.sansBus_subs _).symm.trans ((congrArg State.subs (State.l2Install_frame s c l d x y)).trans (State.sansBus_subs _))
@[simp] theorem State.l2Install_fabric (c l : Nat) (d : List Byte) (x y : Bool) : (s.l2Install c l d x y).fabric = s.fabric :=
  (State.sansBus_fabric _).symm.trans ((congrArg State.fabric (State.l2Install_frame s c l d x y)).trans (State.sansBus_fabric _))
@[simp] theorem State.l2Install_pins (c l : Nat) (d : List Byte) (x y : Bool) : (s.l2Install c l d x y).pins = s.pins :=
  (State.sansBus_pins _).symm.trans ((congrArg State.pins (State.l2Install_frame s c l d x y)).trans (State.sansBus_pins _))
@[simp] theorem State.l2Install_lanes (c l : Nat) (d : List Byte) (x y : Bool) : (s.l2Install c l d x y).lanes = s.lanes :=
  (State.sansBus_lanes _).symm.trans ((congrArg State.lanes (State.l2Install_frame s c l d x y)).trans (State.sansBus_lanes _))
@[simp] theorem State.l2Install_swcmd (c l : Nat) (d : List Byte) (x y : Bool) : (s.l2Install c l d x y).swcmd = s.swcmd :=
  (State.sansBus_swcmd _).symm.trans ((congrArg State.swcmd (State.l2Install_frame s c l d x y)).trans (State.sansBus_swcmd _))
@[simp] theorem State.l2Install_chan (c l : Nat) (d : List Byte) (x y : Bool) : (s.l2Install c l d x y).chan = s.chan :=
  (State.sansBus_chan _).symm.trans ((congrArg State.chan (State.l2Install_frame s c l d x y)).trans (State.sansBus_chan _))
@[simp] theorem State.l2Install_taken (c l : Nat) (d : List Byte) (x y : Bool) : (s.l2Install c l d x y).taken = s.taken :=
  (State.sansBus_taken _).symm.trans ((congrArg State.taken (State.l2Install_frame s c l d x y)).trans (State.sansBus_taken _))
@[simp] theorem State.l2Install_mgmt (c l : Nat) (d : List Byte) (x y : Bool) : (s.l2Install c l d x y).mgmt = s.mgmt :=
  (State.sansBus_mgmt _).symm.trans ((congrArg State.mgmt (State.l2Install_frame s c l d x y)).trans (State.sansBus_mgmt _))
@[simp] theorem State.l2Install_pf (c l : Nat) (d : List Byte) (x y : Bool) : (s.l2Install c l d x y).pf = s.pf :=
  (State.sansBus_pf _).symm.trans ((congrArg State.pf (State.l2Install_frame s c l d x y)).trans (State.sansBus_pf _))
@[simp] theorem State.l2Install_parts (c l : Nat) (d : List Byte) (x y : Bool) : (s.l2Install c l d x y).parts = s.parts :=
  (State.sansBus_parts _).symm.trans ((congrArg State.parts (State.l2Install_frame s c l d x y)).trans (State.sansBus_parts _))
@[simp] theorem State.l2Install_owners (c l : Nat) (d : List Byte) (x y : Bool) : (s.l2Install c l d x y).owners = s.owners :=
  (State.sansBus_owners _).symm.trans ((congrArg State.owners (State.l2Install_frame s c l d x y)).trans (State.sansBus_owners _))
@[simp] theorem State.l2Install_creq (c l : Nat) (d : List Byte) (x y : Bool) : (s.l2Install c l d x y).creq = s.creq :=
  (State.sansBus_creq _).symm.trans ((congrArg State.creq (State.l2Install_frame s c l d x y)).trans (State.sansBus_creq _))
@[simp] theorem State.l2Install_lps (c l : Nat) (d : List Byte) (x y : Bool) : (s.l2Install c l d x y).lps = s.lps :=
  (State.sansBus_lps _).symm.trans ((congrArg State.lps (State.l2Install_frame s c l d x y)).trans (State.sansBus_lps _))
@[simp] theorem State.l2Install_doms (c l : Nat) (d : List Byte) (x y : Bool) : (s.l2Install c l d x y).doms = s.doms :=
  (State.sansBus_doms _).symm.trans ((congrArg State.doms (State.l2Install_frame s c l d x y)).trans (State.sansBus_doms _))
@[simp] theorem State.l2Install_nvs (c l : Nat) (d : List Byte) (x y : Bool) : (s.l2Install c l d x y).nvs = s.nvs :=
  (State.sansBus_nvs _).symm.trans ((congrArg State.nvs (State.l2Install_frame s c l d x y)).trans (State.sansBus_nvs _))
@[simp] theorem State.l2Install_test (c l : Nat) (d : List Byte) (x y : Bool) : (s.l2Install c l d x y).test = s.test :=
  (State.sansBus_test _).symm.trans ((congrArg State.test (State.l2Install_frame s c l d x y)).trans (State.sansBus_test _))
@[simp] theorem State.l2Install_ages (c l : Nat) (d : List Byte) (x y : Bool) : (s.l2Install c l d x y).ages = s.ages :=
  (State.sansBus_ages _).symm.trans ((congrArg State.ages (State.l2Install_frame s c l d x y)).trans (State.sansBus_ages _))
@[simp] theorem State.l2Install_readout (c l : Nat) (d : List Byte) (x y : Bool) : (s.l2Install c l d x y).readout = s.readout :=
  (State.sansBus_readout _).symm.trans ((congrArg State.readout (State.l2Install_frame s c l d x y)).trans (State.sansBus_readout _))
@[simp] theorem State.l2Install_sec (c l : Nat) (d : List Byte) (x y : Bool) : (s.l2Install c l d x y).sec = s.sec :=
  (State.sansBus_sec _).symm.trans ((congrArg State.sec (State.l2Install_frame s c l d x y)).trans (State.sansBus_sec _))
@[simp] theorem State.l2Install_arb (c l : Nat) (d : List Byte) (x y : Bool) : (s.l2Install c l d x y).arb = s.arb :=
  (State.sansBus_arb _).symm.trans ((congrArg State.arb (State.l2Install_frame s c l d x y)).trans (State.sansBus_arb _))
@[simp] theorem State.l2Install_jtag (c l : Nat) (d : List Byte) (x y : Bool) : (s.l2Install c l d x y).jtag = s.jtag :=
  (State.sansBus_jtag _).symm.trans ((congrArg State.jtag (State.l2Install_frame s c l d x y)).trans (State.sansBus_jtag _))
/-- l2Fetch changes no field but hbm, poison, clusters, cores, regs, free. -/
theorem State.l2Fetch_frame (c l : Nat) : (s.l2Fetch c l).sansHome = s.sansHome := by
  unfold State.l2Fetch; split
  · rfl
  · dsimp only [State.ecc, State.draw]
    rw [State.count64_sansHome]
    refine (State.sansHome_of (State.l2Install_frame _ _ _ _ _ _)).trans ?_
    split
    · exact State.withFree_sansHome _ _
    · exact (State.count_sansHome _ _ _).trans (State.withFree_sansHome _ _)
    · exact (State.count_sansHome _ _ _).trans (State.withFree_sansHome _ _)
@[simp] theorem State.l2Fetch_pending (c l : Nat) : (s.l2Fetch c l).pending = s.pending :=
  (State.sansHome_pending _).symm.trans ((congrArg State.pending (State.l2Fetch_frame s c l)).trans (State.sansHome_pending _))
@[simp] theorem State.l2Fetch_outs (c l : Nat) : (s.l2Fetch c l).outs = s.outs :=
  (State.sansHome_outs _).symm.trans ((congrArg State.outs (State.l2Fetch_frame s c l)).trans (State.sansHome_outs _))
@[simp] theorem State.l2Fetch_hold (c l : Nat) : (s.l2Fetch c l).hold = s.hold :=
  (State.sansHome_hold _).symm.trans ((congrArg State.hold (State.l2Fetch_frame s c l)).trans (State.sansHome_hold _))
@[simp] theorem State.l2Fetch_por (c l : Nat) : (s.l2Fetch c l).por = s.por :=
  (State.sansHome_por _).symm.trans ((congrArg State.por (State.l2Fetch_frame s c l)).trans (State.sansHome_por _))
@[simp] theorem State.l2Fetch_time (c l : Nat) : (s.l2Fetch c l).time = s.time :=
  (State.sansHome_time _).symm.trans ((congrArg State.time (State.l2Fetch_frame s c l)).trans (State.sansHome_time _))
@[simp] theorem State.l2Fetch_streams (c l : Nat) : (s.l2Fetch c l).streams = s.streams :=
  (State.sansHome_streams _).symm.trans ((congrArg State.streams (State.l2Fetch_frame s c l)).trans (State.sansHome_streams _))
@[simp] theorem State.l2Fetch_engines (c l : Nat) : (s.l2Fetch c l).engines = s.engines :=
  (State.sansHome_engines _).symm.trans ((congrArg State.engines (State.l2Fetch_frame s c l)).trans (State.sansHome_engines _))
@[simp] theorem State.l2Fetch_subs (c l : Nat) : (s.l2Fetch c l).subs = s.subs :=
  (State.sansHome_subs _).symm.trans ((congrArg State.subs (State.l2Fetch_frame s c l)).trans (State.sansHome_subs _))
@[simp] theorem State.l2Fetch_fabric (c l : Nat) : (s.l2Fetch c l).fabric = s.fabric :=
  (State.sansHome_fabric _).symm.trans ((congrArg State.fabric (State.l2Fetch_frame s c l)).trans (State.sansHome_fabric _))
@[simp] theorem State.l2Fetch_pins (c l : Nat) : (s.l2Fetch c l).pins = s.pins :=
  (State.sansHome_pins _).symm.trans ((congrArg State.pins (State.l2Fetch_frame s c l)).trans (State.sansHome_pins _))
@[simp] theorem State.l2Fetch_lanes (c l : Nat) : (s.l2Fetch c l).lanes = s.lanes :=
  (State.sansHome_lanes _).symm.trans ((congrArg State.lanes (State.l2Fetch_frame s c l)).trans (State.sansHome_lanes _))
@[simp] theorem State.l2Fetch_swcmd (c l : Nat) : (s.l2Fetch c l).swcmd = s.swcmd :=
  (State.sansHome_swcmd _).symm.trans ((congrArg State.swcmd (State.l2Fetch_frame s c l)).trans (State.sansHome_swcmd _))
@[simp] theorem State.l2Fetch_chan (c l : Nat) : (s.l2Fetch c l).chan = s.chan :=
  (State.sansHome_chan _).symm.trans ((congrArg State.chan (State.l2Fetch_frame s c l)).trans (State.sansHome_chan _))
@[simp] theorem State.l2Fetch_taken (c l : Nat) : (s.l2Fetch c l).taken = s.taken :=
  (State.sansHome_taken _).symm.trans ((congrArg State.taken (State.l2Fetch_frame s c l)).trans (State.sansHome_taken _))
@[simp] theorem State.l2Fetch_mgmt (c l : Nat) : (s.l2Fetch c l).mgmt = s.mgmt :=
  (State.sansHome_mgmt _).symm.trans ((congrArg State.mgmt (State.l2Fetch_frame s c l)).trans (State.sansHome_mgmt _))
@[simp] theorem State.l2Fetch_pf (c l : Nat) : (s.l2Fetch c l).pf = s.pf :=
  (State.sansHome_pf _).symm.trans ((congrArg State.pf (State.l2Fetch_frame s c l)).trans (State.sansHome_pf _))
@[simp] theorem State.l2Fetch_parts (c l : Nat) : (s.l2Fetch c l).parts = s.parts :=
  (State.sansHome_parts _).symm.trans ((congrArg State.parts (State.l2Fetch_frame s c l)).trans (State.sansHome_parts _))
@[simp] theorem State.l2Fetch_owners (c l : Nat) : (s.l2Fetch c l).owners = s.owners :=
  (State.sansHome_owners _).symm.trans ((congrArg State.owners (State.l2Fetch_frame s c l)).trans (State.sansHome_owners _))
@[simp] theorem State.l2Fetch_creq (c l : Nat) : (s.l2Fetch c l).creq = s.creq :=
  (State.sansHome_creq _).symm.trans ((congrArg State.creq (State.l2Fetch_frame s c l)).trans (State.sansHome_creq _))
@[simp] theorem State.l2Fetch_lps (c l : Nat) : (s.l2Fetch c l).lps = s.lps :=
  (State.sansHome_lps _).symm.trans ((congrArg State.lps (State.l2Fetch_frame s c l)).trans (State.sansHome_lps _))
@[simp] theorem State.l2Fetch_doms (c l : Nat) : (s.l2Fetch c l).doms = s.doms :=
  (State.sansHome_doms _).symm.trans ((congrArg State.doms (State.l2Fetch_frame s c l)).trans (State.sansHome_doms _))
@[simp] theorem State.l2Fetch_nvs (c l : Nat) : (s.l2Fetch c l).nvs = s.nvs :=
  (State.sansHome_nvs _).symm.trans ((congrArg State.nvs (State.l2Fetch_frame s c l)).trans (State.sansHome_nvs _))
@[simp] theorem State.l2Fetch_test (c l : Nat) : (s.l2Fetch c l).test = s.test :=
  (State.sansHome_test _).symm.trans ((congrArg State.test (State.l2Fetch_frame s c l)).trans (State.sansHome_test _))
@[simp] theorem State.l2Fetch_ages (c l : Nat) : (s.l2Fetch c l).ages = s.ages :=
  (State.sansHome_ages _).symm.trans ((congrArg State.ages (State.l2Fetch_frame s c l)).trans (State.sansHome_ages _))
@[simp] theorem State.l2Fetch_readout (c l : Nat) : (s.l2Fetch c l).readout = s.readout :=
  (State.sansHome_readout _).symm.trans ((congrArg State.readout (State.l2Fetch_frame s c l)).trans (State.sansHome_readout _))
@[simp] theorem State.l2Fetch_sec (c l : Nat) : (s.l2Fetch c l).sec = s.sec :=
  (State.sansHome_sec _).symm.trans ((congrArg State.sec (State.l2Fetch_frame s c l)).trans (State.sansHome_sec _))
@[simp] theorem State.l2Fetch_arb (c l : Nat) : (s.l2Fetch c l).arb = s.arb :=
  (State.sansHome_arb _).symm.trans ((congrArg State.arb (State.l2Fetch_frame s c l)).trans (State.sansHome_arb _))
@[simp] theorem State.l2Fetch_jtag (c l : Nat) : (s.l2Fetch c l).jtag = s.jtag :=
  (State.sansHome_jtag _).symm.trans ((congrArg State.jtag (State.l2Fetch_frame s c l)).trans (State.sansHome_jtag _))
/-- homeWrite changes no field but hbm, poison, clusters, cores, regs, free. -/
theorem State.homeWrite_frame (c a : Nat) (bs : List Byte) : (s.homeWrite c a bs).sansHome = s.sansHome := by
  unfold State.homeWrite State.setL2 State.dropL1; dsimp only; split
  · rw [State.setCluster_sansHome, State.withCores_sansHome]; exact State.l2Fetch_frame _ _ _
  · rw [State.withCores_sansHome]; exact State.l2Fetch_frame _ _ _
@[simp] theorem State.homeWrite_pending (c a : Nat) (bs : List Byte) : (s.homeWrite c a bs).pending = s.pending :=
  (State.sansHome_pending _).symm.trans ((congrArg State.pending (State.homeWrite_frame s c a bs)).trans (State.sansHome_pending _))
@[simp] theorem State.homeWrite_outs (c a : Nat) (bs : List Byte) : (s.homeWrite c a bs).outs = s.outs :=
  (State.sansHome_outs _).symm.trans ((congrArg State.outs (State.homeWrite_frame s c a bs)).trans (State.sansHome_outs _))
@[simp] theorem State.homeWrite_hold (c a : Nat) (bs : List Byte) : (s.homeWrite c a bs).hold = s.hold :=
  (State.sansHome_hold _).symm.trans ((congrArg State.hold (State.homeWrite_frame s c a bs)).trans (State.sansHome_hold _))
@[simp] theorem State.homeWrite_por (c a : Nat) (bs : List Byte) : (s.homeWrite c a bs).por = s.por :=
  (State.sansHome_por _).symm.trans ((congrArg State.por (State.homeWrite_frame s c a bs)).trans (State.sansHome_por _))
@[simp] theorem State.homeWrite_time (c a : Nat) (bs : List Byte) : (s.homeWrite c a bs).time = s.time :=
  (State.sansHome_time _).symm.trans ((congrArg State.time (State.homeWrite_frame s c a bs)).trans (State.sansHome_time _))
@[simp] theorem State.homeWrite_streams (c a : Nat) (bs : List Byte) : (s.homeWrite c a bs).streams = s.streams :=
  (State.sansHome_streams _).symm.trans ((congrArg State.streams (State.homeWrite_frame s c a bs)).trans (State.sansHome_streams _))
@[simp] theorem State.homeWrite_engines (c a : Nat) (bs : List Byte) : (s.homeWrite c a bs).engines = s.engines :=
  (State.sansHome_engines _).symm.trans ((congrArg State.engines (State.homeWrite_frame s c a bs)).trans (State.sansHome_engines _))
@[simp] theorem State.homeWrite_subs (c a : Nat) (bs : List Byte) : (s.homeWrite c a bs).subs = s.subs :=
  (State.sansHome_subs _).symm.trans ((congrArg State.subs (State.homeWrite_frame s c a bs)).trans (State.sansHome_subs _))
@[simp] theorem State.homeWrite_fabric (c a : Nat) (bs : List Byte) : (s.homeWrite c a bs).fabric = s.fabric :=
  (State.sansHome_fabric _).symm.trans ((congrArg State.fabric (State.homeWrite_frame s c a bs)).trans (State.sansHome_fabric _))
@[simp] theorem State.homeWrite_pins (c a : Nat) (bs : List Byte) : (s.homeWrite c a bs).pins = s.pins :=
  (State.sansHome_pins _).symm.trans ((congrArg State.pins (State.homeWrite_frame s c a bs)).trans (State.sansHome_pins _))
@[simp] theorem State.homeWrite_lanes (c a : Nat) (bs : List Byte) : (s.homeWrite c a bs).lanes = s.lanes :=
  (State.sansHome_lanes _).symm.trans ((congrArg State.lanes (State.homeWrite_frame s c a bs)).trans (State.sansHome_lanes _))
@[simp] theorem State.homeWrite_swcmd (c a : Nat) (bs : List Byte) : (s.homeWrite c a bs).swcmd = s.swcmd :=
  (State.sansHome_swcmd _).symm.trans ((congrArg State.swcmd (State.homeWrite_frame s c a bs)).trans (State.sansHome_swcmd _))
@[simp] theorem State.homeWrite_chan (c a : Nat) (bs : List Byte) : (s.homeWrite c a bs).chan = s.chan :=
  (State.sansHome_chan _).symm.trans ((congrArg State.chan (State.homeWrite_frame s c a bs)).trans (State.sansHome_chan _))
@[simp] theorem State.homeWrite_taken (c a : Nat) (bs : List Byte) : (s.homeWrite c a bs).taken = s.taken :=
  (State.sansHome_taken _).symm.trans ((congrArg State.taken (State.homeWrite_frame s c a bs)).trans (State.sansHome_taken _))
@[simp] theorem State.homeWrite_mgmt (c a : Nat) (bs : List Byte) : (s.homeWrite c a bs).mgmt = s.mgmt :=
  (State.sansHome_mgmt _).symm.trans ((congrArg State.mgmt (State.homeWrite_frame s c a bs)).trans (State.sansHome_mgmt _))
@[simp] theorem State.homeWrite_pf (c a : Nat) (bs : List Byte) : (s.homeWrite c a bs).pf = s.pf :=
  (State.sansHome_pf _).symm.trans ((congrArg State.pf (State.homeWrite_frame s c a bs)).trans (State.sansHome_pf _))
@[simp] theorem State.homeWrite_parts (c a : Nat) (bs : List Byte) : (s.homeWrite c a bs).parts = s.parts :=
  (State.sansHome_parts _).symm.trans ((congrArg State.parts (State.homeWrite_frame s c a bs)).trans (State.sansHome_parts _))
@[simp] theorem State.homeWrite_owners (c a : Nat) (bs : List Byte) : (s.homeWrite c a bs).owners = s.owners :=
  (State.sansHome_owners _).symm.trans ((congrArg State.owners (State.homeWrite_frame s c a bs)).trans (State.sansHome_owners _))
@[simp] theorem State.homeWrite_creq (c a : Nat) (bs : List Byte) : (s.homeWrite c a bs).creq = s.creq :=
  (State.sansHome_creq _).symm.trans ((congrArg State.creq (State.homeWrite_frame s c a bs)).trans (State.sansHome_creq _))
@[simp] theorem State.homeWrite_lps (c a : Nat) (bs : List Byte) : (s.homeWrite c a bs).lps = s.lps :=
  (State.sansHome_lps _).symm.trans ((congrArg State.lps (State.homeWrite_frame s c a bs)).trans (State.sansHome_lps _))
@[simp] theorem State.homeWrite_doms (c a : Nat) (bs : List Byte) : (s.homeWrite c a bs).doms = s.doms :=
  (State.sansHome_doms _).symm.trans ((congrArg State.doms (State.homeWrite_frame s c a bs)).trans (State.sansHome_doms _))
@[simp] theorem State.homeWrite_nvs (c a : Nat) (bs : List Byte) : (s.homeWrite c a bs).nvs = s.nvs :=
  (State.sansHome_nvs _).symm.trans ((congrArg State.nvs (State.homeWrite_frame s c a bs)).trans (State.sansHome_nvs _))
@[simp] theorem State.homeWrite_test (c a : Nat) (bs : List Byte) : (s.homeWrite c a bs).test = s.test :=
  (State.sansHome_test _).symm.trans ((congrArg State.test (State.homeWrite_frame s c a bs)).trans (State.sansHome_test _))
@[simp] theorem State.homeWrite_ages (c a : Nat) (bs : List Byte) : (s.homeWrite c a bs).ages = s.ages :=
  (State.sansHome_ages _).symm.trans ((congrArg State.ages (State.homeWrite_frame s c a bs)).trans (State.sansHome_ages _))
@[simp] theorem State.homeWrite_readout (c a : Nat) (bs : List Byte) : (s.homeWrite c a bs).readout = s.readout :=
  (State.sansHome_readout _).symm.trans ((congrArg State.readout (State.homeWrite_frame s c a bs)).trans (State.sansHome_readout _))
@[simp] theorem State.homeWrite_sec (c a : Nat) (bs : List Byte) : (s.homeWrite c a bs).sec = s.sec :=
  (State.sansHome_sec _).symm.trans ((congrArg State.sec (State.homeWrite_frame s c a bs)).trans (State.sansHome_sec _))
@[simp] theorem State.homeWrite_arb (c a : Nat) (bs : List Byte) : (s.homeWrite c a bs).arb = s.arb :=
  (State.sansHome_arb _).symm.trans ((congrArg State.arb (State.homeWrite_frame s c a bs)).trans (State.sansHome_arb _))
@[simp] theorem State.homeWrite_jtag (c a : Nat) (bs : List Byte) : (s.homeWrite c a bs).jtag = s.jtag :=
  (State.sansHome_jtag _).symm.trans ((congrArg State.jtag (State.homeWrite_frame s c a bs)).trans (State.sansHome_jtag _))
/-- stopWrite changes no field but hbm, poison, clusters, cores, regs, free. -/
theorem State.stopWrite_frame (c a : Nat) (bs : List Byte) : (s.stopWrite c a bs).sansHome = s.sansHome := by
  unfold State.stopWrite; exact foldl_keeps State.sansHome _ (fun s x => State.homeWrite_frame s _ _ _) _ _
@[simp] theorem State.stopWrite_pending (c a : Nat) (bs : List Byte) : (s.stopWrite c a bs).pending = s.pending :=
  (State.sansHome_pending _).symm.trans ((congrArg State.pending (State.stopWrite_frame s c a bs)).trans (State.sansHome_pending _))
@[simp] theorem State.stopWrite_outs (c a : Nat) (bs : List Byte) : (s.stopWrite c a bs).outs = s.outs :=
  (State.sansHome_outs _).symm.trans ((congrArg State.outs (State.stopWrite_frame s c a bs)).trans (State.sansHome_outs _))
@[simp] theorem State.stopWrite_hold (c a : Nat) (bs : List Byte) : (s.stopWrite c a bs).hold = s.hold :=
  (State.sansHome_hold _).symm.trans ((congrArg State.hold (State.stopWrite_frame s c a bs)).trans (State.sansHome_hold _))
@[simp] theorem State.stopWrite_por (c a : Nat) (bs : List Byte) : (s.stopWrite c a bs).por = s.por :=
  (State.sansHome_por _).symm.trans ((congrArg State.por (State.stopWrite_frame s c a bs)).trans (State.sansHome_por _))
@[simp] theorem State.stopWrite_time (c a : Nat) (bs : List Byte) : (s.stopWrite c a bs).time = s.time :=
  (State.sansHome_time _).symm.trans ((congrArg State.time (State.stopWrite_frame s c a bs)).trans (State.sansHome_time _))
@[simp] theorem State.stopWrite_streams (c a : Nat) (bs : List Byte) : (s.stopWrite c a bs).streams = s.streams :=
  (State.sansHome_streams _).symm.trans ((congrArg State.streams (State.stopWrite_frame s c a bs)).trans (State.sansHome_streams _))
@[simp] theorem State.stopWrite_engines (c a : Nat) (bs : List Byte) : (s.stopWrite c a bs).engines = s.engines :=
  (State.sansHome_engines _).symm.trans ((congrArg State.engines (State.stopWrite_frame s c a bs)).trans (State.sansHome_engines _))
@[simp] theorem State.stopWrite_subs (c a : Nat) (bs : List Byte) : (s.stopWrite c a bs).subs = s.subs :=
  (State.sansHome_subs _).symm.trans ((congrArg State.subs (State.stopWrite_frame s c a bs)).trans (State.sansHome_subs _))
@[simp] theorem State.stopWrite_fabric (c a : Nat) (bs : List Byte) : (s.stopWrite c a bs).fabric = s.fabric :=
  (State.sansHome_fabric _).symm.trans ((congrArg State.fabric (State.stopWrite_frame s c a bs)).trans (State.sansHome_fabric _))
@[simp] theorem State.stopWrite_pins (c a : Nat) (bs : List Byte) : (s.stopWrite c a bs).pins = s.pins :=
  (State.sansHome_pins _).symm.trans ((congrArg State.pins (State.stopWrite_frame s c a bs)).trans (State.sansHome_pins _))
@[simp] theorem State.stopWrite_lanes (c a : Nat) (bs : List Byte) : (s.stopWrite c a bs).lanes = s.lanes :=
  (State.sansHome_lanes _).symm.trans ((congrArg State.lanes (State.stopWrite_frame s c a bs)).trans (State.sansHome_lanes _))
@[simp] theorem State.stopWrite_swcmd (c a : Nat) (bs : List Byte) : (s.stopWrite c a bs).swcmd = s.swcmd :=
  (State.sansHome_swcmd _).symm.trans ((congrArg State.swcmd (State.stopWrite_frame s c a bs)).trans (State.sansHome_swcmd _))
@[simp] theorem State.stopWrite_chan (c a : Nat) (bs : List Byte) : (s.stopWrite c a bs).chan = s.chan :=
  (State.sansHome_chan _).symm.trans ((congrArg State.chan (State.stopWrite_frame s c a bs)).trans (State.sansHome_chan _))
@[simp] theorem State.stopWrite_taken (c a : Nat) (bs : List Byte) : (s.stopWrite c a bs).taken = s.taken :=
  (State.sansHome_taken _).symm.trans ((congrArg State.taken (State.stopWrite_frame s c a bs)).trans (State.sansHome_taken _))
@[simp] theorem State.stopWrite_mgmt (c a : Nat) (bs : List Byte) : (s.stopWrite c a bs).mgmt = s.mgmt :=
  (State.sansHome_mgmt _).symm.trans ((congrArg State.mgmt (State.stopWrite_frame s c a bs)).trans (State.sansHome_mgmt _))
@[simp] theorem State.stopWrite_pf (c a : Nat) (bs : List Byte) : (s.stopWrite c a bs).pf = s.pf :=
  (State.sansHome_pf _).symm.trans ((congrArg State.pf (State.stopWrite_frame s c a bs)).trans (State.sansHome_pf _))
@[simp] theorem State.stopWrite_parts (c a : Nat) (bs : List Byte) : (s.stopWrite c a bs).parts = s.parts :=
  (State.sansHome_parts _).symm.trans ((congrArg State.parts (State.stopWrite_frame s c a bs)).trans (State.sansHome_parts _))
@[simp] theorem State.stopWrite_owners (c a : Nat) (bs : List Byte) : (s.stopWrite c a bs).owners = s.owners :=
  (State.sansHome_owners _).symm.trans ((congrArg State.owners (State.stopWrite_frame s c a bs)).trans (State.sansHome_owners _))
@[simp] theorem State.stopWrite_creq (c a : Nat) (bs : List Byte) : (s.stopWrite c a bs).creq = s.creq :=
  (State.sansHome_creq _).symm.trans ((congrArg State.creq (State.stopWrite_frame s c a bs)).trans (State.sansHome_creq _))
@[simp] theorem State.stopWrite_lps (c a : Nat) (bs : List Byte) : (s.stopWrite c a bs).lps = s.lps :=
  (State.sansHome_lps _).symm.trans ((congrArg State.lps (State.stopWrite_frame s c a bs)).trans (State.sansHome_lps _))
@[simp] theorem State.stopWrite_doms (c a : Nat) (bs : List Byte) : (s.stopWrite c a bs).doms = s.doms :=
  (State.sansHome_doms _).symm.trans ((congrArg State.doms (State.stopWrite_frame s c a bs)).trans (State.sansHome_doms _))
@[simp] theorem State.stopWrite_nvs (c a : Nat) (bs : List Byte) : (s.stopWrite c a bs).nvs = s.nvs :=
  (State.sansHome_nvs _).symm.trans ((congrArg State.nvs (State.stopWrite_frame s c a bs)).trans (State.sansHome_nvs _))
@[simp] theorem State.stopWrite_test (c a : Nat) (bs : List Byte) : (s.stopWrite c a bs).test = s.test :=
  (State.sansHome_test _).symm.trans ((congrArg State.test (State.stopWrite_frame s c a bs)).trans (State.sansHome_test _))
@[simp] theorem State.stopWrite_ages (c a : Nat) (bs : List Byte) : (s.stopWrite c a bs).ages = s.ages :=
  (State.sansHome_ages _).symm.trans ((congrArg State.ages (State.stopWrite_frame s c a bs)).trans (State.sansHome_ages _))
@[simp] theorem State.stopWrite_readout (c a : Nat) (bs : List Byte) : (s.stopWrite c a bs).readout = s.readout :=
  (State.sansHome_readout _).symm.trans ((congrArg State.readout (State.stopWrite_frame s c a bs)).trans (State.sansHome_readout _))
@[simp] theorem State.stopWrite_sec (c a : Nat) (bs : List Byte) : (s.stopWrite c a bs).sec = s.sec :=
  (State.sansHome_sec _).symm.trans ((congrArg State.sec (State.stopWrite_frame s c a bs)).trans (State.sansHome_sec _))
@[simp] theorem State.stopWrite_arb (c a : Nat) (bs : List Byte) : (s.stopWrite c a bs).arb = s.arb :=
  (State.sansHome_arb _).symm.trans ((congrArg State.arb (State.stopWrite_frame s c a bs)).trans (State.sansHome_arb _))
@[simp] theorem State.stopWrite_jtag (c a : Nat) (bs : List Byte) : (s.stopWrite c a bs).jtag = s.jtag :=
  (State.sansHome_jtag _).symm.trans ((congrArg State.jtag (State.stopWrite_frame s c a bs)).trans (State.sansHome_jtag _))
/-- flushAll changes no field but hbm, poison, clusters, cores. -/
theorem State.flushAll_frame (l : Nat) : (s.flushAll l).sansBus = s.sansBus := by
  unfold State.flushAll; refine foldl_keeps State.sansBus _ (fun s x => ?_) _ _
  split
  · exact State.evictLine_frame _ _ _
  · rfl
@[simp] theorem State.flushAll_pending (l : Nat) : (s.flushAll l).pending = s.pending :=
  (State.sansBus_pending _).symm.trans ((congrArg State.pending (State.flushAll_frame s l)).trans (State.sansBus_pending _))
@[simp] theorem State.flushAll_free (l : Nat) : (s.flushAll l).free = s.free :=
  (State.sansBus_free _).symm.trans ((congrArg State.free (State.flushAll_frame s l)).trans (State.sansBus_free _))
@[simp] theorem State.flushAll_regs (l : Nat) : (s.flushAll l).regs = s.regs :=
  (State.sansBus_regs _).symm.trans ((congrArg State.regs (State.flushAll_frame s l)).trans (State.sansBus_regs _))
@[simp] theorem State.flushAll_outs (l : Nat) : (s.flushAll l).outs = s.outs :=
  (State.sansBus_outs _).symm.trans ((congrArg State.outs (State.flushAll_frame s l)).trans (State.sansBus_outs _))
@[simp] theorem State.flushAll_hold (l : Nat) : (s.flushAll l).hold = s.hold :=
  (State.sansBus_hold _).symm.trans ((congrArg State.hold (State.flushAll_frame s l)).trans (State.sansBus_hold _))
@[simp] theorem State.flushAll_por (l : Nat) : (s.flushAll l).por = s.por :=
  (State.sansBus_por _).symm.trans ((congrArg State.por (State.flushAll_frame s l)).trans (State.sansBus_por _))
@[simp] theorem State.flushAll_time (l : Nat) : (s.flushAll l).time = s.time :=
  (State.sansBus_time _).symm.trans ((congrArg State.time (State.flushAll_frame s l)).trans (State.sansBus_time _))
@[simp] theorem State.flushAll_streams (l : Nat) : (s.flushAll l).streams = s.streams :=
  (State.sansBus_streams _).symm.trans ((congrArg State.streams (State.flushAll_frame s l)).trans (State.sansBus_streams _))
@[simp] theorem State.flushAll_engines (l : Nat) : (s.flushAll l).engines = s.engines :=
  (State.sansBus_engines _).symm.trans ((congrArg State.engines (State.flushAll_frame s l)).trans (State.sansBus_engines _))
@[simp] theorem State.flushAll_subs (l : Nat) : (s.flushAll l).subs = s.subs :=
  (State.sansBus_subs _).symm.trans ((congrArg State.subs (State.flushAll_frame s l)).trans (State.sansBus_subs _))
@[simp] theorem State.flushAll_fabric (l : Nat) : (s.flushAll l).fabric = s.fabric :=
  (State.sansBus_fabric _).symm.trans ((congrArg State.fabric (State.flushAll_frame s l)).trans (State.sansBus_fabric _))
@[simp] theorem State.flushAll_pins (l : Nat) : (s.flushAll l).pins = s.pins :=
  (State.sansBus_pins _).symm.trans ((congrArg State.pins (State.flushAll_frame s l)).trans (State.sansBus_pins _))
@[simp] theorem State.flushAll_lanes (l : Nat) : (s.flushAll l).lanes = s.lanes :=
  (State.sansBus_lanes _).symm.trans ((congrArg State.lanes (State.flushAll_frame s l)).trans (State.sansBus_lanes _))
@[simp] theorem State.flushAll_swcmd (l : Nat) : (s.flushAll l).swcmd = s.swcmd :=
  (State.sansBus_swcmd _).symm.trans ((congrArg State.swcmd (State.flushAll_frame s l)).trans (State.sansBus_swcmd _))
@[simp] theorem State.flushAll_chan (l : Nat) : (s.flushAll l).chan = s.chan :=
  (State.sansBus_chan _).symm.trans ((congrArg State.chan (State.flushAll_frame s l)).trans (State.sansBus_chan _))
@[simp] theorem State.flushAll_taken (l : Nat) : (s.flushAll l).taken = s.taken :=
  (State.sansBus_taken _).symm.trans ((congrArg State.taken (State.flushAll_frame s l)).trans (State.sansBus_taken _))
@[simp] theorem State.flushAll_mgmt (l : Nat) : (s.flushAll l).mgmt = s.mgmt :=
  (State.sansBus_mgmt _).symm.trans ((congrArg State.mgmt (State.flushAll_frame s l)).trans (State.sansBus_mgmt _))
@[simp] theorem State.flushAll_pf (l : Nat) : (s.flushAll l).pf = s.pf :=
  (State.sansBus_pf _).symm.trans ((congrArg State.pf (State.flushAll_frame s l)).trans (State.sansBus_pf _))
@[simp] theorem State.flushAll_parts (l : Nat) : (s.flushAll l).parts = s.parts :=
  (State.sansBus_parts _).symm.trans ((congrArg State.parts (State.flushAll_frame s l)).trans (State.sansBus_parts _))
@[simp] theorem State.flushAll_owners (l : Nat) : (s.flushAll l).owners = s.owners :=
  (State.sansBus_owners _).symm.trans ((congrArg State.owners (State.flushAll_frame s l)).trans (State.sansBus_owners _))
@[simp] theorem State.flushAll_creq (l : Nat) : (s.flushAll l).creq = s.creq :=
  (State.sansBus_creq _).symm.trans ((congrArg State.creq (State.flushAll_frame s l)).trans (State.sansBus_creq _))
@[simp] theorem State.flushAll_lps (l : Nat) : (s.flushAll l).lps = s.lps :=
  (State.sansBus_lps _).symm.trans ((congrArg State.lps (State.flushAll_frame s l)).trans (State.sansBus_lps _))
@[simp] theorem State.flushAll_doms (l : Nat) : (s.flushAll l).doms = s.doms :=
  (State.sansBus_doms _).symm.trans ((congrArg State.doms (State.flushAll_frame s l)).trans (State.sansBus_doms _))
@[simp] theorem State.flushAll_nvs (l : Nat) : (s.flushAll l).nvs = s.nvs :=
  (State.sansBus_nvs _).symm.trans ((congrArg State.nvs (State.flushAll_frame s l)).trans (State.sansBus_nvs _))
@[simp] theorem State.flushAll_test (l : Nat) : (s.flushAll l).test = s.test :=
  (State.sansBus_test _).symm.trans ((congrArg State.test (State.flushAll_frame s l)).trans (State.sansBus_test _))
@[simp] theorem State.flushAll_ages (l : Nat) : (s.flushAll l).ages = s.ages :=
  (State.sansBus_ages _).symm.trans ((congrArg State.ages (State.flushAll_frame s l)).trans (State.sansBus_ages _))
@[simp] theorem State.flushAll_readout (l : Nat) : (s.flushAll l).readout = s.readout :=
  (State.sansBus_readout _).symm.trans ((congrArg State.readout (State.flushAll_frame s l)).trans (State.sansBus_readout _))
@[simp] theorem State.flushAll_sec (l : Nat) : (s.flushAll l).sec = s.sec :=
  (State.sansBus_sec _).symm.trans ((congrArg State.sec (State.flushAll_frame s l)).trans (State.sansBus_sec _))
@[simp] theorem State.flushAll_arb (l : Nat) : (s.flushAll l).arb = s.arb :=
  (State.sansBus_arb _).symm.trans ((congrArg State.arb (State.flushAll_frame s l)).trans (State.sansBus_arb _))
@[simp] theorem State.flushAll_jtag (l : Nat) : (s.flushAll l).jtag = s.jtag :=
  (State.sansBus_jtag _).symm.trans ((congrArg State.jtag (State.flushAll_frame s l)).trans (State.sansBus_jtag _))
/-- agentWrite changes no field but hbm, poison, clusters, cores. -/
theorem State.agentWrite_frame (a : Nat) (bs : List Byte) : (s.agentWrite a bs).sansBus = s.sansBus := by
  unfold State.agentWrite; split
  · rfl
  · dsimp only
    exact (State.sansBus_of (State.sansBack_of (State.hbmWrite_frame _ _ _))).trans
      (foldl_keeps State.sansBus _ (fun s x => State.flushAll_frame s _) _ _)
@[simp] theorem State.agentWrite_pending (a : Nat) (bs : List Byte) : (s.agentWrite a bs).pending = s.pending :=
  (State.sansBus_pending _).symm.trans ((congrArg State.pending (State.agentWrite_frame s a bs)).trans (State.sansBus_pending _))
@[simp] theorem State.agentWrite_free (a : Nat) (bs : List Byte) : (s.agentWrite a bs).free = s.free :=
  (State.sansBus_free _).symm.trans ((congrArg State.free (State.agentWrite_frame s a bs)).trans (State.sansBus_free _))
@[simp] theorem State.agentWrite_regs (a : Nat) (bs : List Byte) : (s.agentWrite a bs).regs = s.regs :=
  (State.sansBus_regs _).symm.trans ((congrArg State.regs (State.agentWrite_frame s a bs)).trans (State.sansBus_regs _))
@[simp] theorem State.agentWrite_outs (a : Nat) (bs : List Byte) : (s.agentWrite a bs).outs = s.outs :=
  (State.sansBus_outs _).symm.trans ((congrArg State.outs (State.agentWrite_frame s a bs)).trans (State.sansBus_outs _))
@[simp] theorem State.agentWrite_hold (a : Nat) (bs : List Byte) : (s.agentWrite a bs).hold = s.hold :=
  (State.sansBus_hold _).symm.trans ((congrArg State.hold (State.agentWrite_frame s a bs)).trans (State.sansBus_hold _))
@[simp] theorem State.agentWrite_por (a : Nat) (bs : List Byte) : (s.agentWrite a bs).por = s.por :=
  (State.sansBus_por _).symm.trans ((congrArg State.por (State.agentWrite_frame s a bs)).trans (State.sansBus_por _))
@[simp] theorem State.agentWrite_time (a : Nat) (bs : List Byte) : (s.agentWrite a bs).time = s.time :=
  (State.sansBus_time _).symm.trans ((congrArg State.time (State.agentWrite_frame s a bs)).trans (State.sansBus_time _))
@[simp] theorem State.agentWrite_streams (a : Nat) (bs : List Byte) : (s.agentWrite a bs).streams = s.streams :=
  (State.sansBus_streams _).symm.trans ((congrArg State.streams (State.agentWrite_frame s a bs)).trans (State.sansBus_streams _))
@[simp] theorem State.agentWrite_engines (a : Nat) (bs : List Byte) : (s.agentWrite a bs).engines = s.engines :=
  (State.sansBus_engines _).symm.trans ((congrArg State.engines (State.agentWrite_frame s a bs)).trans (State.sansBus_engines _))
@[simp] theorem State.agentWrite_subs (a : Nat) (bs : List Byte) : (s.agentWrite a bs).subs = s.subs :=
  (State.sansBus_subs _).symm.trans ((congrArg State.subs (State.agentWrite_frame s a bs)).trans (State.sansBus_subs _))
@[simp] theorem State.agentWrite_fabric (a : Nat) (bs : List Byte) : (s.agentWrite a bs).fabric = s.fabric :=
  (State.sansBus_fabric _).symm.trans ((congrArg State.fabric (State.agentWrite_frame s a bs)).trans (State.sansBus_fabric _))
@[simp] theorem State.agentWrite_pins (a : Nat) (bs : List Byte) : (s.agentWrite a bs).pins = s.pins :=
  (State.sansBus_pins _).symm.trans ((congrArg State.pins (State.agentWrite_frame s a bs)).trans (State.sansBus_pins _))
@[simp] theorem State.agentWrite_lanes (a : Nat) (bs : List Byte) : (s.agentWrite a bs).lanes = s.lanes :=
  (State.sansBus_lanes _).symm.trans ((congrArg State.lanes (State.agentWrite_frame s a bs)).trans (State.sansBus_lanes _))
@[simp] theorem State.agentWrite_swcmd (a : Nat) (bs : List Byte) : (s.agentWrite a bs).swcmd = s.swcmd :=
  (State.sansBus_swcmd _).symm.trans ((congrArg State.swcmd (State.agentWrite_frame s a bs)).trans (State.sansBus_swcmd _))
@[simp] theorem State.agentWrite_chan (a : Nat) (bs : List Byte) : (s.agentWrite a bs).chan = s.chan :=
  (State.sansBus_chan _).symm.trans ((congrArg State.chan (State.agentWrite_frame s a bs)).trans (State.sansBus_chan _))
@[simp] theorem State.agentWrite_taken (a : Nat) (bs : List Byte) : (s.agentWrite a bs).taken = s.taken :=
  (State.sansBus_taken _).symm.trans ((congrArg State.taken (State.agentWrite_frame s a bs)).trans (State.sansBus_taken _))
@[simp] theorem State.agentWrite_mgmt (a : Nat) (bs : List Byte) : (s.agentWrite a bs).mgmt = s.mgmt :=
  (State.sansBus_mgmt _).symm.trans ((congrArg State.mgmt (State.agentWrite_frame s a bs)).trans (State.sansBus_mgmt _))
@[simp] theorem State.agentWrite_pf (a : Nat) (bs : List Byte) : (s.agentWrite a bs).pf = s.pf :=
  (State.sansBus_pf _).symm.trans ((congrArg State.pf (State.agentWrite_frame s a bs)).trans (State.sansBus_pf _))
@[simp] theorem State.agentWrite_parts (a : Nat) (bs : List Byte) : (s.agentWrite a bs).parts = s.parts :=
  (State.sansBus_parts _).symm.trans ((congrArg State.parts (State.agentWrite_frame s a bs)).trans (State.sansBus_parts _))
@[simp] theorem State.agentWrite_owners (a : Nat) (bs : List Byte) : (s.agentWrite a bs).owners = s.owners :=
  (State.sansBus_owners _).symm.trans ((congrArg State.owners (State.agentWrite_frame s a bs)).trans (State.sansBus_owners _))
@[simp] theorem State.agentWrite_creq (a : Nat) (bs : List Byte) : (s.agentWrite a bs).creq = s.creq :=
  (State.sansBus_creq _).symm.trans ((congrArg State.creq (State.agentWrite_frame s a bs)).trans (State.sansBus_creq _))
@[simp] theorem State.agentWrite_lps (a : Nat) (bs : List Byte) : (s.agentWrite a bs).lps = s.lps :=
  (State.sansBus_lps _).symm.trans ((congrArg State.lps (State.agentWrite_frame s a bs)).trans (State.sansBus_lps _))
@[simp] theorem State.agentWrite_doms (a : Nat) (bs : List Byte) : (s.agentWrite a bs).doms = s.doms :=
  (State.sansBus_doms _).symm.trans ((congrArg State.doms (State.agentWrite_frame s a bs)).trans (State.sansBus_doms _))
@[simp] theorem State.agentWrite_nvs (a : Nat) (bs : List Byte) : (s.agentWrite a bs).nvs = s.nvs :=
  (State.sansBus_nvs _).symm.trans ((congrArg State.nvs (State.agentWrite_frame s a bs)).trans (State.sansBus_nvs _))
@[simp] theorem State.agentWrite_test (a : Nat) (bs : List Byte) : (s.agentWrite a bs).test = s.test :=
  (State.sansBus_test _).symm.trans ((congrArg State.test (State.agentWrite_frame s a bs)).trans (State.sansBus_test _))
@[simp] theorem State.agentWrite_ages (a : Nat) (bs : List Byte) : (s.agentWrite a bs).ages = s.ages :=
  (State.sansBus_ages _).symm.trans ((congrArg State.ages (State.agentWrite_frame s a bs)).trans (State.sansBus_ages _))
@[simp] theorem State.agentWrite_readout (a : Nat) (bs : List Byte) : (s.agentWrite a bs).readout = s.readout :=
  (State.sansBus_readout _).symm.trans ((congrArg State.readout (State.agentWrite_frame s a bs)).trans (State.sansBus_readout _))
@[simp] theorem State.agentWrite_sec (a : Nat) (bs : List Byte) : (s.agentWrite a bs).sec = s.sec :=
  (State.sansBus_sec _).symm.trans ((congrArg State.sec (State.agentWrite_frame s a bs)).trans (State.sansBus_sec _))
@[simp] theorem State.agentWrite_arb (a : Nat) (bs : List Byte) : (s.agentWrite a bs).arb = s.arb :=
  (State.sansBus_arb _).symm.trans ((congrArg State.arb (State.agentWrite_frame s a bs)).trans (State.sansBus_arb _))
@[simp] theorem State.agentWrite_jtag (a : Nat) (bs : List Byte) : (s.agentWrite a bs).jtag = s.jtag :=
  (State.sansBus_jtag _).symm.trans ((congrArg State.jtag (State.agentWrite_frame s a bs)).trans (State.sansBus_jtag _))
/-- agentWords changes no field but hbm, poison, clusters, cores. -/
theorem State.agentWords_frame (a : Nat) (ws : List Nat) : (s.agentWords a ws).sansBus = s.sansBus := by
  unfold State.agentWords; exact State.agentWrite_frame s _ _
@[simp] theorem State.agentWords_pending (a : Nat) (ws : List Nat) : (s.agentWords a ws).pending = s.pending :=
  (State.sansBus_pending _).symm.trans ((congrArg State.pending (State.agentWords_frame s a ws)).trans (State.sansBus_pending _))
@[simp] theorem State.agentWords_free (a : Nat) (ws : List Nat) : (s.agentWords a ws).free = s.free :=
  (State.sansBus_free _).symm.trans ((congrArg State.free (State.agentWords_frame s a ws)).trans (State.sansBus_free _))
@[simp] theorem State.agentWords_regs (a : Nat) (ws : List Nat) : (s.agentWords a ws).regs = s.regs :=
  (State.sansBus_regs _).symm.trans ((congrArg State.regs (State.agentWords_frame s a ws)).trans (State.sansBus_regs _))
@[simp] theorem State.agentWords_outs (a : Nat) (ws : List Nat) : (s.agentWords a ws).outs = s.outs :=
  (State.sansBus_outs _).symm.trans ((congrArg State.outs (State.agentWords_frame s a ws)).trans (State.sansBus_outs _))
@[simp] theorem State.agentWords_hold (a : Nat) (ws : List Nat) : (s.agentWords a ws).hold = s.hold :=
  (State.sansBus_hold _).symm.trans ((congrArg State.hold (State.agentWords_frame s a ws)).trans (State.sansBus_hold _))
@[simp] theorem State.agentWords_por (a : Nat) (ws : List Nat) : (s.agentWords a ws).por = s.por :=
  (State.sansBus_por _).symm.trans ((congrArg State.por (State.agentWords_frame s a ws)).trans (State.sansBus_por _))
@[simp] theorem State.agentWords_time (a : Nat) (ws : List Nat) : (s.agentWords a ws).time = s.time :=
  (State.sansBus_time _).symm.trans ((congrArg State.time (State.agentWords_frame s a ws)).trans (State.sansBus_time _))
@[simp] theorem State.agentWords_streams (a : Nat) (ws : List Nat) : (s.agentWords a ws).streams = s.streams :=
  (State.sansBus_streams _).symm.trans ((congrArg State.streams (State.agentWords_frame s a ws)).trans (State.sansBus_streams _))
@[simp] theorem State.agentWords_engines (a : Nat) (ws : List Nat) : (s.agentWords a ws).engines = s.engines :=
  (State.sansBus_engines _).symm.trans ((congrArg State.engines (State.agentWords_frame s a ws)).trans (State.sansBus_engines _))
@[simp] theorem State.agentWords_subs (a : Nat) (ws : List Nat) : (s.agentWords a ws).subs = s.subs :=
  (State.sansBus_subs _).symm.trans ((congrArg State.subs (State.agentWords_frame s a ws)).trans (State.sansBus_subs _))
@[simp] theorem State.agentWords_fabric (a : Nat) (ws : List Nat) : (s.agentWords a ws).fabric = s.fabric :=
  (State.sansBus_fabric _).symm.trans ((congrArg State.fabric (State.agentWords_frame s a ws)).trans (State.sansBus_fabric _))
@[simp] theorem State.agentWords_pins (a : Nat) (ws : List Nat) : (s.agentWords a ws).pins = s.pins :=
  (State.sansBus_pins _).symm.trans ((congrArg State.pins (State.agentWords_frame s a ws)).trans (State.sansBus_pins _))
@[simp] theorem State.agentWords_lanes (a : Nat) (ws : List Nat) : (s.agentWords a ws).lanes = s.lanes :=
  (State.sansBus_lanes _).symm.trans ((congrArg State.lanes (State.agentWords_frame s a ws)).trans (State.sansBus_lanes _))
@[simp] theorem State.agentWords_swcmd (a : Nat) (ws : List Nat) : (s.agentWords a ws).swcmd = s.swcmd :=
  (State.sansBus_swcmd _).symm.trans ((congrArg State.swcmd (State.agentWords_frame s a ws)).trans (State.sansBus_swcmd _))
@[simp] theorem State.agentWords_chan (a : Nat) (ws : List Nat) : (s.agentWords a ws).chan = s.chan :=
  (State.sansBus_chan _).symm.trans ((congrArg State.chan (State.agentWords_frame s a ws)).trans (State.sansBus_chan _))
@[simp] theorem State.agentWords_taken (a : Nat) (ws : List Nat) : (s.agentWords a ws).taken = s.taken :=
  (State.sansBus_taken _).symm.trans ((congrArg State.taken (State.agentWords_frame s a ws)).trans (State.sansBus_taken _))
@[simp] theorem State.agentWords_mgmt (a : Nat) (ws : List Nat) : (s.agentWords a ws).mgmt = s.mgmt :=
  (State.sansBus_mgmt _).symm.trans ((congrArg State.mgmt (State.agentWords_frame s a ws)).trans (State.sansBus_mgmt _))
@[simp] theorem State.agentWords_pf (a : Nat) (ws : List Nat) : (s.agentWords a ws).pf = s.pf :=
  (State.sansBus_pf _).symm.trans ((congrArg State.pf (State.agentWords_frame s a ws)).trans (State.sansBus_pf _))
@[simp] theorem State.agentWords_parts (a : Nat) (ws : List Nat) : (s.agentWords a ws).parts = s.parts :=
  (State.sansBus_parts _).symm.trans ((congrArg State.parts (State.agentWords_frame s a ws)).trans (State.sansBus_parts _))
@[simp] theorem State.agentWords_owners (a : Nat) (ws : List Nat) : (s.agentWords a ws).owners = s.owners :=
  (State.sansBus_owners _).symm.trans ((congrArg State.owners (State.agentWords_frame s a ws)).trans (State.sansBus_owners _))
@[simp] theorem State.agentWords_creq (a : Nat) (ws : List Nat) : (s.agentWords a ws).creq = s.creq :=
  (State.sansBus_creq _).symm.trans ((congrArg State.creq (State.agentWords_frame s a ws)).trans (State.sansBus_creq _))
@[simp] theorem State.agentWords_lps (a : Nat) (ws : List Nat) : (s.agentWords a ws).lps = s.lps :=
  (State.sansBus_lps _).symm.trans ((congrArg State.lps (State.agentWords_frame s a ws)).trans (State.sansBus_lps _))
@[simp] theorem State.agentWords_doms (a : Nat) (ws : List Nat) : (s.agentWords a ws).doms = s.doms :=
  (State.sansBus_doms _).symm.trans ((congrArg State.doms (State.agentWords_frame s a ws)).trans (State.sansBus_doms _))
@[simp] theorem State.agentWords_nvs (a : Nat) (ws : List Nat) : (s.agentWords a ws).nvs = s.nvs :=
  (State.sansBus_nvs _).symm.trans ((congrArg State.nvs (State.agentWords_frame s a ws)).trans (State.sansBus_nvs _))
@[simp] theorem State.agentWords_test (a : Nat) (ws : List Nat) : (s.agentWords a ws).test = s.test :=
  (State.sansBus_test _).symm.trans ((congrArg State.test (State.agentWords_frame s a ws)).trans (State.sansBus_test _))
@[simp] theorem State.agentWords_ages (a : Nat) (ws : List Nat) : (s.agentWords a ws).ages = s.ages :=
  (State.sansBus_ages _).symm.trans ((congrArg State.ages (State.agentWords_frame s a ws)).trans (State.sansBus_ages _))
@[simp] theorem State.agentWords_readout (a : Nat) (ws : List Nat) : (s.agentWords a ws).readout = s.readout :=
  (State.sansBus_readout _).symm.trans ((congrArg State.readout (State.agentWords_frame s a ws)).trans (State.sansBus_readout _))
@[simp] theorem State.agentWords_sec (a : Nat) (ws : List Nat) : (s.agentWords a ws).sec = s.sec :=
  (State.sansBus_sec _).symm.trans ((congrArg State.sec (State.agentWords_frame s a ws)).trans (State.sansBus_sec _))
@[simp] theorem State.agentWords_arb (a : Nat) (ws : List Nat) : (s.agentWords a ws).arb = s.arb :=
  (State.sansBus_arb _).symm.trans ((congrArg State.arb (State.agentWords_frame s a ws)).trans (State.sansBus_arb _))
@[simp] theorem State.agentWords_jtag (a : Nat) (ws : List Nat) : (s.agentWords a ws).jtag = s.jtag :=
  (State.sansBus_jtag _).symm.trans ((congrArg State.jtag (State.agentWords_frame s a ws)).trans (State.sansBus_jtag _))

end Sys2Proof.Machine
end

