-- ==== Sys2Proof/Laws/Tab.lean ====
section
/-! SUPPORT. Laws of tables: what a read gives after a write, and that every table operation keeps the canonical form. -/

namespace Sys2Proof.Machine

section
variable {α : Type}

@[simp] theorem tabFind_nil (i : Nat) : tabFind ([] : Tab α) i = none := rfl
@[simp] theorem tabGet_nil (d : α) (i : Nat) : tabGet d [] i = d := rfl

theorem tabFind_ins_self (m : Tab α) (i : Nat) (x : α) : tabFind (tabIns m i x) i = some x := by
  induction m with
  | nil => simp [tabIns, tabFind]
  | cons e m ih =>
    obtain ⟨k, v⟩ := e
    simp only [tabIns]
    split
    · next h => simp [tabFind, h]
    · next h =>
      split
      · simp [tabFind]
      · next h' => simp [tabFind, h, h', ih]

theorem tabFind_ins_other (m : Tab α) {i j : Nat} (x : α) (hj : j ≠ i) : tabFind (tabIns m i x) j = tabFind m j := by
  induction m with
  | nil => simp [tabIns, tabFind, hj]
  | cons e m ih =>
    obtain ⟨k, v⟩ := e
    simp only [tabIns]
    split
    · next h => subst h; simp [tabFind, hj]
    · next h =>
      split
      · next h' =>
        simp only [tabFind, hj, if_false]
        split
        · next hl => rw [if_neg (by omega), if_pos (by omega)]
        · rfl
      · simp only [tabFind, ih]

/-- The keys of a sorted table lie above those before them. -/
theorem tabSorted_cons {k : Nat} {v : α} {m : Tab α} :
    tabSorted ((k, v) :: m) = true ↔ (∀ e ∈ m, k < e.1) ∧ tabSorted m = true := by
  simp [tabSorted, List.all_eq_true]

theorem tabFind_below (m : Tab α) (i : Nat) (h : ∀ e ∈ m, i < e.1) : tabFind m i = none := by
  cases m with
  | nil => rfl
  | cons e m =>
    obtain ⟨k, v⟩ := e
    have : i < k := h (k, v) (by simp)
    simp [tabFind, this, Nat.ne_of_lt this]

theorem tabFind_del_self (m : Tab α) (i : Nat) (h : tabSorted m = true) : tabFind (tabDel m i) i = none := by
  induction m with
  | nil => rfl
  | cons e m ih =>
    obtain ⟨k, v⟩ := e
    obtain ⟨hk, hm⟩ := tabSorted_cons.1 h
    simp only [tabDel]
    split
    · next e => subst e; exact tabFind_below m i hk
    · next hne =>
      split
      · next hl => simp [tabFind, hne, hl]
      · next hl => simp [tabFind, hne, hl, ih hm]

theorem tabFind_del_other (m : Tab α) {i j : Nat} (h : tabSorted m = true) (hj : j ≠ i) :
    tabFind (tabDel m i) j = tabFind m j := by
  induction m with
  | nil => rfl
  | cons e m ih =>
    obtain ⟨k, v⟩ := e
    obtain ⟨hk, hm⟩ := tabSorted_cons.1 h
    simp only [tabDel]
    split
    · next e =>
      subst e
      simp only [tabFind, hj, if_false]
      split
      · next hl => exact tabFind_below m j (fun e he => Nat.lt_trans hl (hk e he))
      · rfl
    · split
      · rfl
      · simp only [tabFind, ih hm]

theorem tabIns_all {p : Nat → Prop} (m : Tab α) (i : Nat) (x : α) (hi : p i) (h : ∀ e ∈ m, p e.1) :
    ∀ e ∈ tabIns m i x, p e.1 := by
  induction m with
  | nil => intro e he; simp [tabIns] at he; simpa [he] using hi
  | cons e m ih =>
    obtain ⟨k, v⟩ := e
    have hk : p k := h (k, v) (by simp)
    have hm : ∀ e ∈ m, p e.1 := fun e he => h e (by simp [he])
    simp only [tabIns]
    split
    · intro e he; simp at he; obtain rfl | he := he
      · exact hk
      · exact hm e he
    · split
      · intro e he; simp at he; obtain rfl | rfl | he := he
        · exact hi
        · exact hk
        · exact hm e he
      · intro e he; simp at he; obtain rfl | he := he
        · exact hk
        · exact ih hm e he

theorem tabSorted_ins (m : Tab α) (i : Nat) (x : α) (h : tabSorted m = true) : tabSorted (tabIns m i x) = true := by
  induction m with
  | nil => rfl
  | cons e m ih =>
    obtain ⟨k, v⟩ := e
    obtain ⟨hk, hm⟩ := tabSorted_cons.1 h
    simp only [tabIns]
    split
    · exact tabSorted_cons.2 ⟨hk, hm⟩
    · split
      · next hl =>
        refine tabSorted_cons.2 ⟨?_, h⟩
        intro e he; simp at he; obtain rfl | he := he
        · exact hl
        · exact Nat.lt_trans hl (hk e he)
      · exact tabSorted_cons.2 ⟨tabIns_all m i x (p := fun a => k < a) (by omega) hk, ih hm⟩

theorem tabDel_sub (m : Tab α) (i : Nat) : ∀ e ∈ tabDel m i, e ∈ m := by
  induction m with
  | nil => intro e he; exact he
  | cons e m ih =>
    obtain ⟨k, v⟩ := e
    simp only [tabDel]
    split
    · intro e he; simp [he]
    · split
      · intro e he; exact he
      · intro e he; simp at he; obtain rfl | he := he
        · simp
        · simp [ih e he]

theorem tabSorted_del (m : Tab α) (i : Nat) (h : tabSorted m = true) : tabSorted (tabDel m i) = true := by
  induction m with
  | nil => rfl
  | cons e m ih =>
    obtain ⟨k, v⟩ := e
    obtain ⟨hk, hm⟩ := tabSorted_cons.1 h
    simp only [tabDel]
    split
    · exact hm
    · split
      · exact h
      · exact tabSorted_cons.2 ⟨fun e he => hk e (tabDel_sub m i e he), ih hm⟩

theorem tabSorted_filter (m : Tab α) (p : Nat × α → Bool) (h : tabSorted m = true) : tabSorted (m.filter p) = true := by
  induction m with
  | nil => rfl
  | cons e m ih =>
    obtain ⟨k, v⟩ := e
    obtain ⟨hk, hm⟩ := tabSorted_cons.1 h
    simp only [List.filter]
    split
    · exact tabSorted_cons.2 ⟨fun e he => hk e ((List.mem_filter.1 he).1), ih hm⟩
    · exact ih hm

theorem tabIns_ins (m : Tab α) (i : Nat) (x y : α) : tabIns (tabIns m i x) i y = tabIns m i y := by
  induction m with
  | nil => simp [tabIns]
  | cons e m ih =>
    obtain ⟨k, v⟩ := e
    simp only [tabIns]
    by_cases h : i = k
    · subst h; simp [tabIns]
    · by_cases hl : i < k
      · simp [tabIns, h, hl]
      · simp [tabIns, h, hl, ih]

theorem tabIns_mem (m : Tab α) (i : Nat) (x : α) : ∀ e ∈ tabIns m i x, e = (i, x) ∨ e ∈ m := by
  induction m with
  | nil => intro e he; simp [tabIns] at he; simp [he]
  | cons e m ih =>
    obtain ⟨k, v⟩ := e
    simp only [tabIns]
    split
    · next h =>
      subst h
      intro e he; simp at he; obtain rfl | he := he
      · simp
      · simp [he]
    · split
      · intro e he; simp at he; obtain rfl | rfl | he := he
        · simp
        · simp
        · simp [he]
      · intro e he; simp at he; obtain rfl | he := he
        · simp
        · obtain h | h := ih e he
          · simp [h]
          · simp [h]

variable [DecidableEq α]

/-- What a read gives at the key written, in a sorted table. -/
theorem tabGet_put_self (d : α) (m : Tab α) (i : Nat) (x : α) (h : tabSorted m = true) : tabGet d (tabPut d m i x) i = x := by
  unfold tabGet tabPut
  split
  · next e => rw [tabFind_del_self m i h, e]; rfl
  · rw [tabFind_ins_self]; rfl

/-- What a read gives at the key written, for a value other than the default, in any table. -/
theorem tabGet_put_ne (d : α) (m : Tab α) (i : Nat) (x : α) (h : x ≠ d) : tabGet d (tabPut d m i x) i = x := by
  simp [tabGet, tabPut, h, tabFind_ins_self]

/-- A write leaves every other key alone. -/
theorem tabGet_put_other (d : α) (m : Tab α) {i j : Nat} (x : α) (h : tabSorted m = true) (hj : j ≠ i) (d' : α) :
    tabGet d' (tabPut d m i x) j = tabGet d' m j := by
  unfold tabGet tabPut
  split
  · rw [tabFind_del_other m h hj]
  · rw [tabFind_ins_other m x hj]

/-- Of two writes at one key the second stands. -/
theorem tabPut_put (d : α) (m : Tab α) (i : Nat) (x y : α) (hx : x ≠ d) (hy : y ≠ d) :
    tabPut d (tabPut d m i x) i y = tabPut d m i y := by
  simp [tabPut, hx, hy, tabIns_ins]

theorem tabWf_iff (d : Nat → α) (m : Tab α) :
    tabWf d m = true ↔ tabSorted m = true ∧ ∀ e ∈ m, e.2 ≠ d e.1 := by
  simp [tabWf, tabClean, List.all_eq_true]

/-- A write keeps the canonical form. -/
theorem tabWf_put (d : Nat → α) (m : Tab α) (i : Nat) (x : α) (h : tabWf d m = true) :
    tabWf d (tabPut (d i) m i x) = true := by
  obtain ⟨hs, hc⟩ := (tabWf_iff d m).1 h
  refine (tabWf_iff d _).2 ?_
  unfold tabPut
  split
  · exact ⟨tabSorted_del m i hs, fun e he => hc e (tabDel_sub m i e he)⟩
  · next hx =>
    refine ⟨tabSorted_ins m i x hs, fun e he => ?_⟩
    obtain rfl | he := tabIns_mem m i x e he
    · exact hx
    · exact hc e he

/-- Taking a range of entries out keeps the canonical form. -/
theorem tabWf_drop (d : Nat → α) (m : Tab α) (lo hi : Nat) (h : tabWf d m = true) : tabWf d (tabDrop m lo hi) = true := by
  obtain ⟨hs, hc⟩ := (tabWf_iff d m).1 h
  exact (tabWf_iff d _).2 ⟨tabSorted_filter m _ hs, fun e he => hc e ((List.mem_filter.1 he).1)⟩

end

end Sys2Proof.Machine
end

