-- ==== Sys2Proof/Laws/Regs.lean ====
section
/-! SUPPORT. Laws of the register store and of HBM: what a read gives after a write, and that their canonical form is kept. -/

namespace Sys2Proof.Machine

/-- The register store of a state rises strictly. -/
abbrev State.sortedRegs (s : State) : Prop := tabSorted s.regs = true

theorem State.canonical_regs {s : State} (h : s.canonical = true) : s.sortedRegs := by
  simp only [State.canonical, regsWf, tabWf, Bool.and_eq_true] at h
  exact h.2.1

theorem State.wr_sorted {s : State} (h : s.sortedRegs) (off v : Nat) : (s.wr off v).sortedRegs := by
  show tabSorted (tabPut (regReset off) s.regs off (BitVec.ofNat 32 v)) = true
  unfold tabPut
  split
  · exact tabSorted_del _ _ h
  · exact tabSorted_ins _ _ _ h

theorem State.rd_wr_self {s : State} (h : s.sortedRegs) (off v : Nat) : (s.wr off v).rd off = v % 2 ^ 32 := by
  show (tabGet (regReset off) (tabPut (regReset off) s.regs off (BitVec.ofNat 32 v)) off).toNat = _
  rw [tabGet_put_self _ _ _ _ h]
  simp

theorem State.rd_wr_other {s : State} (h : s.sortedRegs) {off off' : Nat} (v : Nat) (hne : off' ≠ off) :
    (s.wr off v).rd off' = s.rd off' := by
  show (tabGet (regReset off') (tabPut (regReset off) s.regs off (BitVec.ofNat 32 v)) off').toNat = _
  rw [tabGet_put_other _ _ _ h hne]
  rfl

theorem State.fget_wr_other {s : State} (h : s.sortedRegs) {off off' : Nat} (v lo w : Nat) (hne : off' ≠ off) :
    (s.wr off v).fget off' lo w = s.fget off' lo w := by
  unfold State.fget; rw [State.rd_wr_other h v hne]

theorem State.fbit_wr_other {s : State} (h : s.sortedRegs) {off off' : Nat} (v i : Nat) (hne : off' ≠ off) :
    (s.wr off v).fbit off' i = s.fbit off' i := by
  unfold State.fbit; rw [State.fget_wr_other h v i 1 hne]

theorem State.fset_sorted {s : State} (h : s.sortedRegs) (off lo w v : Nat) : (s.fset off lo w v).sortedRegs :=
  State.wr_sorted h _ _

theorem State.count_sorted {s : State} (h : s.sortedRegs) (off n : Nat) : (s.count off n).sortedRegs := State.wr_sorted h _ _

/-- Every memory operation keeps the canonical form of HBM. -/
theorem State.hbmPut_wf {s : State} (h : Memory.wf s.hbm = true) (a : Nat) (b : Byte) : Memory.wf (s.hbmPut a b).hbm = true :=
  tabWf_put (fun _ => 0) s.hbm a b h

theorem State.hbmWrite_wf {s : State} (h : Memory.wf s.hbm = true) (a : Nat) (bs : List Byte) :
    Memory.wf (s.hbmWrite a bs).hbm = true := by
  induction bs generalizing s a with
  | nil => exact h
  | cons b bs ih => unfold State.hbmWrite; exact ih (State.hbmPut_wf h a b) (a + 1)

theorem State.hbmWordPut_wf {s : State} (h : Memory.wf s.hbm = true) (a v : Nat) : Memory.wf (s.hbmWordPut a v).hbm = true := by
  unfold State.hbmWordPut
  exact State.hbmWrite_wf h a _

theorem State.hbmWords_wf {s : State} (h : Memory.wf s.hbm = true) (a : Nat) (vs : List Nat) :
    Memory.wf (s.hbmWords a vs).hbm = true := by
  induction vs generalizing s a with
  | nil => exact h
  | cons v vs ih => unfold State.hbmWords; exact ih (State.hbmWordPut_wf h a v) (a + 8)

theorem State.hbmZero_wf {s : State} (h : Memory.wf s.hbm = true) (a n : Nat) : Memory.wf (s.hbmZero a n).hbm = true :=
  tabWf_drop (fun _ => 0) s.hbm a (a + n) h

/-- A change of MAP keeps the canonical form of HBM, and no other part of the state but poison changes (R29). -/
theorem State.remapHbm_wf (s : State) (old new : Nat) : Memory.wf (s.remapHbm old new).hbm = true := by
  have key : ∀ (m : List Host.Cell) (acc : List Host.Cell), tabWf (fun _ => (0 : Byte)) acc = true →
      tabWf (fun _ => (0 : Byte)) (m.foldl (fun m e => tabPut 0 m (hbmCellAddr new (hbmCell old e.1)) e.2) acc) = true := by
    intro m
    induction m with
    | nil => intro acc h; exact h
    | cons e m ih => intro acc h; exact ih _ (tabWf_put (fun _ => (0 : Byte)) acc _ _ h)
  exact key s.hbm [] rfl

/-- The byte written is read back, and every other byte is as before. -/
theorem State.hbmByte_put_self {s : State} (h : Memory.wf s.hbm = true) (a : Nat) (b : Byte) :
    (s.hbmPut a b).hbmByte a = b := by
  unfold State.hbmByte State.hbmPut
  exact tabGet_put_self _ _ _ _ ((tabWf_iff _ _).1 h).1

theorem State.hbmByte_put_other {s : State} (h : Memory.wf s.hbm = true) {a a' : Nat} (b : Byte) (hne : a' ≠ a) :
    (s.hbmPut a b).hbmByte a' = s.hbmByte a' := by
  unfold State.hbmByte State.hbmPut
  exact tabGet_put_other _ _ _ ((tabWf_iff _ _).1 h).1 hne _

/-- A write of bytes leaves every byte outside it alone. -/
theorem State.hbmByte_write_other {s : State} (h : Memory.wf s.hbm = true) (a : Nat) (bs : List Byte) {a' : Nat}
    (hne : a' < a ∨ a + bs.length ≤ a') : (s.hbmWrite a bs).hbmByte a' = s.hbmByte a' := by
  induction bs generalizing s a with
  | nil => rfl
  | cons b bs ih =>
    simp only [List.length_cons] at hne
    unfold State.hbmWrite
    rw [ih (State.hbmPut_wf h a b) (a + 1) (by omega), State.hbmByte_put_other h b (by omega)]


theorem State.sortedRegs_of {s t : State} (h : s.sortedRegs) (e : t.regs = s.regs) : t.sortedRegs := by
  unfold State.sortedRegs; rw [e]; exact h

theorem State.fset_rd_other {s : State} (h : s.sortedRegs) {off off' : Nat} (lo w v : Nat) (hne : off' ≠ off) :
    (s.fset off lo w v).rd off' = s.rd off' := State.rd_wr_other h _ hne

theorem State.count_rd_other {s : State} (h : s.sortedRegs) {off off' : Nat} (n : Nat) (hne : off' ≠ off) :
    (s.count off n).rd off' = s.rd off' := State.rd_wr_other h _ hne

/-- A manager event changes no register but MGT_EVT. -/
theorem State.mgrEvent_spec {s : State} (h : s.sortedRegs) (i : Nat) :
    (s.mgrEvent i).sortedRegs ∧ ∀ off, off ≠ MGT_EVT → (s.mgrEvent i).rd off = s.rd off := by
  have h1 := State.fset_sorted h MGT_EVT i 1 1
  have h2 : ∀ off, off ≠ MGT_EVT → (s.fset MGT_EVT i 1 1).rd off = s.rd off :=
    fun off hne => State.fset_rd_other h i 1 1 hne
  unfold State.mgrEvent
  dsimp only
  split
  · exact ⟨State.sortedRegs_of h1 (State.pfVector_regs _ _), fun off hne => by
      rw [State.rd_of (State.pfVector_regs _ _)]; exact h2 off hne⟩
  · exact ⟨h1, h2⟩

/-- An entry of the error log changes no register but those of the log and the events. -/
theorem State.logEntry_spec {s : State} (h : s.sortedRegs) (w0 w1 : Nat) :
    (s.logEntry w0 w1).sortedRegs ∧ ∀ off, off ≠ MGT_LOG_LOST → off ≠ MGT_LOG_CNT → off ≠ MGT_FWEVT → off ≠ MGT_EVT →
      (s.logEntry w0 w1).rd off = s.rd off := by
  unfold State.logEntry
  dsimp only
  generalize hm : s.withMgmt _ = u
  have hu : u.sortedRegs := by subst hm; exact State.sortedRegs_of h (State.withMgmt_regs _ _)
  have hr : ∀ off, u.rd off = s.rd off := by intro off; subst hm; exact State.withMgmt_rd_eq _ _ _
  generalize hv : (if s.fget MGT_LOG_CNT 8 9 = 256 then u.count MGT_LOG_LOST 1 else u) = v
  have hv1 : v.sortedRegs := by
    subst hv; split
    · exact State.count_sorted hu _ _
    · exact hu
  have hv2 : ∀ off, off ≠ MGT_LOG_LOST → v.rd off = s.rd off := by
    intro off hne; subst hv; split
    · rw [State.count_rd_other hu 1 hne, hr]
    · exact hr off
  have hw := State.wr_sorted hv1 MGT_LOG_CNT (min (s.fget MGT_LOG_CNT 8 9 + 1) 256 * 256 + (s.fget MGT_LOG_CNT 0 8 + 1) % 256)
  obtain ⟨h1, h2⟩ := State.mgrEvent_spec (State.fset_sorted hw MGT_FWEVT 0 1 1) 4
  refine ⟨h1, fun off a b c d => ?_⟩
  rw [h2 off d, State.fset_rd_other hw 0 1 1 c, State.rd_wr_other hv1 _ b, hv2 off a]

/-- A record in the error log changes no register but those of the log and the events. -/
theorem State.errLog_spec {s : State} (h : s.sortedRegs) (st src : Nat) (pn : Option Nat) (info : Nat) :
    (s.errLog st src pn info).sortedRegs ∧ ∀ off, off ≠ MGT_LOG_LOST → off ≠ MGT_LOG_CNT → off ≠ MGT_FWEVT → off ≠ MGT_EVT →
      (s.errLog st src pn info).rd off = s.rd off := by
  unfold State.errLog
  exact State.logEntry_spec h _ _

end Sys2Proof.Machine
end

