-- ==== Sys2Proof/Laws/Bits.lean ====
section
/-! SUPPORT. Laws of bit fields: what a field of a number, and of a register, reads after a field of it is written. -/

namespace Sys2Proof.Machine

theorem testBit_bits (v lo w i : Nat) : (bits v lo w).testBit i = (decide (i < w) && v.testBit (lo + i)) := by
  unfold bits
  rw [Nat.testBit_mod_two_pow, Nat.testBit_div_two_pow, Nat.add_comm]

theorem testBit_putBits (v lo w x i : Nat) :
    (putBits v lo w x).testBit i = if lo ≤ i ∧ i < lo + w then x.testBit (i - lo) else v.testBit i := by
  have h1 : v % 2 ^ lo < 2 ^ lo := Nat.mod_lt _ (Nat.two_pow_pos _)
  have h2 : 2 ^ lo * (x % 2 ^ w) + v % 2 ^ lo < 2 ^ (lo + w) := by
    have := Nat.mod_lt x (Nat.two_pow_pos w)
    rw [Nat.pow_add]
    calc _ < 2 ^ lo * (x % 2 ^ w) + 2 ^ lo := by omega
      _ = 2 ^ lo * (x % 2 ^ w + 1) := by rw [Nat.mul_add, Nat.mul_one]
      _ ≤ _ := Nat.mul_le_mul_left _ (by omega)
  have e : putBits v lo w x = 2 ^ (lo + w) * (v / 2 ^ (lo + w)) + (2 ^ lo * (x % 2 ^ w) + v % 2 ^ lo) := by
    unfold putBits; rw [Nat.mul_comm (x % 2 ^ w), Nat.mul_comm (v / 2 ^ (lo + w))]; omega
  rw [e, Nat.testBit_two_pow_mul_add _ h2, Nat.testBit_two_pow_mul_add _ h1]
  rw [Nat.testBit_mod_two_pow, Nat.testBit_mod_two_pow, Nat.testBit_div_two_pow]
  by_cases ha : i < lo
  · rw [if_pos (by omega), if_pos ha, if_neg (by omega)]; simp [ha]
  · by_cases hb : i < lo + w
    · rw [if_pos hb, if_neg ha, if_pos ⟨by omega, hb⟩]; simp [show i - lo < w by omega]
    · rw [if_neg hb, if_neg (by omega)]; congr 1; omega

/-- The field written reads back. -/
theorem bits_put_self (v lo w x : Nat) : bits (putBits v lo w x) lo w = x % 2 ^ w := by
  apply Nat.eq_of_testBit_eq; intro i
  rw [testBit_bits, testBit_putBits, Nat.testBit_mod_two_pow]
  by_cases h : i < w
  · rw [if_pos ⟨by omega, by omega⟩, Nat.add_sub_cancel_left]
  · simp [h]

/-- A field that does not meet the one written reads as before. -/
theorem bits_put_other {lo w lo' w' : Nat} (v x : Nat) (h : lo' + w' ≤ lo ∨ lo + w ≤ lo') :
    bits (putBits v lo w x) lo' w' = bits v lo' w' := by
  apply Nat.eq_of_testBit_eq; intro i
  rw [testBit_bits, testBit_bits, testBit_putBits]
  by_cases hi : i < w'
  · rw [if_neg (by omega)]
  · simp [hi]

theorem putBits_lt {v lo w n : Nat} (x : Nat) (h : v < 2 ^ n) (hn : lo + w ≤ n) : putBits v lo w x < 2 ^ n := by
  apply Nat.lt_pow_two_of_testBit; intro i hi
  rw [testBit_putBits, if_neg (by omega)]
  exact Nat.testBit_lt_two_pow (Nat.lt_of_lt_of_le h (Nat.pow_le_pow_right (by omega) hi))

theorem bits_lt (v lo w : Nat) : bits v lo w < 2 ^ w := Nat.mod_lt _ (Nat.two_pow_pos _)

theorem State.rd_lt (s : State) (off : Nat) : s.rd off < 2 ^ 32 := BitVec.isLt _

theorem State.rd_fset_self {s : State} (h : s.sortedRegs) {lo w : Nat} (off v : Nat) (hw : lo + w ≤ 32) :
    (s.fset off lo w v).rd off = putBits (s.rd off) lo w v := by
  unfold State.fset
  rw [State.rd_wr_self h, Nat.mod_eq_of_lt (putBits_lt _ (s.rd_lt off) hw)]

theorem State.fget_fset_self {s : State} (h : s.sortedRegs) {lo w : Nat} (off v : Nat) (hw : lo + w ≤ 32) :
    (s.fset off lo w v).fget off lo w = v % 2 ^ w := by
  unfold State.fget
  rw [State.rd_fset_self h off v hw, bits_put_self]

theorem State.fget_fset_field {s : State} (h : s.sortedRegs) {lo w lo' w' : Nat} (off v : Nat) (hw : lo + w ≤ 32)
    (hd : lo' + w' ≤ lo ∨ lo + w ≤ lo') : (s.fset off lo w v).fget off lo' w' = s.fget off lo' w' := by
  unfold State.fget
  rw [State.rd_fset_self h off v hw, bits_put_other _ _ hd]

theorem State.fget_fset_reg {s : State} (h : s.sortedRegs) {off off' : Nat} (lo w v lo' w' : Nat) (hne : off' ≠ off) :
    (s.fset off lo w v).fget off' lo' w' = s.fget off' lo' w' := by
  unfold State.fget; rw [State.fset_rd_other h _ _ _ hne]

theorem State.fbit_fset_self {s : State} (h : s.sortedRegs) {i : Nat} (off v : Nat) (hi : i < 32) :
    (s.fset off i 1 v).fbit off i = (v % 2 == 1) := by
  simp [State.fbit, State.fget_fset_self h off v (show i + 1 ≤ 32 by omega)]

theorem State.fbit_fset_field {s : State} (h : s.sortedRegs) {lo w i : Nat} (off v : Nat) (hw : lo + w ≤ 32)
    (hd : i < lo ∨ lo + w ≤ i) : (s.fset off lo w v).fbit off i = s.fbit off i := by
  unfold State.fbit; rw [State.fget_fset_field h off v hw (by omega)]

theorem State.fbit_fset_reg {s : State} (h : s.sortedRegs) {off off' : Nat} (lo w v i : Nat) (hne : off' ≠ off) :
    (s.fset off lo w v).fbit off' i = s.fbit off' i := by
  unfold State.fbit; rw [State.fget_fset_reg h _ _ _ _ _ hne]

end Sys2Proof.Machine
end

