-- ==== Sys2Proof/Laws/Core.lean ====
section
/-! SUPPORT. Laws of a core that executes an instruction: the record of a core after a write, the context in which an
instruction begins, and what an instruction on its context does to the state. -/

namespace Sys2Proof.Machine

theorem State.core_setCore (s : State) (k : Nat) {c : CoreSt} (hc : c ≠ {}) : (s.setCore k c).core k = c := by
  unfold State.core State.setCore
  rw [State.withCores_cores]
  exact tabGet_put_ne _ _ _ _ hc

theorem State.setCore_setCore (s : State) (k : Nat) {c d : CoreSt} (hc : c ≠ {}) (hd : d ≠ {}) :
    (s.setCore k c).setCore k d = s.setCore k d := by
  unfold State.setCore
  rw [State.withCores_cores, tabPut_put _ _ _ _ _ hc hd]
  rfl

@[simp] theorem State.draw_core (s : State) (k : Nat) : s.draw.2.core k = s.core k := rfl

theorem tabIns_ne {α : Type} (m : Tab α) (i : Nat) (x : α) : tabIns m i x ≠ [] := by
  cases m with
  | nil => simp [tabIns]
  | cons e m =>
    obtain ⟨a, v⟩ := e
    simp only [tabIns]
    split
    · simp
    · split <;> simp

/-- A core's record with a retirement group is no core at its reset values. -/
theorem CoreSt.ne_of_groups {c : CoreSt} (h : c.groups ≠ []) : c ≠ {} := fun e => h (by rw [e])

theorem CoreSt.addGroup_groups (c : CoreSt) : c.addGroup.groups ≠ [] := by simp [CoreSt.addGroup]

theorem CoreSt.onLast_groups (c : CoreSt) (f : Group → Group) : (c.onLast f).groups = [] ↔ c.groups = [] := by
  unfold CoreSt.onLast
  cases h : c.groups.getLast? with
  | none => rfl
  | some g =>
    have : c.groups ≠ [] := by intro e; rw [e] at h; simp at h
    simp [this]

@[simp] theorem CoreSt.onLast_arch (c : CoreSt) (f : Group → Group) : (c.onLast f).arch = c.arch := by
  unfold CoreSt.onLast; split <;> rfl

@[simp] theorem CoreSt.shut_arch (c : CoreSt) : c.shut.arch = c.arch := CoreSt.onLast_arch _ _

/-- The translations that an instruction uses are kept beside the context. -/
theorem State.tlbFill_arch (s : State) (k va : Nat) : ((s.tlbFill k va).core k).arch = (s.core k).arch := by
  unfold State.tlbFill
  simp only [State.draw]
  split
  · rfl
  · split
    · rw [State.core_setCore]
      intro e
      exact tabIns_ne _ _ _ (congrArg CoreSt.utlb e)
    · rfl

/-- A group is open for the instruction, in the context as it stood. -/
theorem State.beginGroup_spec (s : State) (k : Nat) :
    ((s.beginGroup k).core k).arch = (s.core k).arch ∧ ((s.beginGroup k).core k).groups ≠ [] := by
  have ne (c : CoreSt) : c.addGroup ≠ {} := CoreSt.ne_of_groups (CoreSt.addGroup_groups c)
  have at_ (t : State) (c : CoreSt) : (t.setCore k c.addGroup).core k = c.addGroup := State.core_setCore _ _ (ne _)
  have hn : ∀ j, (s.core k).openN = some j → (s.core k).groups ≠ [] := by
    intro j h e
    rw [CoreSt.openN, e] at h
    simp at h
  unfold State.beginGroup
  split
  · rw [at_]; exact ⟨rfl, CoreSt.addGroup_groups _⟩
  · next h => exact ⟨rfl, hn _ h⟩
  · next h =>
    simp only
    split
    · rw [at_]; exact ⟨CoreSt.shut_arch _, CoreSt.addGroup_groups _⟩
    · exact ⟨rfl, hn _ h⟩

/-- An instruction begins in the context of its core, with a group open for it. -/
theorem State.beginInstr_spec (s : State) (k n : Nat) :
    ((s.beginInstr k n).core k).arch = (s.core k).arch ∧ ((s.beginInstr k n).core k).groups ≠ [] := by
  unfold State.beginInstr
  refine ⟨?_, (State.beginGroup_spec _ _).2⟩
  rw [(State.beginGroup_spec _ _).1]
  split
  · rw [State.tlbFill_arch, State.tlbFill_arch]
  · rw [State.tlbFill_arch]

/-- An instruction whose fetch meets a trap ends with it. -/
theorem State.instr_fetchTrap {s : State} {k n c va : Nat} {s' : State} (f : State → State × Ends)
    (hi : s.issues k = true) (hf : s.fetchTrap k n = some (c, va, s')) :
    s.instr k n f = (s'.beginGroup k).endInstr k n (s.core k).arch (.trap c (BitVec.ofNat 64 va)) := by
  unfold State.instr
  rw [if_pos hi, hf]

/-- An instruction whose fetch meets nothing begins, has its effect and ends. -/
theorem State.instrState_spec {s : State} {k n : Nat} (hu : s.up) (hi : s.issues k = true) (hf : s.fetchTrap k n = none)
    (f : State → State × Ends) :
    s.instrState k n f = .next ((f (s.beginInstr k n)).1.endInstr k n (s.core k).arch (f (s.beginInstr k n)).2) := by
  unfold State.instrState State.live State.instr
  simp only [hu.1, hu.2, Option.isSome_none, Bool.or_self, hi, hf, if_true, Bool.false_eq_true, if_false]

/-- An instruction on the context of its core puts the new context into the record of the core that began it. -/
theorem State.instrArch_spec {s : State} {k n : Nat} (hu : s.up) (hi : s.issues k = true) (hf : s.fetchTrap k n = none)
    (f : Arch → Arch × Ends) :
    s.instrArch k n f = .next
      (let o := s.beginInstr k n
       let r := f (s.core k).arch
       (o.setCore k { o.core k with arch := r.1 }).endInstr k n (s.core k).arch r.2) := by
  unfold State.instrArch State.live State.instr
  simp only [hu.1, hu.2, Option.isSome_none, Bool.or_self, hi, hf, if_true, Bool.false_eq_true, if_false,
    (State.beginInstr_spec s k n).1]

end Sys2Proof.Machine
end

