-- ==== Sys2Proof/Laws/Security.lean ====
section
/-! SUPPORT. What the random bit generator and the identity key change: the generator's own state and the free values, nothing
else (R373, R374). -/

namespace Sys2Proof.Machine

/-- A change of the generator alone: free values and the generator's state. -/
def State.drew (s t : State) : Prop := ∃ (n : Nat) (g : Drbg), t = (s.withFree n).withSec { s.sec with drbg := g }

theorem State.drew_refl (s : State) : s.drew s := ⟨s.free, s.sec.drbg, rfl⟩

theorem State.drew_trans {s t u : State} (h : s.drew t) (k : t.drew u) : s.drew u := by
  obtain ⟨n, g, rfl⟩ := h
  obtain ⟨m, f, rfl⟩ := k
  exact ⟨m, f, rfl⟩

theorem State.seed_drew (s : State) (g : Drbg) : s.drew (s.seed g) := ⟨_, _, rfl⟩

theorem State.randomBytes_drew (s : State) (n : Nat) : s.drew (s.randomBytes n).2 := by
  have h : s.drew (if s.sec.drbg.count = 0 || 65536 < s.sec.drbg.count then s.seed s.sec.drbg else s) := by
    split
    · exact s.seed_drew _
    · exact s.drew_refl
  unfold State.randomBytes
  generalize (if s.sec.drbg.count = 0 || 65536 < s.sec.drbg.count then s.seed s.sec.drbg else s) = t at h ⊢
  exact State.drew_trans h ⟨t.free, _, rfl⟩

theorem State.randomScalar_drew (s : State) : s.drew s.randomScalar.2 := s.randomBytes_drew 56

theorem State.signed_drew (s : State) (bs : List Byte) : s.drew (s.signed bs).2 := s.randomScalar_drew

/-- What such a change leaves alone. -/
theorem State.drew_keeps {s t : State} (h : s.drew t) :
    t.regs = s.regs ∧ t.hbm = s.hbm ∧ t.parts = s.parts ∧ t.nvs = s.nvs ∧ t.time = s.time ∧
      t.sec = { s.sec with drbg := t.sec.drbg } := by
  obtain ⟨n, g, rfl⟩ := h
  exact ⟨rfl, rfl, rfl, rfl, rfl, rfl⟩

/-- A scalar has 48 bytes. -/
theorem State.randomScalar_length (s : State) : s.randomScalar.1.length = 48 := by
  have h : ∀ n x, (leBytes n x).length = n := by
    intro n; induction n with
    | zero => intro x; rfl
    | succ n ih => intro x; simp [leBytes, ih]
  simp [State.randomScalar, ecScalar, beBytes, h]

end Sys2Proof.Machine
end

