-- ==== Sys2Proof/WellFormed.lean ====
section
/-! DEFINITION. Which commands are well formed: operands that the spec says cannot occur on a link or bus. A command that is
not well formed has a meaning all the same; the check says what a sender must keep to. -/

namespace Sys2Proof

/-- A register access is 4-byte aligned, and 8-byte aligned where it is 8 bytes wide (R35). -/
def offsetOk (off : BitVec 26) (wide : Bool) : Bool :=
  if wide then off.toNat % 8 == 0 else off.toNat % 4 == 0

/-- An access through BAR2 moves 1 to 4,096 bytes (R34). -/
def lengthOk (n : Nat) : Bool := 1 ≤ n && n ≤ 4096

/-- A write of normal cacheable memory names bytes of HBM (R27, R252). -/
def inHbm (addr : BitVec 35) (n : Nat) : Bool := 1 ≤ n && addr.toNat + n ≤ 0x800000000

/-- The types of control block that R67 defines. -/
def definedBlock (ty : BitVec 8) : Bool :=
  [0x1E#8, 0x4B#8, 0x5A#8, 0xA5#8, 0x78#8, 0xE1#8].contains ty

/-- The check of a command. -/
def Instr.wellFormed : Instr → Bool
  | .registerWrite _ off wide _ => offsetOk off wide
  | .readClear _ off wide => offsetOk off wide
  | .hostBar2Read _ len => lengthOk len.toNat
  | .hostBar2Write _ data => lengthOk data.length
  | .nonCachingWrite _ addr data => inHbm addr data.length
  | .reservedControlBlock _ ty => !definedBlock ty
  | _ => true

end Sys2Proof
end

