-- ==== Sys2Proof/Tests/Slice0.lean ====
section
/-! SUPPORT. The model's own tests: ill-formed commands, instruction words, worked examples of the spec, and a witness for each
statement with hypotheses: states and operands that meet them. Expected values are the spec's. -/

namespace Sys2Proof.Tests

open Sys2Proof Sys2Proof.Machine

set_option maxRecDepth 10000

/-- The reset state with registers written. -/
def at' (l : List (Nat × Nat)) : State := l.foldl (fun s e => s.wr e.1 e.2) State.reset

/-- Such a state is up, the first hypothesis of most statements. -/
theorem at'_up (l : List (Nat × Nat)) : (at' l).up := by
  have h : ∀ (s : State), s.up → (l.foldl (fun s e => s.wr e.1 e.2) s).up := by
    induction l with
    | nil => exact fun s h => h
    | cons e l ih => exact fun s h => ih _ h
  exact h _ ⟨rfl, rfl⟩

/-! ## Well-formedness -/

theorem test_unaligned_write : (Instr.registerWrite .pf 6 false 0).wellFormed = false := by decide
theorem test_unaligned_wide_write : (Instr.registerWrite .pf 4 true 0).wellFormed = false := by decide
theorem test_unaligned_read : (Instr.readClear (.vf 3) 2 false).wellFormed = false := by decide
theorem test_bar2_read_too_long : (Instr.hostBar2Read 0 4097).wellFormed = false := by decide
theorem test_bar2_write_empty : (Instr.hostBar2Write 0 []).wellFormed = false := by decide
theorem test_write_past_hbm : (Instr.nonCachingWrite .other 0x7FFFFFFFF [0, 0]).wellFormed = false := by decide
theorem test_defined_block_is_not_reserved : (Instr.reservedControlBlock 0 0x1E).wellFormed = false := by decide
theorem test_aligned_write : (Instr.registerWrite .pf 8 true 0).wellFormed = true := by decide

/-! ## Instruction words, bit by bit from R186 and R215 -/

/-- ADD G3, G1, G2: op 000001, RD 00011, RA 00001, RB 00010, X 00000, FN 000000. -/
theorem test_word_add : decodeWords 7 0b00000100011000010001000000000000 0 = some (.add 7 3 1 2) := by decide
/-- SUBF G31, G1, G2: FN 000011. -/
theorem test_word_subf : decodeWords 7 0b00000111111000010001000000000011 0 = some (.subf 7 31 1 2) := by decide
/-- ADDI G1, G2, 0xFFFF: op 000010. -/
theorem test_word_addi : decodeWords 7 0b00001000001000101111111111111111 0 = some (.addi 7 1 2 0xFFFF) := by decide
/-- SRA by 63: op 001000, KIND 10, SHAMT 111111. -/
theorem test_word_shi : decodeWords 7 0b00100000001000101000000000111111 0 = some (.shiSra 7 1 2 63) := by decide
/-- BR, the offset −1. -/
theorem test_word_br : decodeWords 7 0b01000011111111111111111111111111 0 = some (.br 7 0x3FFFFFF) := by decide
/-- LW post-incremented: op 011100, RD 1, RA 2, AM 01, MS 00, OFS 4. -/
theorem test_word_lw : decodeWords 7 0b01110000001000100100000000000100 0 = some (.lw 7 1 { ra := 2, am := 1, ms := 0, ofs := 4 }) := by decide
/-- SD: op 100011. -/
theorem test_word_sd : decodeWords 7 0b10001100001000100000000000001000 0 = some (.sd 7 1 { ra := 2, am := 0, ms := 0, ofs := 8 }) := by decide
/-- AMOADD of 64 bits: op 101000, SZ 1, FN 0001. -/
theorem test_word_amoadd : decodeWords 7 0b10100000001000100001100000010001 0 = some (.amoadd 7 true 1 2 3) := by decide
/-- FENCE.S: op 101010, bits [25:24] 10. -/
theorem test_word_fence : decodeWords 7 0b10101010000000000000000000000000 0 = some (.fenceS 7) := by decide
/-- DIVU: op 110000, FN 001001. -/
theorem test_word_divu : decodeWords 7 0b11000000001000100001100000001001 0 = some (.divu 7 1 2 3) := by decide
/-- MAC.H into ACC2: op 110010, AD 10. -/
theorem test_word_mac : decodeWords 7 0b11001000000000100001110000000000 0 = some (.macH 7 2 2 3) := by decide
/-- SLGET G4 with W = 1: op 110011, X 00001. -/
theorem test_word_slget : decodeWords 7 0b11001100100000000000000001000000 0 = some (.slget 7 4 true) := by decide
/-- SLGET into G5 is reserved (R231). -/
theorem test_word_slget_reserved : decodeWords 7 0b11001100101000000000000001000000 0 = none := by decide
/-- CSRR G1 from CSR 0x410: op 110100, FN 0000. -/
theorem test_word_csrr : decodeWords 7 0b11010000001000000100000100000000 0 = some (.csrr 7 1 0x410) := by decide
/-- ADDIW, format W, with its second word. -/
theorem test_word_addiw : decodeWords 7 0b11111100001000100000000000000000 0xFFFFFFFF = some (.addiw 7 1 2 0xFFFFFFFF) := by decide

/-! ## Witnesses: the timebase, slices and lanes -/

theorem witness_timebase :
    State.reset.tstate = 0 ∧ periodOk 25000000 = true ∧ periodOk 7999999 = false ∧ periodOk 8000000 = true ∧ periodOk 50000000 = true ∧
    (at' [(TIM_STATE, 1)]).tstate = 1 ∧ (at' [(TIM_STATE, 2)]).tstate = 2 ∧ (at' [(TIM_STATE, 3)]).tstate = 3 ∧
    ((at' [(TIM_STATE, 3)]).withTime { holdEdges := 255 }).time.holdEdges = 255 := by decide

theorem witness_til :
    (at' [(TIM_STATE, 0x101)]).aligned = true ∧ (at' [(TIM_STATE, 1)]).aligned = false ∧
    tilField .err (.data 0) (.data 0) (.data 0) = none ∧ tilField (.k 0xBC) (.data 1) (.data 2) (.data 3) = some 0x010203 ∧
    tsValue 0 0 0 0 false = none ∧ tsValue 0x010001 0x410001 0x810001 0xC10001 true = some 0x1000100010001 := by decide

theorem witness_tick_edges :
    State.reset.pending = [] ∧ State.reset.tstate = 0 ∧ (at' [(TIM_STATE, 3)]).time.holdEdges < 255 ∧
    (at' [(TIM_STATE, 3)]).time.loads = [] ∧ (at' [(TIM_STATE, 3)]).enabledStreams = [] := by decide

/-- A SYNCED device with one stream whose enable passes every check of R149. -/
def ready : State := at' [(TIM_STATE, 2), (TIM_MCLK_PERIOD, 25000000), (CTB_CTL, 1), (TIM_STR_LANES_LO 0, 1), (TIM_STR_W 0, 100),
  (TIM_STR_D 0, 4096), (TIM_STR_DEPTH 0, 4096), (SLC_LB_SIZE 0, 256)]

/-- No delivering subscription's t_deliver rises. -/
theorem ready_raises : ready.raisesDelivery 0 = false := by
  have h : ∀ m ∈ List.range 4, (ready.subsOf m subDelivers).any (fun pn => (ready.slotOf pn).isSome) = false := by decide
  rw [State.raisesDelivery, List.any_eq_false]
  intro m hm
  rw [h m hm, Bool.and_false]
  decide

theorem ready_enable : ready.enableCheck 0 = 0 := by
  rw [State.enableCheck, ready_raises]
  decide

theorem witness_stream_enable :
    ready.strEn 0 = false ∧ State.reset.tstate ≠ 2 ∧ State.reset.strEn 0 = false ∧ State.reset.enableCheck 0 ≠ 0 := by decide

/-- The stream runs and has been told to stop at tick 100. -/
def stopping : State := (ready.wr (TIM_STR_CTL 0) 3).withStreams [(0, { stopEnd := some 100 })]

theorem witness_stream_stop :
    (ready.wr (TIM_STR_CTL 0) 1).strEn 0 = true ∧ ((ready.wr (TIM_STR_CTL 0) 1).stream 0).stopEnd = none ∧
    (ready.wr (TIM_STR_CTL 0) 1).canonical = true ∧ stopping.strEn 0 = true ∧ (stopping.stream 0).stopEnd = some 100 ∧
    stopping.time.tick < 100 ∧ stopping.time.tick < 100 + stopping.strD 0 := by decide

/-- The same at tick 5000. -/
def stopped : State := (stopping.withTime { tick := 5000 }).withStreams [(0, { stopEnd := some 100, out := 2 })]

theorem witness_stop_end :
    (stopped.stream 0).stopEnd = some 100 ∧ 100 + stopped.strD 0 ≤ stopped.time.tick ∧ 100 < stopped.sliceEnd 0 (stopped.stream 0).out ∧
    100 ≤ stopped.time.tick := by decide

/-- A running stream with its first slice sealed. -/
def sealed : State := ((ready.wr (TIM_STR_CTL 0) 1).withTime { tick := 200 }).withStreams [(0, { next := 1, recs := [(0, { sealed := true })] })]

theorem witness_seal :
    sealed.strEn 0 = true ∧ (sealed.stream 0).stopEnd = none ∧ sealed.closeT 0 0 ≤ sealed.time.tick * 16 ∧
    State.reset.time.tick * 16 < ready.closeT 0 (ready.stream 0).next ∧ sealed.dirPinned 0 0 = false ∧
    (sealed.stream 0).recs.find? (fun e => e.2.sealed && !e.2.merged) = some (0, { sealed := true }) := by decide

theorem witness_capture :
    sealed.strEn 0 = true ∧ (sealed.stream 0).cap < (sealed.stream 0).next ∧ sealed.sliceEnd 0 0 + sealed.floor 0 ≤ sealed.time.tick + cutC sealed.period := by
  decide

theorem witness_decision :
    sealed.time.tick < sealed.cutTick 0 (sealed.stream 0).cut ∧ (sealed.withTime { tick := 4300 }).cutTick 0 0 ≤ 4300 ∧
    sealed.readout.powerFail = none ∧ sealed.time.tick + 1 < sealed.sliceEnd 0 (sealed.stream 0).out + sealed.strD 0 ∧
    ((sealed.withTime { tick := 4300 }).sliceEnd 0 0) + sealed.strD 0 ≤ 4301 := by decide

/-- Partition 1 runs with an enabled delivering subscription to stream 0 that waits for a notice. -/
def notified : State := (sealed.wr (PRT_STATE 1) 2).withSubs [(1, { flits := [({ stream := 0, k := 0, fin := 100, hold := false, corr := false, lbloss := false, absent := 0, serial := 0, subs := [] }, { pn := 1, refused := 0, full := false })] })]

theorem witness_delivery :
    notified.pstate 1 = 2 ∧ (notified.sub 1).flits.length = 1 ∧ emptyWay ((notified.sub 1).entries.map (·.slot)) (notified.subQd 1) = some 0 := by
  decide

theorem witness_subscriptions :
    (at' [(SLC_SUB_CTL 1, 0x80000000)]).subEn 1 = true ∧ State.reset.subEn 1 = false ∧ (State.reset.subCheck 1 0x80000000) = stState ∧
    (at' [(PRT_STATE 1, 1)]).subCheck 1 0x80000000 = 0 ∧ (State.reset.pstate 1 ≠ 1 ∧ State.reset.pstate 1 ≠ 2) := by decide

theorem witness_slots :
    bit ((at' [(DCF_SLOT_CTL 3, 0x80010000)]).rd (DCF_SLOT_CTL 3)) 31 = true ∧ (at' [(DCF_SLOT_CTL 3, 0x80010000)]).slotOf 1 = some 3 ∧
    (at' [(SLC_SUB_CTL 1, 0xC0000000), (PRT_STATE 1, 2)]).slotOf 1 = none ∧ (at' [(SLC_SUB_CTL 1, 0xC0000000), (PRT_STATE 1, 2)]).permits 1 = true := by
  decide

theorem witness_lane_states :
    State.reset.lstate 0 = 0 ∧ (at' [(FEL_STAT 0, 4)]).lstate 0 = 4 ∧ (at' [(FEL_STAT 0, 5), (FEL_CTL 0, 9)]).lstate 0 = 5 ∧
    (at' [(FEL_STAT 0, 5), (FEL_CTL 0, 9)]).fbit (FEL_CTL 0) 3 = true ∧ ((at' [(FEL_STAT 0, 6)]).withLanes [(0, { checking := true })]).lstate 0 = 6 := by
  decide

/-- Lane 0 in UP with an open frame of one hit that waits for a sample block. -/
def framed : State := (at' [(FEL_STAT 0, 4), (TIM_STATE, 2)]).withLanes [(0, { frame := some { base := 0, timed := true, hits := 1, crc := 0, span := none, cur := some (1, 1, []) } })]

theorem witness_lane_receive :
    framed.lstate 0 = 4 ∧ ((framed.header 0 false).lane 0).discard = false ∧ ((framed.header 0 false).lane 0).frame ≠ none ∧
    (((at' [(FEL_STAT 0, 4)]).header 0 false).lane 0).frame = none ∧ baseDelta 0 0 ≤ (framed.fget FEL_AHEAD 0 16 * 16 : Int) := by decide

theorem witness_lane_transmit :
    (at' [(FEL_STAT 0, 4), (FEL_TXSTAT 0, 0x100)]).fbit (FEL_TXSTAT 0) 8 = true ∧ State.reset.swcmd = none ∧
    (State.reset.withSwcmd (some { arg := 1, mask := 1, written := 0, tick := 1 })).swcmd ≠ none ∧ State.reset.time.cmdTick ≠ some (State.reset.time.tick + 1) := by
  decide

theorem witness_lane_control :
    State.reset.underTest (106 + 0) = false ∧ bit ((at' [(FEL_CTL 0, 1)]).rd (FEL_CTL 0)) 0 = true ∧ bits 4 1 2 = 2 ∧
    bit (State.reset.rd (FEL_CTL 0)) 0 = false ∧ (State.reset.withTest (some (.unit, 106))).underTest 106 = true := by decide

/-! ## Witnesses: channel processor and cores -/

/-- A channel processor that is on, with 16 channels and channel 3 of lane 0 in its cache. -/
def channels : State := ((at' [(CTB_CTL, 1), (CTB_NCHAN, 16)]).setBank 0 { entries := [(24, { cn := 3, image := 0, poisoned := false })] }).setLane 0
  { entryq := [{ lane := 0, word := 0xC00000000000, ts := 0, samples := [] }] }

theorem witness_hit_lookup :
    (channels.lane 0).entryq.length = 1 ∧ channels.fbit CTB_CTL 0 = true ∧ State.reset.fbit CTB_CTL 0 = false ∧
    channels.fget CTB_NCHAN 0 19 = 16 ∧ ((channels.bank 0).find 3).isSome = true ∧ (channels.bank 0).find 4 = none := by decide

/-- A bank with no free fill slot. -/
def fullBank : Bank := { fills := (List.range 16).map (fun i => (i, { cn := i, hit := { lane := 0, word := 0, ts := 0, samples := [] }, joined := [], fetches := 1, waiting := false, stale := false })) }

theorem witness_cache_miss :
    (State.reset.bank 0).fillOf 3 = none ∧ (State.reset.bank 0).freeSlot = some 0 ∧ fullBank.freeSlot = none ∧ fullBank.missStore < 256 ∧
    256 ≤ ({ fullBank with waiting := List.replicate 256 { lane := 0, word := 0x100, ts := 0, samples := [] } }).missStore ∧
    (tabFind fullBank.fills 2).isSome = true ∧
    descCause 0 0 true = 6 := by decide

theorem witness_channel_control :
    bit 1 0 = true ∧ State.reset.fbit CTB_CTL 0 = false ∧ (at' [(CTB_CTL, 1)]).fbit CTB_CTL 0 = true ∧
    hbmSize < (at' [(CTB_BASE_HI, 8), (CTB_NCHAN, 1)]).rd64 CTB_BASE_LO + 64 * (at' [(CTB_BASE_HI, 8), (CTB_NCHAN, 1)]).fget CTB_NCHAN 0 19 ∧
    State.reset.unassigned 0 64 = true ∧ (ready.wr (TIM_STR_CTL 0) 1).enabledStreams ≠ [] := by decide

theorem witness_invalidation :
    State.reset.chan.inv = none ∧ (State.reset.withChan { inv := some { lo := 0, hi := 3 } }).chan.inv ≠ none ∧
    channels.fget CTB_INV_LO 0 18 < channels.fget CTB_NCHAN 0 19 ∧
    (at' [(CTB_INV_LO, 5), (CTB_INV_HI, 3)]).fget CTB_INV_HI 0 18 < (at' [(CTB_INV_LO, 5), (CTB_INV_HI, 3)]).fget CTB_INV_LO 0 18 := by decide

/-- The key table moved from page 0 to page 1. -/
def keysMoved : State := at' [(SEC_KTAB_LO, 0x200000)]

/-- Core 0, in Monitor mode at address 0, executes an instruction of 4 or 8 bytes. -/
theorem witness_runs : keysMoved.issues 0 = true ∧ keysMoved.fetchTrap 0 4 = none ∧ keysMoved.fetchTrap 0 8 = none ∧ keysMoved.up := by
  refine ⟨by decide, by decide, by decide, rfl, rfl⟩

/-- Core 0 in User mode. -/
def userCore : State := State.reset.setCore 0 { arch := { mode := .user } }
/-- Core 0 with an 8 KiB step of local memory converted. -/
def localCore : State := at' [(MEM_C_L1CFG 0, 0x11)]
/-- Core 0 with a device store at the front of its store buffer. -/
def storing : State := State.reset.setCore 0 { sb := [{ ty := .device, op := .data, pa := 0xF000000000, va := 0xF000000000, bytes := [some 1, some 0, some 0, some 0], mode := .monitor, pn := 0, epoch := 0 }] }

/-- A Monitor access to HBM outside the key table passes. -/
theorem monitor_access (need : Need) (a n : Nat) (h : a < 0x800000000) (hn : a % n = 0) (s : State)
    (h0 : (s.core 0).arch.mode = .monitor) (hk : s.keyPage a = false) :
    s.check 0 need a n = .ok (if s.monUncached a then .uncached else .cacheable) a := by
  have hr : region a = .hbm := by rw [region, if_pos h]
  simp [State.check, h0, hr, hn, State.hbmCheck, hk, privFault]

theorem witness_hbm_accesses :
    keysMoved.check 0 .read 0x1000 8 = .ok .cacheable 0x1000 ∧ keysMoved.check 0 .exec 0x40 64 = .ok .cacheable 0x40 ∧
    (at' [(SEC_KTAB_LO, 0x200000), (MEM_MONUC 0, 0x80000000)]).check 0 .both 0 4 = .ok .uncached 0 := by
  refine ⟨?_, ?_, ?_⟩ <;> rw [monitor_access _ _ _ (by decide) (by decide) _ (by decide) (by decide)] <;>
    exact congrArg (fun t => Check.ok t _) (by decide)

theorem witness_accesses :
    State.reset.check 0 .read 0x1001 8 = .trap 0x03 State.reset ∧
    localCore.check 0 .both 0xE000000000 8 = .ok .loc 0xE000000000 ∧ localCore.check 0 .write 0xE000008000 1 = .ok .loc 0xE000008000 ∧
    State.reset.check 0 .read 0xF000000000 4 = .ok .device 0xF000000000 ∧
    privFault .user (region 0xF000000000) = true ∧ region 0xF800000000 = .window ∧ region 0x1000 = .hbm := by
  refine ⟨?_, ?_, ?_, ?_, ?_, ?_, ?_⟩ <;> rfl

theorem witness_memory_fields :
    memLoadOk { ra := 2, am := 0, ms := 0, ofs := 0 } 1 = true ∧ memLoadOk { ra := 2, am := 1, ms := 0, ofs := 0 } 2 = false ∧
    memOk { ra := 2, am := 1, ms := 3, ofs := 0 } = false ∧ State.reset.forwarded 0 .cacheable 0x1000 8 = false ∧
    State.reset.poisoned 0 .cacheable 0 = false ∧ (State.reset.withPoison [0]).poisoned 0 .cacheable 0 = true ∧
    (State.reset.flushQueues 0).hold = none ∧ (State.reset.flushQueues 0).issues 0 = true := by decide

theorem witness_store_drain :
    State.reset.dstate 0 = 0 ∧ (storing.core 0).sb.length = 1 ∧ storing.devGone 0xF000000000 = false ∧ (State.reset.core 0).preq.length < 16 ∧
    storing.canonical = true ∧ (at' [(PWR_D_ST 0, 1)]).dstate 0 = 1 ∧ State.reset.fbit (MEM_C_SERR_HI 0) 31 = false := by decide

theorem witness_user_fetch : userCore.xlate 0 0 = .fault ∧ userCore.fetchTrap 0 4 ≠ none ∧ pagePermits 0 .user .read = false := by decide

/-! ## Witnesses: system instructions, windows, retry, sparing -/

theorem witness_traps :
    decodeWords 0 0 0 = none ∧ (userCore.core 0).arch.mode = .user ∧ ({ mode := .supervisor } : Arch).csrf 0x401 1 1 = 0 ∧
    ({ mode := .supervisor, csr := [(0x401, 2)] } : Arch).csrf 0x401 1 1 = 1 ∧ ({ csr := [(0x806, 0x2000)] } : Arch).csrf 0x806 0x0D 1 = 1 ∧
    ({ csr := [(0x800, 0x60)] } : Arch).csrf 0x800 5 2 ≤ Mode.code .monitor ∧ ({ csr := [(0x800, 0xE00)] } : Arch).csrf 0x800 9 3 = 7 ∧
    tabSorted ([(0x401, 2)] : Tab Word) = true := by decide

theorem witness_csr :
    csrDefined 0x700 = false ∧ csrDefined 0x800 = true ∧ csrAllowed .user 0x800 = false ∧ csrAllowed .monitor 0x800 = true ∧
    csrMask 0xC00 = none ∧ csrMask 0x410 ≠ none ∧ csrReserved 0x410 0 = false ∧ csrDefined 0x030 = true ∧ csrDefined 0xC11 = true ∧
    csrAllowed .user 0xC00 = true ∧ State.reset.walk 0 0 = .fault := by decide

/-- A page table at 0x200000 whose first entry is valid and names page 2 of partition 1. -/
def mapped : State := ((at' [(PRT_PTB_LO 1, 0x200000), (PRT_STATE 1, 2)]).hbmWordPut 0x200000 (2 ^ 63 + 7 * 2 ^ 59 + 2 * 2 ^ 21)).withOwners [(2, 1)]

theorem witness_walk : mapped.walk 1 0 = .ok (2 ^ 63 + 7 * 2 ^ 59 + 2 * 2 ^ 21) := by decide

theorem witness_waits :
    State.reset.wfiEnds 0 = false ∧ (State.reset.core 0).wait = .run ∧ State.reset.awake 0 = true ∧ State.reset.deliverable 0 = none ∧
    (State.reset.setCore 0 { errs := [⟨0x100, .monitor, 0, 0⟩] }).wfiEnds 0 = true ∧
    (State.reset.setCore 0 { errs := [⟨0x100, .monitor, 0, 0⟩] }).deliverable 0 = some (.monitor, false, 0x0A, 0x100) := by decide

/-- Core 0 runs partition 1, whose delivering subscription holds a notice for slice 0. -/
def noticed : State := ((at' [(PRT_STATE 1, 2), (SLC_SUB_CTL 1, 0xC0000000)]).setCore 0 { pn := 1 }).withSubs
  [(1, { entries := [{ slot := 0, sn := 0, words := [5, 6, 7, 8], takenBy := none }] })]

theorem witness_notice :
    noticed.agentNo 0 = some 0 ∧ (noticed.core 0).epoch = noticed.epoch 1 ∧ bit (noticed.rd (SLC_SUB_CTL 1)) 31 = true ∧
    subDelivers (noticed.rd (SLC_SUB_CTL 1)) = true ∧ noticed.pstate 1 = 2 ∧ noticed.subCl 1 = 0 ∧ noticed.subEn 1 = true ∧
    slgetOk 4 = true ∧ slgetOk 5 = false ∧
    firstIdx (fun (q : QEntry) => q.takenBy.isNone) 0 (noticed.sub 1).entries = some (0, { slot := 0, sn := 0, words := [5, 6, 7, 8], takenBy := none }) := by
  decide

theorem witness_taken :
    tabFind (noticed.withTaken [(1, { pn := 1, sn := 0, stream := 0, cutoff := 90, held := true, warned := false })]).taken (0 * 2048 + 1) ≠ none ∧
    tabFind noticed.taken (0 * 2048 + 1) = none ∧ ({ csr := [(0x400, 8), (0x409, 20)] } : Arch).csrf 0x400 3 1 = 1 ∧
    ({ csr := [(0x400, 8), (0x409, 20)] } : Arch).csrf 0x409 0 12 = 20 := by decide

/-- Cluster 0 holds line 5 in its L2, shared by nobody. -/
def cached : State := (at' [(MEM_C_L1CFG 0, 1)]).setCluster 0 { l2 := [(5, { way := 0, data := [], dirty := false, sharers := 0, owner := none, poisoned := false })] }

theorem witness_coherence :
    cached.agent 0 = true ∧ cached.l1den 0 = true ∧ (cached.l2Line 0 5).isSome = true ∧ (at' [(MEM_C_L1CFG 0, 0)]).l1den 0 = false ∧
    State.reset.agent 1 = false ∧ (∀ x ∈ State.reset.clusters, x.2.l2 = []) ∧ cached.canonical = true := by decide

theorem witness_l1_configuration :
    (State.reset.core 0).change = none ∧ bits 0x11 4 2 ≠ State.reset.lmw 0 ∧ State.reset.ilock 0 = 0 ∧ State.reset.rd (MEM_C_ILBASE_HI 0) < 8 ∧
    ((State.reset.setCore 0 { change := some { cfg := 0, reload := false } }).core 0).change = some { cfg := 0, reload := false } ∧ State.reset.canonical = true := by decide

theorem witness_held_regions :
    State.reset.fbit (MEM_CL_HOLD_ST 0) 8 = false ∧ (at' [(MEM_CL_HOLD_ST 0, 0x100)]).fbit (MEM_CL_HOLD_ST 0) 8 = true ∧
    (State.reset.cluster 0).roomFor { line := 0, lines := 1, loaded := false, ring := none } = true ∧
    (∀ q ∈ (State.reset.cluster 0).held, q.line ≠ 0) ∧ (State.reset.cluster 0).holdCmd = none := by decide

theorem witness_commit_and_mirror :
    (State.reset.core 0).attempt = 0 ∧ (State.reset.core 0).preq = [] ∧ (State.reset.setCore 0 { arch := { pc := 4 } }).agent 0 = true ∧
    ((State.reset.setCore 0 { arch := { pc := 4 } }).core 0).arch.pc ≠ 0 ∧ (State.reset.lp 0).closed = none ∧
    ((State.reset.setLp 0 { mirror := some { sl := some ({}, 0) } }).lp 0).mirror = some { sl := some ({}, 0) } ∧ State.reset.lclOf 0 = some 0 ∧
    State.reset.lclOf 8 = none := by decide

theorem witness_windows :
    State.reset.ppOf 0 = some 0 ∧ State.reset.running 0 = true ∧ State.reset.lpState 0 = 0 ∧ State.reset.windowPn 0 = (State.reset.lp 0).cur ∧
    (State.reset.setLp 0 { cur := some 5 }).windowPn 0 ≠ ((State.reset.setLp 0 { cur := some 5 }).lp 0).cur ∧
    State.reset.cbank 0 = 0 ∧ (at' [(CLU_LP_WCTL 0, 1)]).fget (CLU_LP_WCTL 0) 0 1 = 1 ∧ majorFrame (State.reset.windows 0 0) = 0 ∧
    (at' [(CLU_LP_WCTL 0, 1)]).quotaOk 0 1 = true ∧ (at' [(PWR_D_ST 0, 3)]).running 0 = false := by decide

theorem witness_retry :
    State.reset.compares 0 = true ∧ State.reset.compares 8 = false ∧ (State.reset.core 0).attempt = 0 ∧
    ((State.reset.setCore 0 { attempt := 3 }).core 0).attempt = 3 ∧ State.reset.fbit (PAI_INJ 0) 1 = false ∧ State.reset.role 0 = 0 := by decide

theorem witness_takeover :
    (State.reset.lp 0).tk = none ∧ ((at' [(PWR_D_ST 8, 0)]).setLp 0 { tk := some 8 }).running 8 = true ∧ State.reset.fget (CLU_ST 0) 8 2 = 0 ∧
    (at' [(CLU_ST 0, 0x100)]).fget (CLU_ST 0) 8 2 ≠ 0 ∧ State.reset.reserveOf 0 = some 8 := by decide

theorem witness_cluster_commands :
    State.reset.fbit (CLU_CMD_ST 0) 8 = false ∧ State.reset.ppOf 0 = some 0 ∧ State.reset.lpState 0 = 0 ∧ State.reset.underTest 0 = false ∧
    State.reset.lpSplit 0 = false ∧ State.reset.pend 0 % 4 = 0 ∧ (at' [(CLU_CTL 0, 1)]).fbit (CLU_CTL 0) 0 = true ∧
    State.reset.paiRefused 0 = 0 ∧ State.reset.tokenFor 3 = false := by decide

theorem witness_rotation :
    (at' [(CLU_SPCFG, 0)]).fbit CLU_SPCFG 31 = false ∧ (at' [(CLU_SPCFG, 0x80000000)]).fbit CLU_SPCFG 31 = true ∧ State.reset.lcs = 3 ∧
    State.reset.role 8 = 1 ∧ State.reset.takeoverIn 0 = false ∧ State.reset.underTest 8 = false ∧
    (State.reset.setPair 8 4 false none).role 8 = 4 ∧ (State.reset.setPair 72 3 false none).role 72 = 3 := by decide

/-- At reset the load of a pair is short enough in either speed grade; in the slower one it is too long with everything converted and
locked. -/
theorem witness_load_time :
    State.reset.loadTooLong 0 = false ∧ (Config.speedF = false → (at' [(MEM_C_L1CFG 0, 0x330)]).loadTooLong 0 = true) := by
  constructor <;> rw [State.loadTooLong, cclkNom] <;> cases Config.speedF <;> decide

/-! ## Witnesses: readout -/

/-- Subchannel 0 belongs to partition 1, loaded and enabled; the partition runs, CHS_CTL.EN = 1. -/
def subchannel : State := ((at' [(PRT_STATE 1, 2), (CHS_CTL, 1), (CHS_P_RDSC 1, 0), (CHS_P_TAGLIM 1, 8)]).withReadout
  { progs := [0], subch := [(0, { owner := some 1, state := 2, loaded := true, window := [{ psn := 0, tag := 0, ofs := 0, bytes := [], first := true, last := true }] })] }).withCreq
  [{ stream := 0, k := 0, fin := 100, left := [1, 2] }]

theorem witness_chs_open :
    State.reset.fbit (chsStReg .mgr) 8 = false ∧ State.reset.fbit (chsStReg (.part 1)) 8 = false ∧ State.reset.pstate 1 ≠ 3 ∧
    (at' [(CHS_CMD_ST, 0x100)]).fbit CHS_CMD_ST 8 = true ∧ (at' [(PRT_STATE 1, 3)]).pstate 1 = 3 ∧ State.reset.fbit CHS_ST 16 = false ∧
    (at' [(CHS_ST, 0x10000)]).fbit CHS_ST 16 = true := by decide

theorem witness_subchannels :
    (State.reset.subch 0).state = 0 ∧ (subchannel.subch 0).state = 2 ∧ subchannel.scBusy 0 = false ∧ subchannel.ownsSc 1 0 = true ∧
    subchannel.ownsSc 2 0 = false ∧ subchannel.keyLoaded 1 0 = false ∧ subchannel.rngFail = false ∧
    subchannel.ownsSlot 1 0 = false ∧ progCheck [] ≠ 0 := by decide

theorem witness_creation :
    (subchannel.creq.map (·.left)) = [[1, 2]] ∧ subchannel.pstate 1 = 2 ∧ subchannel.fbit CHS_CTL 0 = true ∧ (subchannel.subch 0).owner = some 1 ∧
    subchannel.tagUse 1 < subchannel.fget (CHS_P_TAGLIM 1) 0 13 ∧ subchannel.tagTaken 0 = false ∧ State.reset.creq = [] ∧
    (subchannel.fget (CHS_P_RDSC 1) 0 15 + snOf 0 % (subchannel.fget (CHS_P_RDSC 1) 16 6 + 1)) % 32768 = 0 := by decide

/-- A transaction of tag 0 in some phase on engine 0. -/
def withTxn (p : Phase) : State := subchannel.setTxn 0
  { pn := 1, epoch := 0, gen := 0, scn := 0, stream := 0, k := 0, fin := 100, rseq := 0, order := 0, phase := p, engine := some 0 }

theorem witness_transactions :
    ((withTxn .queued).txn 0).isSome = true ∧ State.reset.txn 0 = none ∧ (withTxn .gather).pickEngine none ≠ none ∧
    ((withTxn .gather).readout.txns.filter (fun x => x.2.engine == some 0 && (x.2.phase == .gather || x.2.phase == .sealing))).length = 1 ∧
    State.reset.cmpState 0 ≠ 3 ∧ (at' [(CMP_ST 0, 0x30000)]).cmpState 0 = 3 := by decide

theorem witness_delivery_to_hosts :
    subchannel.dbPermits (.vf 1) 0 = true ∧ subchannel.dbPermits (.vf 2) 0 = false ∧ (subchannel.hbmWordPut 0 (2 ^ 60)).scPcie 0 = true ∧ subchannel.scPcie 0 = false ∧
    State.reset.readout.txns = [] ∧ State.reset.fget (CHS_P_LOSS 1) 16 7 = 0 ∧ (at' [(CHS_P_LOSS 1, 0x10000)]).fget (CHS_P_LOSS 1) 16 7 = 1 := by
  decide

theorem witness_readout_controls :
    State.reset.fbit CHS_CTL 0 = false ∧ State.reset.fbit CHS_ST 16 = false ∧ bits 1 0 1 = 1 ∧ State.reset.fbit (WRR_CTL 0) 0 = false ∧
    (at' [(CMP_ST 0, 0x20000)]).cmpState 0 = 2 ∧ (at' [(CMP_ST 0, 0x40000)]).cmpState 0 = 4 ∧ State.reset.fbit (CMP_CTL 1) 0 = true := by decide

theorem witness_reliable_readout :
    (subchannel.subch 0).short = none ∧ (subchannel.subch 0).window.length = 1 ∧ subchannel.epoch 1 = 0 ∧
    (subchannel.setSubch 0 { owner := some 1, state := 3, loaded := true, short := some 1 }).subch 0 ≠ {} ∧
    (at' [(WRR_CTL 0, 8)]).fbit (WRR_CTL 0) 3 = true := by decide

/-- The coding of the variant of configuration A in R347, and of the DIR section's sixteen zero words. -/
theorem test_run_length :
    encodeRle 13 [] [0x0010, 0, 0, 0x0400, 0x1100, 0x428F, 0x000D, 0x61A8, 0x0095, 0x0011, 0x28A1, 0x0AFF] =
      [0x0000, 0x0010, 0x4001, 0x0008, 0x0400, 0x1100, 0x428F, 0x000D, 0x61A8, 0x0095, 0x0011, 0x28A1, 0x0AFF] ∧
    encodeRle 17 [] (List.replicate 16 0) = [0x400F] := by decide

/-! ## Witnesses: power and self-test -/

theorem witness_domains :
    State.reset.dphase 0 = 0 ∧ (at' [(PWR_D_ST 0, 0x10)]).dphase 0 = 1 ∧ (at' [(PWR_D_ST 0, 0x20)]).dphase 0 = 2 ∧ (at' [(PWR_D_ST 0, 0x30)]).dphase 0 = 3 ∧
    ((State.reset.setDom 0 { aim := 3 }).dom 0).aim = 3 ∧ State.reset.dstate 120 = 3 ∧ State.reset.fbit (PAI_DBG_CTL 0) 0 = false ∧
    State.reset.dstate 0 < State.reset.target 0 ∧ (State.reset.setDom 120 { latch := [1] }).target 120 < State.reset.dstate 120 := by decide

theorem witness_votes :
    State.reset.underTest 0 = false ∧ (State.reset.withTest (some (.unit, 5))).underTest 5 = true ∧ State.reset.wakeOn 0 0 = true ∧
    wakeSources 0 = 5 ∧ wakeSources 120 = 2 ∧ (at' [(PWR_D_WAKEEN 0, 0)]).wakeOn 0 0 = false := by decide

/-- Logical pair 0 with two windows of one tick, the second partition 1's, which runs; its pair dozes. -/
def windowed : State := at' [(PRT_STATE 1, 2), (CLU_WT_HI 0 0 0, 0xC0000000), (CLU_WT_HI 0 0 1, 0x80010000), (PWR_D_ST 0, 1)]

theorem witness_tests :
    State.reset.fbit BST_CMD_ST 8 = false ∧ analogTarget 0xC0 = true ∧ analogTarget 0xBF = false ∧ State.reset.lcs = 3 ∧
    (at' [(SEC_LC, 0)]).lcs = 0 ∧ State.reset.test = none ∧ State.reset.cmpOcc 0 = 0 ∧ State.reset.unitInService 0 = true ∧
    State.reset.unitInService 8 = false ∧ (at' [(BST_CTL, 0x10000)]).fbit BST_CTL 16 = true ∧
    tabFind State.reset.mgmt.anaFail 0xC0 = none ∧ State.reset.nextEngine = some 0 := by decide

theorem witness_early_exit :
    windowed.lpOf 0 = some 0 ∧ windowed.windowNow 0 = some (0, 1) ∧ windowed.dstate 0 = 1 ∧
    windowed.toRunning ((windowed.windows 0 (windowed.cbank 0)).drop 1 ++ (windowed.windows 0 (windowed.cbank 0)).take 1) 1 = some 1 := by decide

/-! ## Witnesses: security -/

/-- A command of an operation, its argument empty. -/
def run (op : Nat) : SecRun := { op := op, pn := 1, keyid := 0, scope := false, confirm := 0, tgt := 0, arg := some [], out := 0, epoch := 0 }

/-- The controller serves a command of the manager. -/
def serving (r : SecRun) : State := State.reset.withSec { State.reset.sec with serving := some 0, runs := [(0, r)] }

theorem witness_sec_starts :
    State.reset.fbit (secStReg 0) 8 = false ∧ (at' [(SEC_CMD_ST, 0x100)]).fbit (secStReg 0) 8 = true ∧ State.reset.fbit (secStReg 2) 8 = false ∧
    (at' [(PRT_SEC_CMD_ST 1, 0x100)]).fbit (secStReg 2) 8 = true := by decide

theorem witness_serving :
    (serving (run 16)).sec.serving = some 0 ∧ tabFind (serving (run 16)).sec.runs 0 = some (run 16) ∧
    State.reset.lcs = 3 ∧ secIssuer 16 true = true ∧ 3 ∈ secStates 16 ∧ State.reset.sec.worn = false ∧ State.reset.pstate 1 ≠ 3 := by decide

theorem witness_sec_refusals :
    secIssuer 17 false = false ∧ secIssuer 1 true = false ∧ secIssuer 1 false = true ∧ 3 ∉ secStates 17 ∧ 3 ∈ secStates 1 ∧
    (at' [(PRT_STATE 1, 3)]).pstate 1 = 3 ∧ (at' [(SEC_RNG, 2)]).rngFail = true ∧ State.reset.rngFail = false ∧
    (State.reset.withSec { State.reset.sec with worn := true }).sec.worn = true := by decide

theorem witness_keys :
    State.reset.keySlot 1 0 = .empty ∧ (State.reset.setKeySlot 1 0 (.loaded [])).keySlot 1 0 = .loaded [] ∧
    (State.reset.setKeySlot 1 0 (.offered [1] 0)).keySlot 1 0 = .offered [1] 0 ∧ (State.reset.setKeySlot 1 0 (.loaded [])).keyLoaded 1 0 = true ∧
    State.reset.epoch 1 = 0 ∧ tabFind State.reset.sec.tokens 1 = none ∧ allZero (List.replicate 16 0) = true ∧
    State.reset.secArea 0 60 0 16 = some [(0, 16)] ∧ State.reset.secArea 0 60 (2 ^ 35) 16 = none ∧ State.reset.secOut 0 (run 6) = some [] := by decide

/-- Partition 1 has a token of key slot 0 that expires after tick 99; pair 0 is traced. -/
def traced : State := (at' [(PAI_TRC_CTL 0, 0x80000001)]).withSec
  { State.reset.sec with tokens := [(1, { epoch := 0, body := List.replicate 16 0 ++ leBytes 8 (99 * 16) ++ List.replicate 40 0 })] }

theorem witness_tokens :
    tabFind traced.sec.tokens 1 ≠ none ∧ tabFind traced.sec.tokens 2 = none ∧ tabSorted traced.sec.tokens = true ∧ traced.canonical = true ∧
    traced.fbit (PAI_TRC_CTL 0) 31 = true ∧ traced.fget (PAI_TRC_CTL 0) 0 11 = 1 ∧ traced.time.tick ≤ 99 ∧ traced.sec.tokens.length < 64 ∧
    bits (wordAt (List.replicate 16 0 ++ leBytes 8 (99 * 16)) 16) 4 60 = 99 ∧ traced.keyLoaded 1 0 = false := by decide

theorem witness_identity_commands : State.reset.sec.svns.getD 0 0 < 64 ∧ 17 ∈ [16, 17, 18, 20] ∧ 1 ∈ secStates 18 ∧ 3 ∈ secStates 20 := by decide

theorem witness_life_cycle :
    (at' [(SEC_LC, 1)]).lcs = 1 ∧ (at' [(SEC_LC, 2)]).lcs = 2 ∧ (at' [(SEC_LC, 0x202)]).fbit SEC_LC 9 = true ∧ (at' [(SEC_LC, 2)]).fbit SEC_LC 9 = false ∧
    (at' [(SEC_LC, 4)]).lcs = 4 ∧ (3, 5) ∈ [(1, 2), (2, 3), (3, 4), (3, 5), (4, 5)] ∧ (2, 4) ∉ [(1, 2), (2, 3), (3, 4), (3, 5), (4, 5)] ∧
    State.reset.pstate 1 = 0 ∧ (at' [(PRT_STATE 1, 1)]).pstate 1 ≠ 0 ∧ secIssuer 19 true = true ∧ 3 ∈ secStates 19 := by decide

theorem witness_service_order :
    ({ runs := [(0, run 16), (3, run 1)], afterMgr := true } : SecSt).next = some 3 ∧
    ({ runs := [(0, run 16), (3, run 1)] } : SecSt).next = some 0 ∧ ({ runs := [(2, run 1), (5, run 1)], lastPn := 1 } : SecSt).next = some 5 ∧
    ({ runs := [(2, run 1), (5, run 1)], lastPn := 4 } : SecSt).next = some 2 := by decide

/-! ## Witnesses: partitions -/

/-- Partition 1 with a command in progress. -/
def commanded (op pst : Nat) : State := (at' [(PRT_STATE 1, pst), (PRT_CMD_ST 1, 0x10000)]).setPart 1 { cmd := some (op, 0) }

theorem witness_partition_idle :
    State.reset.fbit (PRT_CMD_ST 1) 16 = false ∧ (State.reset.part 1).flr = 0 ∧ State.reset.pstate 1 = 0 ∧
    (at' [(PRT_STATE 1, 1)]).pstate 1 = 1 ∧ (at' [(PRT_STATE 1, 2)]).pstate 1 = 2 ∧ (commanded 2 1).fbit (PRT_CMD_ST 1) 16 = true ∧
    (State.reset.setPart 1 { flr := 1 }).part 1 ≠ {} := by decide

theorem witness_partition_life :
    (at' [(PRT_QSD 1, 0x100000)]).fget (PRT_QSD 1) 0 16 = 0 ∧ State.reset.fget (PRT_QSD 1) 0 16 = 1 ∧
    (at' [(PRT_PTB_LO 1, 0x200000)]).pageTable 1 = (0x200000, 131072) ∧ State.reset.unassigned 0x200000 131072 = true ∧
    (State.reset.withOwners [(1, 1)]).unassigned 0x200000 131072 = false ∧ State.reset.holdsOn 1 = false := by decide

theorem witness_pages :
    argFirst 0x00050003 = 3 ∧ argLast 0x00050003 = 5 ∧ (State.reset.withOwners [(3, 1)]).owner 3 = some 1 ∧ State.reset.owner 3 = none ∧
    State.reset.ringOf 1 = none ∧ tabSorted (State.reset.withOwners [(3, 1)]).owners = true ∧ Memory.wf State.reset.hbm = true ∧
    rangesMeet (0, 16) (pageBytes 0 0) = true ∧ rangesMeet (0, 16) (pageBytes 1 1) = false := by decide

/-- The store buffer of core 0 holds a device-region store of partition 1, which quiesces. -/
def lagging : State := (commanded 3 3).setCore 0
  { sb := [{ ty := .device, op := .data, pa := 0xF000000000, va := 0xF000000000, bytes := [some 1], mode := .user, pn := 1, epoch := 0 }] }

theorem witness_partition_ends :
    ((commanded 1 0).part 1).cmd = some (1, 0) ∧ ((commanded 1 0).part 1).flr = 0 ∧ (commanded 2 1).pstate 1 ≠ 2 ∧ (commanded 2 2).pstate 1 = 2 ∧
    ((commanded 3 3).preemptAll 1).quiet 1 = true ∧ (lagging.preemptAll 1).quiet 1 = false ∧
    tabSorted (commanded 1 0).parts = true ∧ (commanded 1 0).canonical = true := by decide

theorem witness_shares :
    shareReserved 0x80000001 .qhbm = true ∧ shareReserved 0x10001 .qhbm = false ∧ shareZero 0x10000 .qhbm = true ∧ shareZero 0x10001 .qhbm = false ∧
    State.reset.classZero 1 = 0 ∧ (commanded 2 1).pstate 1 = 1 ∧ ((commanded 2 1).part 1).cmd.map (·.1) = some 2 := by decide

/-- VF 1 is open: VF Enable of the PF is set. -/
def vfOpened : State := (at' [(PRT_STATE 1, 1)]).withPf { State.reset.pf with vfEnable := true }

theorem witness_vf :
    (State.reset.withPf { State.reset.pf with vfEnable := false }).vfOpen 1 = false ∧ vfOpened.vfOpen 1 = true ∧ (vfOpened.wr (PRT_STATE 1) 0).pstate 1 = 0 ∧ vfOpened.pstate 1 = 1 ∧
    (vfOpened.part 1).flr = 0 ∧ State.reset.livePns = [] ∧ regAt (0x2000000 + 0x1000 + 0xFFC) = none := by decide

theorem witness_flr :
    (State.reset.setPart 1 { flr := 2 }).part 1 = { flr := 2 } ∧ ((State.reset.setPart 1 { flr := 1 }).part 1).flr = 1 ∧
    ((lagging.setPart 1 { flr := 1 }).preemptAll 1).quiet 1 = false ∧ ((commanded 4 1).part 1).cmd = some (4, 0) := by decide

/-! ## Witnesses: resets, boot, mailbox, settings store, SMBus -/

theorem witness_mailbox :
    State.reset.fbit MGT_MBX_ST 8 = false ∧ (at' [(MGT_MBX_ST, 0x100)]).fbit MGT_MBX_ST 8 = true ∧ State.reset.tstate ≠ 1 ∧
    (at' [(MGT_MBX_ARG_LO, 0xA5A5)]).rd64 MGT_MBX_ARG_LO = 0xA5A5 ∧ (at' [(MGT_MBX_ARG2, 0x10000)]).rd MGT_MBX_ARG2 % 65536 = 0 ∧
    State.reset.inBootedSlot 0xFF0000 65536 = false ∧ State.reset.unassigned 0x100 256 = true ∧
    (State.reset.withOwners [(0, 1)]).unassigned 0x100 256 = false ∧ State.reset.lcs ≠ 4 ∧ (at' [(SEC_LC, 4)]).lcs = 4 := by decide

theorem witness_cluster_resets :
    State.reset.fget (CLU_ST 0) 8 2 = 0 ∧ (at' [(CLU_ST 0, 0x100)]).fget (CLU_ST 0) 8 2 = 1 ∧ State.reset.takeoverIn 0 = false ∧
    State.reset.ppOf 9 = some 10 ∧ State.reset.lpState 9 = 0 ∧ (at' [(CLU_LP_MAP 0, 0x40000000)]).lpState 0 = 4 := by decide

theorem witness_resets :
    State.reset.readout.powerFail = none ∧ State.reset.canonical = true ∧ State.reset.lstate 0 ≠ 7 ∧ (at' [(CMP_ST 0, 0x40000)]).cmpState 0 = 4 ∧
    State.reset.nvs.retired = [] ∧ (State.reset.withReadout { powerFail := some 0 }).readout.powerFail ≠ none := by decide

theorem witness_settings_store :
    State.reset.fbit NVS_ST 8 = false ∧ (at' [(NVS_ST, 0x100)]).fbit NVS_ST 8 = true ∧ State.reset.nvs.cmd = none ∧ State.reset.storing = false ∧
    (State.reset.withNvs { State.reset.nvs with cmd := some (true, [1]) }).storing = true ∧
    (at' [(NVS_ST, 0x10000)]).fbit NVS_ST 16 = true ∧ (State.reset.withNvs { State.reset.nvs with wearB := 10 ^ 9 }).nvs.wearB ≥ 10 ^ 9 := by decide

/-- Bank A holds an image of sequence number 7 that the pointer names. -/
def stored : State := State.reset.withNvs { State.reset.nvs with ptr := some (false, 7), bankA := some (7, [1, 2]) }

theorem witness_mount :
    stored.nvs.ptr = some (false, 7) ∧ stored.nvs.torn = false ∧ stored.canonical = true ∧ stored.mount.image = [1, 2] ∧
    (stored.withNvs { stored.nvs with bankA := none, bankB := some (6, [3]) }).mount.image = [3] ∧
    (stored.withNvs { stored.nvs with bankA := none }).mount.image = [] := by decide

theorem witness_smbus :
    State.reset.fbit BST_FAULT 31 = false ∧ (at' [(BST_FAULT, 0x80005010)]).fbit BST_FAULT 31 = true ∧ State.reset.hold = none ∧ State.reset.lcs ≠ 5 ∧
    (State.reset.withHold (some .fault)).hold = some .fault ∧ State.reset.mgmt.smbUnread = 0 ∧ (9 : Nat) ≤ (0x20 : BitVec 8).toNat := by decide

theorem witness_therm :
    sext 16 (State.reset.fget MGT_TEMP 0 16) < sext 16 0x7FF ∧ sext 16 0xFFFF = -1 ∧
    sext 16 ((at' [(MGT_TALARM, 0x100)]).fget MGT_TALARM 0 16) ≤ sext 16 (0x100 : BitVec 16).toNat := by decide

theorem witness_smbus_reset :
    (at' [(MGT_SMB_CFG, 0x1B0)]).fbit MGT_SMB_CFG 8 = true ∧ (at' [(MGT_SMB_CFG, 0xB0)]).fbit MGT_SMB_CFG 8 = false := by
  have h (v : Nat) : (at' [(MGT_SMB_CFG, v)]).rd MGT_SMB_CFG = v % 2 ^ 32 := State.rd_wr_self (State.canonical_regs (by decide)) _ _
  constructor <;> rw [State.fbit, State.fget, h] <;> decide

/-! ## Witnesses: host accesses, pads, rails and clocks -/

theorem witness_pf_access :
    srcReg .pf 0x30010 ≠ none ∧ srcReg .pf 0x3FFFC = none ∧ srcMsix .pf 0x3FFFC = none ∧ State.reset.gated 0x30010 = false ∧
    (srcReg .pf 0x30010).map (·.writable false) = some false ∧ State.reset.mgrCommand 0x30010 0 = none ∧ State.reset.testing 0x20 = false ∧
    (srcReg .pf 0x20).map (·.writable false) = some true ∧ crossReserved 0x20 0 = false := by decide

theorem witness_access_types :
    State.reset.rd MGT_EVT < 512 ∧ (at' [(MGT_EVT, 3)]).rd MGT_EVT = 3 ∧ (⟨0, 8, .rw, .na, []⟩ : Fld).view false = .rw := by decide

theorem witness_command_registers :
    State.reset.testing MGT_MBX_CMD = false ∧ State.reset.testing NVS_CMD = false ∧ State.reset.testing BST_CMD = false ∧
    (0x0508 : Nat) % 65536 = 8 + (5 : BitVec 8).toNat * 256 := by decide

theorem witness_bar2 :
    State.reset.owner 0 = none ∧ (State.reset.withOwners [(0, 1)]).owner 0 = some 1 ∧ State.reset.keyPage 0x200000 = false ∧
    (at' [(SEC_KTAB_LO, 0x200000)]).keyPage 0x200000 = true ∧ Memory.wf State.reset.hbm = true ∧ (0xFF0 : Nat) % 4096 + 16 ≤ 4096 ∧
    (∀ e ∈ State.reset.clusters, e.2.l2 = []) := by decide

theorem witness_error_access : State.reset.halfBad .pf 0x30010 = false ∧ State.reset.halfBad .pf 0x3FFFC = true := by decide

theorem witness_rails :
    State.reset.anySlot = false ∧ (at' [(DCF_SLOTS, 1)]).anySlot = true ∧ State.reset.fget ELC_SSC 0 8 < 5 ∧
    ((State.reset.wr ELC_SSC (2 ^ 16 + 5)).recomputeSubs).floorBroken = false := by decide

theorem witness_ball_groups :
    State.reset.fget (ELC_SBG_OWN 0) 0 2 = 0 ∧ (at' [(ELC_SBG_OWN 0, 1)]).fget (ELC_SBG_OWN 0) 0 2 = 1 ∧ (at' [(SEC_LC, 1)]).lcs = 1 := by decide

theorem witness_boundary_scan : State.reset.por = false ∧ State.reset.hold = none ∧ (State.reset.withPor true).por = true := by decide

theorem witness_held : (State.reset.withHold (some .lifeCycle)).hold ≠ none ∧ ¬Claim.ActsInReset .store := by
  refine ⟨by decide, ?_⟩
  rintro (⟨p, h⟩ | h | h | h | h | h | h | h | h | ⟨d, p, h⟩ | ⟨c, h⟩ | h | h | h | ⟨x, h⟩ | ⟨x, h⟩ | ⟨x, h⟩ | ⟨x, h⟩ | h | h) <;> exact nomatch h

/-! ## Witnesses: where the commands complete -/

/-- Lane 0 in UP, SYNCED, with no frame. -/
def laneUp : State := at' [(FEL_STAT 0, 4), (TIM_STATE, 2)]
/-- Lane 0 in UP with an open frame of no hits. -/
def laneFrame : State := laneUp.withLanes [(0, { frame := some { base := 0, timed := true, hits := 0, crc := crcInit, span := none, cur := none } })]
/-- Lane 0 in UP with a hit of 8 samples, two sample blocks due. -/
def laneSamples : State := laneUp.withLanes [(0, { frame := some { base := 0, timed := true, hits := 1, crc := 0, span := none, cur := some (8, 2, []) } })]
/-- An FEND of no hits whose CRC is right. -/
def fendWord : BitVec 64 := BitVec.ofNat 64 (crcFinal (crcRun crcInit (leBytes 3 0)) * 256)

theorem witness_lane_blocks :
    laneUp.canonical = true ∧ laneUp.lstate 0 = 4 ∧ (laneUp.lane 0).discard = false ∧ (laneUp.lane 0).frame = none ∧ laneUp.tstate = 2 ∧
    baseDelta 0 (laneUp.time.tick * 16) ≤ (laneUp.fget FEL_AHEAD 0 16 * 16 : Int) ∧ rxTypes.contains 1 = false ∧
    laneUp.fbit (FEL_RXSTAT 0) 0 = false ∧ laneUp.fbit (FEL_TXSTAT 0) 8 = false ∧
    ctlCrc 0 [] = bits (BitVec.ofNat 64 (ctlCrc 0 [] * 256)).toNat 8 32 := by decide

theorem witness_lane_frames :
    laneFrame.canonical = true ∧ laneFrame.lstate 0 = 4 ∧ (laneFrame.lane 0).discard = false ∧ bits (0 : BitVec 64).toNat 0 8 = 0 ∧
    crcFinal (crcRun crcInit (leBytes 3 (fendWord.toNat / 2 ^ 40))) = bits fendWord.toNat 8 32 ∧ bits fendWord.toNat 56 8 = 0 ∧
    laneSamples.lstate 0 = 4 ∧ (1 : Nat) < 2 ∧ ([] : List (BitVec 16)).length + 4 < bits (8 : BitVec 64).toNat 0 8 := by decide

/-- A software command of tick 0, 16 ticks later. -/
def swcmdLate : State := (State.reset.withSwcmd (some { arg := 1, mask := 1, written := 0, tick := 1 })).withTime { tick := 16 }

theorem witness_lane_commands :
    swcmdLate.swcmd = some { arg := 1, mask := 1, written := 0, tick := 1 } ∧ 0 + 16 ≤ swcmdLate.time.tick ∧ State.reset.swcmd = none ∧
    (at' [(TIM_STATE, 0x101)]).aligned = true ∧ bits 0 1 2 < 2 ∧ bit (State.reset.rd (FEL_CTL 0)) 0 = false := by decide

theorem witness_lane_training :
    (at' [(FEL_STAT 0, 1)]).lstate 0 = 1 ∧ (at' [(FEL_STAT 0, 2)]).lstate 0 = 2 ∧ (at' [(FEL_STAT 0, 3)]).lstate 0 = 3 ∧
    ((at' [(FEL_STAT 0, 3)]).lane 0).retry = false ∧ ((at' [(FEL_STAT 0, 3)]).lane 0).rtts.length < 15 ∧
    bits (0x2000000000000 : BitVec 64).toNat 48 4 = 2 ∧ bits (0x2000000000000 : BitVec 64).toNat 52 6 = 0 ∧
    ((State.reset.setLane 0 { retry := true }).lane 0).retry = true ∧ trained true (List.replicate 16 (some 5)) = true ∧
    trained true [some 1, some 5] = false := by decide

/-- Channel 3's descriptor, unused and with its CRC, is fetched. -/
def filling : State := (State.reset.hbmWrite 192 (leBytes 64 (crc32c (leBytes 60 3) * (2 ^ 240 * 2 ^ 240) + 3))).setBank 0
  { fills := [(0, { cn := 3, hit := { lane := 0, word := 0, ts := 0, samples := [] }, joined := [], fetches := 0, waiting := false, stale := false })] }

theorem witness_fill :
    tabFind (filling.bank 0).fills 0 ≠ none ∧ filling.descAddr 3 = 192 ∧ filling.isPoison 3 = false ∧ filling.canonical = true ∧
    (∀ g ∈ (filling.bank 0).fills, g.2.cn = 3 → 0 ≤ g.2.born) := by decide

set_option maxRecDepth 200000 in
theorem witness_fill_image :
    descCause 3 (crc32c (leBytes 60 3) * (2 ^ 240 * 2 ^ 240) + 3) false = 0 ∧ ofLe (filling.hbmRead 192 64) = crc32c (leBytes 60 3) * (2 ^ 240 * 2 ^ 240) + 3 := by decide

/-- A seal flit of stream 0 waits at SYS, a mark at engine 0. -/
def flitWaits : State := (sealed.withFabric { seals := [{ stream := 0, k := 0, fin := 100, hold := false, corr := false, lbloss := false, absent := 0, serial := 1, subs := [] }] }).setEng 0 { inMarks := [{ lane := 0, kind := .unresolved, lo := 1, hi := 2 }] }

theorem witness_slice_flow :
    flitWaits.fabric.seals.length = 1 ∧ (flitWaits.eng 0).inMarks.length = 1 ∧ flitWaits.canonical = true ∧
    (sealed.sub 1).since ≤ 1 ∧ (notified.withStreams [(0, { recs := [(0, { sealed := true, merged := true })] })]).up ∧
    ((notified.withStreams [(0, { recs := [(0, { sealed := true, merged := true })] })]).slice 0 0).merged = true :=
  ⟨by decide, by decide, by decide, by decide, ⟨by decide, by decide⟩, by decide⟩

/-- Partition 1 delivers stream 0; engine 2 has a copy to make. -/
def copying : State := (at' [(PRT_STATE 1, 2), (SLC_SUB_CTL 1, 0xC0000001)]).withSubs [(1, { copies := [(0, 0, 2)] })]

theorem witness_hit_copy :
    firstIdx (fun c => c.2.2 == 2) 0 (copying.sub 1).copies = some (0, 0, 0, 2) ∧ copying.copyTurn 1 2 0 = true ∧
    ((copying.withParts [(1, { inArb := true }), (3, { inArb := true, qsd := 0x10001 })]).copyTurn 1 2 0 = true ∨
     (copying.withParts [(1, { inArb := true })]).copyTurn 1 2 0 = true) ∧ takeHits 0 [[1]] = ([], true) ∧
    takeHits 64 [[1]] = ([[1]], false) := by decide

/-- Slot 3 belongs to partition 1 and stream 0, whose slice 0 is captured and decided on when its cut-off comes. -/
def deciding : State := ((at' [(TIM_STATE, 2), (TIM_MCLK_PERIOD, 25000000), (TIM_STR_CTL 0, 1), (TIM_STR_W 0, 100), (TIM_STR_D 0, 4096),
  (PRT_STATE 1, 2), (DCF_SLOT_CTL 3, 0x80010000), (DCF_SLOTS, 1)]).withFabric { ring := [{ pn := 1, epoch := 0, sn := 0, ty := 1 }] }).withStreams
  [(0, { next := 1, cap := 1, recs := [(0, { sealed := true, caps := some [{ slot := 3, pn := 1, veto := false, tmask := 255, dacc := true, dtt := 1, prescale := 0, done := none }] })] })]

theorem witness_decide_arrival :
    deciding.fabric.ring.length = 1 ∧ deciding.slotOf 1 = some 3 ∧ deciding.epoch 1 = 0 ∧ deciding.fget (DCF_SLOT_CTL 3) 28 2 = 0 ∧
    snRel 0 (snOf 0) ≠ .earlier ∧ ((List.range 1).map (0 + ·)).find? (fun k => snOf k == 0) = some 0 ∧
    (firstIdx (fun q => q.slot == 3 && q.pn == 1) 0 ((deciding.slice 0 0).caps.getD [])).isSome = true ∧
    (State.reset.setCluster 0 { decq := [{ pn := 1, epoch := 0, sn := 0, ty := 1 }] }).cluster 0 ≠ {} := by decide

/-- The decision of slice 0 is formed, its word not sent. -/
def decided : State := (deciding.withTime { tick := 4300 }).withStreams
  [(0, { next := 1, cap := 1, cut := 1, recs := [(0, { sealed := true, decided := some (true, 1, false) })] })]

theorem witness_decision_completes :
    deciding.strEn 0 = true ∧ (deciding.withTime { tick := 4300 }).cutTick 0 0 ≤ 4300 ∧ (deciding.stream 0).cut < (deciding.stream 0).cap ∧
    (decided.stream 0).out < (decided.stream 0).cut ∧ (decided.slice 0 0).decided = some (true, 1, false) ∧
    decided.sliceEnd 0 0 + decided.strD 0 ≤ decided.time.tick + 1 := by decide

/-- Core 0 runs partition 1 and waits in an SLGET for the notice there is. -/
def sliceWaits : State := noticed.setCore 0 { pn := 1, wait := .slget 4 }

theorem witness_sliceget_wakes :
    sliceWaits.awake 0 = true ∧ (sliceWaits.core 0).wait = .slget 4 ∧ (sliceWaits.slgetServed 0).2 = .notice [5, 6, 7, 8] ∧
    (sliceWaits.waiters 0 1).length = 1 ∧ noticed.waiters 0 1 = [] ∧ (untaken (noticed.sub 1).entries)[0]?.isSome = true ∧
    (untaken (noticed.sub 1).entries)[1]? = none := by decide

/-- Core 0 holds a notice whose cut-off is near, and warns of it. -/
def warning : State := (((at' [(PRT_STATE 1, 2)]).setCore 0 { pn := 1, arch := { csr := [(0x400, 8), (0x409, 200)] } }).setLp 0 { cur := some 1 }).withTaken
  [(1, { pn := 1, sn := 0, stream := 0, cutoff := 90, held := true, warned := false })]

theorem witness_deadline :
    warning.agentNo 0 = some 0 ∧ warning.curPn 0 = some 1 ∧ tabFind warning.taken (0 * 2048 + 1) ≠ none ∧
    (warning.core 0).arch.csrf 0x400 3 1 = 1 ∧ (90 : Int) - warning.time.tick - 1 ≤ (warning.core 0).arch.csrf 0x409 0 12 ∧
    ((State.reset.setCore 0 { dlines := [7] }).core 0).dlines.head? = some 7 := by decide

/-- Core 0 has asked for line 5; a group of it is closed. -/
def asking : State := cached.setCore 0 { reqs := [(5, { m := true, hbm := false, epoch := 0 })], groups := [{ check := {}, n := 16 }] }

theorem witness_requests :
    tabFind (asking.core 0).reqs 5 ≠ none ∧ cached.dstate (clusterDom 0) = 0 ∧ (cached.core 0).reqs.length < 8 ∧
    (at' [(PWR_D_ST 81, 1)]).dstate (clusterDom 0) ≠ 0 ∧ asking.hbmTurn 0 { m := true, hbm := true, epoch := 0 } = true ∧
    (asking.core 0).groups = [{ check := {}, n := 16 }] ∧ (asking.core 0).preq = [] ∧ asking.fetchLines 0 ≠ [] ∧
    (cached.core 0).overlap .cacheable 0 8 = .none ∧ (storing.core 0).overlap .device 0xF000000000 4 = .all ∧
    (storing.core 0).overlap .device 0xF000000002 4 = .part := by decide

/-- Partition 1's window comes on logical pair 0. -/
def switching : State := at' [(PRT_STATE 1, 2), (CLU_LP_WCTL 0, 0), (CLU_WT_HI 0 0 0, 0x80010000)]

theorem witness_switch :
    (switching.windowStatus 0).windowPn 0 ≠ ((switching.windowStatus 0).lp 0).cur ∧ (switching.windowStatus 0).running 0 = true ∧
    ((switching.windowStatus 0).commitPair 0).uncommitted 0 = false ∧ ((switching.wr (PWR_D_ST 8) 0).setLp 0 { tk := some 8 }).running 8 = true ∧
    (State.reset.setLp 0 { closed := some { log := [], n := 0, arch := {}, sl := none, pn := 0 } }).lp 0 ≠ {} ∧
    (at' [(CLU_CTL 0, 1)]).mirrored 0 = true := by decide

/-- Reserve pair 8 of cluster 0 has been tested and no logical pair exchanges with it. -/
def tested : State := (State.reset.setPair 8 4 false none).fset (CLU_RSV 0) 0 3 2

theorem witness_rotation_blocked :
    tested.reserveOf 0 = some 8 ∧ tested.role 8 = 4 ∧ tested.rotationStuck 0 8 = true ∧
    (State.reset.setLp 0 { exch := some 8 }).rotationStuck 0 8 = false ∧
    (at' [(SEC_LC, 1)]).debugOk = true ∧ State.reset.debugOk = false ∧ State.reset.rclUsable = true ∧
    ((at' ((List.range 8).map (fun i => (PWR_D_ST (72 + i), 0)))).spares.take 8).all (at' ((List.range 8).map (fun i => (PWR_D_ST (72 + i), 0)))).running = true ∧
    (at' [(PWR_D_ST 89, 0)]).dstate 89 = 0 := by decide

theorem witness_failures_of_pairs :
    State.reset.running 0 = true ∧ (at' [(PWR_D_ST 0, 3)]).running 0 = false ∧ State.reset.isSplit 0 = false ∧
    (at' [(CLU_LP_MAP 0, 0x80)]).isSplit 0 = (at' [(CLU_LP_MAP 0, 0x80)]).lpSplit 0 ∧ State.reset.lclOf 0 = some 0 := by decide

/-- Subchannel 3 of partition 1 sends over Ethernet from port 0, in service and aligned. -/
def reliable : State := (at' [(PRT_STATE 1, 2), (WRR_CTL 0, 1), (WRR_ST 0, 0x10000)]).setSubch 3 { owner := some 1, state := 2, loaded := true }

/-- An acknowledgement of nothing. -/
def ack : WrrAck := { ver := 1, ty := 2, epoch := 0, pn := 1, scn := 3, inst := 0, cum := 0, sack := 0, ip6 := false, sip := 0, sport := 0, dport := 0 }

theorem witness_acknowledgement :
    reliable.portLive 0 = true ∧ reliable.portOpen 0 = true ∧ State.reset.portLive 0 = false ∧ reliable.fromPeer 3 ack = true ∧
    reliable.epoch 1 = 0 ∧ (reliable.subch 3).window = [] ∧ (reliable.subch 3).psn = 0 ∧ (reliable.subch 3).inst = 0 ∧
    ((reliable.withReadout { reliable.readout with pause := [(0, 5)] }).wr (WRR_CTL 0) 9).portOpen 0 = false := by decide

theorem witness_scdest : ((reliable.withReadout reliable.readout).hbmWrite (reliable.work + 128 * 3) (leBytes 8 (8 * 2 ^ 53))).canonical = true := by
  decide

/-- Tag 0 waits for an engine. -/
theorem witness_gather :
    (withTxn .queued).pagesFor 0 ≤ (withTxn .queued).freePages ∧ (withTxn .queued).pickEngine none = some 0 ∧
    (withTxn .queued).mayGrant .engines (withTxn .queued).gatherDemand 1 = true ∧ tabFind (withTxn .queued).readout.holders 0 = none ∧
    (withTxn .queued).epoch 1 = 0 := by decide

theorem witness_services :
    State.reset.fbit SEC_CMD_ST 8 = false ∧ State.reset.lcs = 3 ∧ State.reset.lcs ∈ [1, 3, 4] ∧ (traced.withTime { tick := 100 }).time.tick = 100 ∧
    State.reset.fget (PRT_QRD 1) 0 16 ≠ 0 ∧ State.reset.fget (PRT_QHBM 1) 0 16 ≠ 0 ∧ State.reset.fget (PRT_QCW 1) 0 11 ≠ 0 ∧
    State.reset.owners = [] ∧ (∀ a ∈ State.reset.deviceAreas, rangesMeet a (pageBytes 16383 16383) = false) ∧
    reservedTarget 0xA0 = true ∧ reservedTarget 0xC0 = false ∧ State.reset.checkerReg 0x88040 = true ∧ State.reset.checkerReg 0x88000 = false ∧
    State.reset.wakeTest 0 0 = State.reset := by decide

theorem witness_voided_offer :
    16 * 1 + 0 ∈ (State.reset.withSec { State.reset.sec with voided := [16] }).sec.voided ∧
    (at' [(SEC_LC, 0)]).lcs = 0 ∧ (State.reset.withTime { setV := some 7 }).time.setV ≠ none := by decide

end Sys2Proof.Tests
end

section
/-! SUPPORT. Control registers of a context: what a read gives after a write, and the instructions that act on the context of their
core or on the whole state, in the words of the statements. -/

namespace Sys2Proof.Machine

/-! ## Control registers of a context -/

theorem tabDel_of_find_none {α : Type} (m : Tab α) (i : Nat) (h : tabFind m i = none) : tabDel m i = m := by
  induction m with
  | nil => rfl
  | cons e m ih =>
    obtain ⟨k, v⟩ := e
    by_cases hk : i = k
    · simp [tabFind, hk] at h
    · by_cases hl : i < k
      · simp [tabDel, hk, hl]
      · simp [tabDel, hk, hl, ih (by simpa [tabFind, hk, hl] using h)]

theorem Arch.setCsrv_sorted {a : Arch} {n : Nat} {v : Word} (h : tabSorted a.csr = true) :
    tabSorted (a.setCsrv n v).csr = true := by
  simp only [Arch.setCsrv, tabPut]
  split
  · exact tabSorted_del _ _ h
  · exact tabSorted_ins _ _ _ h

theorem Arch.csrv_setCsrv {a : Arch} (h : tabSorted a.csr = true) (n : Nat) (v : Word) (i : Nat) :
    (a.setCsrv n v).csrv i = if i = n then v else a.csrv i := by
  by_cases hi : i = n
  · rw [if_pos hi, hi]; exact tabGet_put_self _ _ _ _ h
  · rw [if_neg hi]; exact tabGet_put_other _ _ _ h hi _

/-! A write of a control register leaves the rest of the context. The proofs go by rewriting: as definitional equations the kernel
would compare the contexts themselves, and evaluate the table of control registers for it. -/

@[simp] theorem Arch.setCsrv_g (a : Arch) (n : Nat) (v : Word) : (a.setCsrv n v).g = a.g := by rw [Arch.setCsrv]
@[simp] theorem Arch.setCsrv_acc (a : Arch) (n : Nat) (v : Word) : (a.setCsrv n v).acc = a.acc := by rw [Arch.setCsrv]
@[simp] theorem Arch.setCsrv_tlb (a : Arch) (n : Nat) (v : Word) : (a.setCsrv n v).tlb = a.tlb := by rw [Arch.setCsrv]

/-- Mode and pc are no control registers. -/
theorem Arch.csrv_withModePc (a : Arch) (m : Mode) (p : BitVec 48) (i : Nat) :
    Arch.csrv { a with mode := m, pc := p } i = a.csrv i := rfl

/-- LPSTAT at its reset value is not listed, so that depth 0 writes nothing. -/
theorem Arch.setDepth_zero {a : Arch} (h : tabFind a.csr 0x01C = none) : a.setDepth 0 = a := by
  simp only [Arch.setDepth, Arch.setCsrv, tabPut, csrReset]
  simp [tabDel_of_find_none _ _ h]

/-- A level number fits LPSTAT.DEPTH. -/
theorem Arch.depth_of_csrv {a : Arch} {d : Nat} (h : a.csrv 0x01C = BitVec.ofNat 64 d) (hd : d < 8) : a.depth = d := by
  simp only [Arch.depth, Arch.csrf, h, BitVec.toNat_ofNat, bits]
  omega

/-- XSTAT is 0x800 in Monitor mode and 0x401 in the others (R160). -/
theorem Mode.stat_eq (m : Mode) : m.stat = if m = .monitor then 0x800 else 0x401 := by cases m <;> rfl

/-- LPSTAT is none of the trap registers of a mode. -/
theorem Mode.stat_add_ne (m : Mode) (j : Nat) : m.stat + j ≠ 0x01C := by
  have : 0x01C < m.stat := by cases m <;> decide
  omega

theorem Mode.stat_ne (m : Mode) : m.stat ≠ 0x01C := m.stat_add_ne 0

theorem Mode.code_lt (m : Mode) : m.code < 4 := by cases m <;> decide

/-! ## Instructions that issue -/

/-- An instruction on the context of its core ends in the state that `Claim.done` names. -/
theorem instrArch_of_runs {s : State} {k : CoreNo} {n : Nat} (hr : Claim.Runs s k n) (f : Arch → Arch × Ends) :
    s.instrArch k n f = .next (Claim.done s k n (f (s.core k).arch).1 (f (s.core k).arch).2) :=
  have ⟨hu, hi, hf⟩ := hr
  State.instrArch_spec hu hi hf f

/-- An instruction on the whole state ends as `Claim.ended` says, from the state in which it has begun. -/
theorem instrState_of_runs {s : State} {k : CoreNo} {n : Nat} (hr : Claim.Runs s k n) (f : State → State × Ends) :
    s.instrState k n f =
      .next (Claim.ended s k n (f (Claim.opened s k n)).1 (f (Claim.opened s k n)).2) :=
  have ⟨hu, hi, hf⟩ := hr
  State.instrState_spec hu hi hf f

end Sys2Proof.Machine
end

section
/-! PROOF. Hardware loops (R162 to R164, R202). -/

namespace Sys2Proof.Machine

/-! ## Set-up (R162) -/

theorem Arch.loopSet_deep {a : Arch} {e n : Nat} (hd : 4 ≤ a.depth) : a.loopSet e n = (a, .trap tLoopDepth 0) := by
  simp [Arch.loopSet, hd]

theorem Arch.loopSet_badRange {a : Arch} {e n : Nat} (hd : a.depth < 4)
    (he : e ≤ a.pc.toNat + 4 ∨ (1 ≤ a.depth ∧ a.lpe (a.depth - 1) < e)) :
    a.loopSet e n = (a, .trap tLoopRange (BitVec.ofNat 64 e)) := by
  simp [Arch.loopSet, Nat.not_le.2 hd, he]

/-- A body end that passes both checks: above the next address, and not beyond the end of the level around it. -/
theorem Arch.loopSet_goodRange {a : Arch} {e n : Nat} (hd : a.depth < 4) (he : a.pc.toNat + 4 < e)
    (ho : 1 ≤ a.depth → e ≤ a.lpe (a.depth - 1)) :
    a.loopSet e n = if n = 0 then (a, .skip e) else
      ((((a.setCsrv (0x010 + a.depth) (BitVec.ofNat 64 (a.pc.toNat + 4))).setCsrv (0x014 + a.depth) (BitVec.ofNat 64 e)).setLpc
        a.depth n).setDepth (a.depth + 1), .seq) := by
  have hc : ¬(e ≤ a.pc.toNat + 4 ∨ (1 ≤ a.depth ∧ a.lpe (a.depth - 1) < e)) := by
    rintro (h | ⟨h1, h2⟩)
    · exact Nat.not_lt.2 h he
    · exact Nat.not_lt.2 (ho h1) h2
  simp [Arch.loopSet, Nat.not_le.2 hd, hc]

/-- Whatever command sets up a level on the context of its core does so in the order of R162. -/
theorem loopSet_of_exec {s : State} {k : CoreNo} {c : Instr} {e n : Nat}
    (hx : exec c s = .next (Claim.done s k 4 ((s.core k).arch.loopSet e n).1 ((s.core k).arch.loopSet e n).2)) :
    Claim.LoopSet s k c e n := by
  refine ⟨fun hd => ?_, fun hd he => ?_, fun hd he ho => ⟨fun hn => ?_, fun hn => ?_⟩⟩
  · rw [hx, Arch.loopSet_deep hd]; rfl
  · rw [hx, Arch.loopSet_badRange hd he]; rfl
  · rw [hx, Arch.loopSet_goodRange hd he ho, if_pos hn]
  · rw [hx, Arch.loopSet_goodRange hd he ho, if_neg hn]; rfl

theorem exec_loop (s : State) (k : CoreNo) (rc : Gr) (uofs : BitVec 16) :
    exec (.loop k rc uofs) s =
      s.instrArch k 4 (fun a => a.loopSet ((a.pc.toNat + 4 * uofs.toNat) % 2 ^ 48) ((a.gr rc).toNat % 2 ^ 32)) := rfl

theorem exec_loopi (s : State) (k : CoreNo) (count : BitVec 14) (uofs : BitVec 12) :
    exec (.loopi k count uofs) s =
      s.instrArch k 4 (fun a => a.loopSet ((a.pc.toNat + 4 * uofs.toNat) % 2 ^ 48) count.toNat) := rfl

/-! ## The end test and taken transfers (R163, R164) -/

section
variable (a : Arch) {lo hi t d : Nat}

theorem Arch.endTest_outside (h : a.lpe d ≤ lo ∨ hi < a.lpe d) : Arch.endTest lo hi (d + 1) a = (a.setDepth (d + 1), hi) := by
  have hc : ¬(lo < a.lpe d ∧ a.lpe d ≤ hi) := by omega
  simp [Arch.endTest, hc]

theorem Arch.endTest_repeats (hl : lo < a.lpe d) (hh : a.lpe d ≤ hi) (hn : 1 < a.lpc d) :
    Arch.endTest lo hi (d + 1) a = ((a.setLpc d (a.lpc d - 1)).setDepth (d + 1), a.lps d) := by
  simp [Arch.endTest, hl, hh, hn]

theorem Arch.endTest_closes (hl : lo < a.lpe d) (hh : a.lpe d ≤ hi) (hn : a.lpc d ≤ 1) :
    Arch.endTest lo hi (d + 1) a = Arch.endTest lo hi d (a.setLpc d 0) := by
  simp [Arch.endTest, hl, hh, Nat.not_lt.2 hn]

theorem Arch.leave_inside (hl : a.lps d ≤ t) (hh : t < a.lpe d) : Arch.leave t (d + 1) a = a.setDepth (d + 1) := by
  simp [Arch.leave, Nat.not_lt.2 hl, Nat.not_le.2 hh]

theorem Arch.leave_outside (h : t < a.lps d ∨ a.lpe d ≤ t) : Arch.leave t (d + 1) a = Arch.leave t d (a.setLpc d 0) := by
  simp [Arch.leave, h]

end

/-- An instruction that ends neither in a trap nor in a stall retires: INSTRET counts it after its end. -/
theorem CoreSt.retire_arch_of_retires (c : CoreSt) (n : Nat) {e : Ends} (he : e.retires = true) :
    (c.retire n e).arch = (c.arch.finish n e).counted := by
  cases e with
  | seq | skip | jump => exact CoreSt.onLast_arch _ _
  | trap | stall => exact absurd he (by simp [Ends.retires])

theorem loopEnds : Claim.LoopEnds := by
  refine ⟨fun a n e t => ⟨rfl, rfl, rfl⟩, fun c n e he => ?_, fun a lo hi t d => ?_⟩
  · refine CoreSt.retire_arch_of_retires c n ?_
    obtain rfl | ⟨x, rfl⟩ | ⟨x, rfl⟩ := he <;> rfl
  · exact ⟨Arch.endTest_outside a, Arch.endTest_repeats a, Arch.endTest_closes a, Arch.leave_inside a, Arch.leave_outside a,
      fun h => by simp [Arch.endTest, Arch.leave, Arch.setDepth_zero h]⟩

/-- Settles O13: both set-up instructions are `Arch.loopSet` on the context of the core; the end test and the leaving of levels go
level by level. -/
theorem hardwareLoops : Obligations.HardwareLoops :=
  ⟨fun s k hr =>
    ⟨fun rc uofs => loopSet_of_exec ((exec_loop s k rc uofs).trans (instrArch_of_runs hr _)),
     fun count uofs => loopSet_of_exec ((exec_loopi s k count uofs).trans (instrArch_of_runs hr _))⟩, loopEnds⟩

end Sys2Proof.Machine
end

section
/-! PROOF. Trap routing, trap entry and return (R168 to R172, R237). -/

namespace Sys2Proof.Machine

/-! ## The mode that takes a trap (R169) -/

/-- One bit of a control register, as a field and as a condition. -/
theorem Arch.bit_csrv (a : Arch) (n i : Nat) : bit (a.csrv n).toNat i = decide (a.csrf n i 1 = 1) := by
  simp only [bit, Arch.csrf, bits, Nat.pow_one]
  rfl

/-- A trap of Monitor mode stays there. -/
theorem Arch.trapMode_monitor {a : Arch} (hm : a.mode = .monitor) (cause : Nat) (precise : Bool) :
    a.trapMode cause precise = .monitor := by
  simp [Arch.trapMode, hm]

/-- ECALL goes to the next mode up. -/
theorem Arch.trapMode_ecall {a : Arch} (hm : a.mode ≠ .monitor) (precise : Bool) :
    a.trapMode 0x0C precise = if a.mode = .user then .supervisor else .monitor := by
  cases h : a.mode with
  | monitor => exact absurd h hm
  | user | supervisor => simp [Arch.trapMode, h, tEcall]

/-- Any other trap from below Monitor mode goes to Supervisor mode, unless MTDEL sends it to Monitor mode or it is a precise one that
meets Supervisor mode with its TD set. -/
theorem Arch.trapMode_other {a : Arch} {cause : Nat} (hm : a.mode ≠ .monitor) (hc : cause ≠ 0x0C) (precise : Bool) :
    a.trapMode cause precise =
      if a.csrf 0x806 cause 1 = 1 ∨ (precise = true ∧ a.mode = .supervisor ∧ a.csrf 0x401 1 1 = 1)
      then .monitor else .supervisor := by
  cases h : a.mode with
  | monitor => exact absurd h hm
  | user | supervisor =>
    by_cases hd : a.csrf 0x806 cause 1 = 1 <;>
      simp [Arch.trapMode, Arch.td, Mode.stat, Arch.bit_csrv, h, tEcall, hc, hd]

theorem trapRouting : Claim.TrapRouting := by
  intro a cause
  refine ⟨fun hm => Arch.trapMode_monitor hm _ _, fun hm hc => ?_, fun hm hc => ?_, fun hm hc hd => ?_, fun hm hc ht => ?_,
    fun hm hc hd => ?_, fun hm hc hd ht => ?_, fun hm => Arch.trapMode_monitor hm _ _, fun hm hc hd => ?_, fun hm hc hd => ?_⟩
  · rw [hc, Arch.trapMode_ecall (by simp [hm]), if_pos hm]
  · rw [hc, Arch.trapMode_ecall (by simp [hm]), if_neg (by simp [hm])]
  · rw [Arch.trapMode_other hm hc, if_pos (.inl hd)]
  · rw [Arch.trapMode_other (by simp [hm]) hc, if_pos (.inr ⟨rfl, hm, ht⟩)]
  · rw [Arch.trapMode_other (by simp [hm]) hc, if_neg (by simp [hd, hm])]
  · rw [Arch.trapMode_other (by simp [hm]) hc, if_neg (by simp [hd, ht])]
  · rw [Arch.trapMode_other hm hc, if_pos (.inl hd)]
  · rw [Arch.trapMode_other hm hc, if_neg (by simp [hd])]

/-! ## Trap entry (R172) -/

/-- XSTAT as a trap into mode `m` writes it: PDEPTH, PMODE and PIE from the context that traps, TD 1, IE 0. -/
def Arch.entryStat (a : Arch) (m : Mode) : Word :=
  BitVec.ofNat 64 (a.depth * 2 ^ 9 + a.mode.code * 2 ^ 5 + b2n (a.ie m) * 2 ^ 4 + 2)

theorem Arch.ie_csrf (a : Arch) (m : Mode) : b2n (a.ie m) = a.csrf m.stat 0 1 := by
  have h2 : a.csrf m.stat 0 1 < 2 := bits_lt _ _ _
  rw [Arch.ie, Arch.bit_csrv, b2n]
  by_cases h : a.csrf m.stat 0 1 = 1
  · simp [h]
  · simp [h]; omega

theorem Arch.entryStat_fields (a : Arch) (m : Mode) :
    bits (a.entryStat m).toNat 0 1 = 0 ∧ bits (a.entryStat m).toNat 1 1 = 1 ∧
    bits (a.entryStat m).toNat 4 1 = a.csrf m.stat 0 1 ∧ bits (a.entryStat m).toNat 5 2 = a.mode.code ∧
    bits (a.entryStat m).toNat 9 3 = a.depth := by
  have hd : a.depth < 8 := bits_lt _ _ _
  have hc := a.mode.code_lt
  have hi : a.csrf m.stat 0 1 < 2 := bits_lt _ _ _
  simp only [Arch.entryStat, Arch.ie_csrf, BitVec.toNat_ofNat, bits]
  omega

/-- What trap entry changes besides control registers, and what it leaves: mode and pc, no general register, accumulator or locked
translation. -/
theorem Arch.enter_frame (a : Arch) (m : Mode) (int : Bool) (code : Nat) (val : Word) :
    (a.enter m int code val).mode = m ∧ (a.enter m int code val).g = a.g ∧ (a.enter m int code val).acc = a.acc ∧
    (a.enter m int code val).tlb = a.tlb ∧
    (a.enter m int code val).pc =
      BitVec.ofNat 48 (if int then (a.csrv (m.stat + 1)).toNat else (a.csrv (m.stat + 1)).toNat + 0x40 * code) := by
  simp [Arch.enter, Arch.setDepth]

/-- The control registers after trap entry. The order of the tests is that of the writes, the last one first. -/
theorem Arch.csrv_enter {a : Arch} (h : tabSorted a.csr = true) (m : Mode) (int : Bool) (code : Nat) (val : Word) (i : Nat) :
    (a.enter m int code val).csrv i =
      if i = 0x01C then BitVec.ofNat 64 0
      else if i = m.stat + 4 then val
      else if i = m.stat + 3 then BitVec.ofNat 64 (b2n int * 2 ^ 63 + code)
      else if i = m.stat + 2 then BitVec.ofNat 64 a.pc.toNat
      else if i = m.stat then a.entryStat m
      else a.csrv i := by
  have keeps {b : Arch} {n : Nat} {v : Word} : tabSorted b.csr = true → tabSorted (b.setCsrv n v).csr = true :=
    Arch.setCsrv_sorted
  unfold Arch.enter Arch.setDepth Arch.entryStat
  rw [Arch.csrv_withModePc, Arch.csrv_setCsrv (keeps (keeps (keeps (keeps h)))), Arch.csrv_setCsrv (keeps (keeps (keeps h))),
    Arch.csrv_setCsrv (keeps (keeps h)), Arch.csrv_setCsrv (keeps h), Arch.csrv_setCsrv h]

theorem trapEntry : Claim.TrapEntry := by
  intro a m int code val hs _
  simp only [← Mode.stat_eq]
  have csrv := Arch.csrv_enter hs m int code val
  have stat : (a.enter m int code val).csrv m.stat = a.entryStat m := by simp [csrv, m.stat_ne]
  obtain ⟨hie, htd, hpie, hpm, hpd⟩ := a.entryStat_fields m
  obtain ⟨hmode, hg, hacc, htlb, hpc⟩ := a.enter_frame m int code val
  refine ⟨hmode, hg, hacc, htlb, ?_, ?_, ?_, ?_, ?_, ?_, ?_, ?_, Arch.depth_of_csrv (csrv _) (by decide), hpc,
    fun i h0 h2 h3 h4 hl => ?_⟩
  · simp [csrv, m.stat_add_ne 2]
  · simp [csrv, m.stat_add_ne 3]
  · simp [csrv, m.stat_add_ne 4]
  · rw [Arch.csrf, stat, hie]
  · rw [Arch.csrf, stat, htd]
  · rw [Arch.csrf, stat, hpie]
  · rw [Arch.csrf, stat, hpm]
  · rw [Arch.csrf, stat, hpd]
  · simp only [csrv, h0, h2, h3, h4, hl, if_false]

/-! ## Trap return (R172) -/

/-- XSTAT as a return from mode `m` writes it: IE from PIE, TD 0. -/
def Arch.returnStat (a : Arch) (m : Mode) : Word :=
  BitVec.ofNat 64 (putBits (putBits (a.csrv m.stat).toNat 0 1 (a.csrf m.stat 4 1)) 1 1 0)

theorem Arch.returnStat_fields (a : Arch) (m : Mode) :
    bits (a.returnStat m).toNat 0 1 = a.csrf m.stat 4 1 ∧ bits (a.returnStat m).toNat 1 1 = 0 := by
  have hlt : putBits (putBits (a.csrv m.stat).toNat 0 1 (a.csrf m.stat 4 1)) 1 1 0 < 2 ^ 64 :=
    putBits_lt _ (putBits_lt _ (BitVec.isLt _) (by decide)) (by decide)
  rw [Arch.returnStat, BitVec.toNat_ofNat, Nat.mod_eq_of_lt hlt, bits_put_self, bits_put_other _ _ (.inl (by decide)),
    bits_put_self]
  exact ⟨Nat.mod_eq_of_lt (bits_lt _ _ _), rfl⟩

/-- The control registers after a return. -/
theorem Arch.csrv_tret {a : Arch} (h : tabSorted a.csr = true) (m : Mode) (d i : Nat) :
    (a.tret m d).csrv i =
      if i = 0x01C then BitVec.ofNat 64 d else if i = m.stat then a.returnStat m else a.csrv i := by
  unfold Arch.tret Arch.setDepth Arch.returnStat Arch.csrf
  rw [Arch.csrv_withModePc, Arch.csrv_setCsrv (Arch.setCsrv_sorted h), Arch.csrv_setCsrv h]

theorem trapReturn : Claim.TrapReturn := by
  intro a m d hs hd
  simp only [← Mode.stat_eq]
  have csrv := Arch.csrv_tret hs m d
  have stat : (a.tret m d).csrv m.stat = a.returnStat m := by simp [csrv, m.stat_ne]
  obtain ⟨hie, htd⟩ := a.returnStat_fields m
  refine ⟨rfl, ?_, ?_, Arch.depth_of_csrv (by simp [csrv]) hd, rfl, rfl, rfl, rfl, fun i h0 hl => ?_⟩
  · rw [Arch.csrf, stat, hie]
  · rw [Arch.csrf, stat, htd]
  · rw [csrv, if_neg hl, if_neg h0]

/-! ## Trap instructions and TRET -/

/-- An instruction that traps leaves its core at trap entry, without a count in INSTRET. -/
theorem CoreSt.retire_arch_trap (c : CoreSt) (n cause : Nat) (val : Word) :
    (c.retire n (.trap cause val)).arch = c.arch.enter (c.arch.trapMode cause true) false cause val :=
  CoreSt.shut_arch _

theorem exec_ecall (s : State) (k : CoreNo) : exec (.ecall k) s = s.instrArch k 4 (fun a => (a, .trap tEcall 0)) := rfl

theorem exec_brk (s : State) (k : CoreNo) : exec (.brk k) s = s.instrArch k 4 (fun a => (a, .trap tBreak 0)) := rfl

theorem exec_tret (s : State) (k : CoreNo) : exec (.tret k) s = s.instrState k 4 (fun s => s.tret k) := rfl

/-- A word that decodes to no instruction is what makes the event (R188). -/
theorem exec_illegalInstr {k : CoreNo} {w : BitVec 32} (s : State) (hw : decodeWords k w.toNat 0 = none) :
    exec (.illegalInstr k w) s = s.instrState k 4 (fun s => (s, .trap tIllegal (BitVec.ofNat 64 w.toNat))) := by
  have hi : illegalWord k w.toNat = true := by simp [illegalWord, hw]
  change execIllegalInstr k w s = _
  simp only [execIllegalInstr, hi, if_true]

section
variable {s : State} {k : CoreNo}

/-- TRET in User mode, or to a mode above its own, traps PRIV. -/
theorem State.tret_priv (h : (s.core k).arch.mode = .user ∨
      (s.core k).arch.mode.code < (s.core k).arch.csrf (s.core k).arch.mode.stat 5 2) :
    s.tret k = (s, .trap tPriv (firstWord (.tret k))) := by
  rw [Arch.csrf] at h
  simp [State.tret, h]

variable (hm : (s.core k).arch.mode ≠ .user)
  (hp : (s.core k).arch.csrf (s.core k).arch.mode.stat 5 2 ≤ (s.core k).arch.mode.code)
include hm hp

theorem State.tret_depth (hd : (s.core k).arch.csrf (s.core k).arch.mode.stat 9 3 ≤ 4) :
    s.tret k =
      (let b := (s.core k).arch.tret (s.core k).arch.mode ((s.core k).arch.csrf (s.core k).arch.mode.stat 9 3)
       ((Claim.withArch s k b).closeGroup k, .jump b.pc.toNat)) := by
  rw [Arch.csrf] at hp hd
  simp [State.tret, hm, Nat.not_lt.2 hp, hd, Claim.withArch, Arch.csrf]

/-- A PDEPTH above 4 names no depth: a free one is drawn. -/
theorem State.tret_freeDepth (hd : 4 < (s.core k).arch.csrf (s.core k).arch.mode.stat 9 3) :
    s.tret k =
      (let b := (s.core k).arch.tret (s.core k).arch.mode ((Config.freeWord s.draw.1).toNat % 5)
       ((Claim.withArch s.draw.2 k b).closeGroup k, .jump b.pc.toNat)) := by
  rw [Arch.csrf] at hp hd
  simp [State.tret, hm, Nat.not_lt.2 hp, Nat.not_le.2 hd, Claim.withArch]

end

theorem trapInstructions : Claim.TrapInstructions := by
  refine ⟨CoreSt.retire_arch_trap, fun s k hr => ?_⟩
  have ha : ((Claim.opened s k 4).core k).arch = (s.core k).arch := (State.beginInstr_spec s k 4).1
  have tret := (exec_tret s k).trans (instrState_of_runs hr _)
  simp only [← Mode.stat_eq]
  refine ⟨(exec_ecall s k).trans (instrArch_of_runs hr _), (exec_brk s k).trans (instrArch_of_runs hr _),
    fun w hw => (exec_illegalInstr s hw).trans (instrState_of_runs hr _), ?_⟩
  rw [tret, ← ha]
  refine ⟨fun h => ?_, fun hm hp hd => ?_, fun hm hp hd =>
    ⟨(Config.freeWord (Claim.opened s k 4).draw.1).toNat % 5, Nat.le_of_lt_succ (Nat.mod_lt _ (by decide)), ?_⟩⟩
  · rw [State.tret_priv h]; rfl
  · rw [State.tret_depth hm hp hd]
  · rw [State.tret_freeDepth hm hp hd]

/-- Settles O15: trap entry and return are described register by register (`Arch.csrv_enter`, `Arch.csrv_tret`); each trap
instruction runs in the context that its fetch leaves as it was. -/
theorem trapsAndReturns : Obligations.TrapsAndReturns :=
  ⟨trapRouting, trapEntry, trapReturn, trapInstructions⟩

end Sys2Proof.Machine
end

section
/-! PROOF. Accumulators (R221 to R224). -/

namespace Sys2Proof.Machine

/-! ## Integers of a width -/

theorem clip_above {w : Nat} {x : Int} (h : (2 : Int) ^ (w - 1) ≤ x) : clip w x = 2 ^ (w - 1) - 1 ∧ outside w x = true := by
  have hp : (0 : Int) < 2 ^ (w - 1) := Int.pow_pos (by decide)
  have hl : ¬ x < -2 ^ (w - 1) := by omega
  simp [clip, outside, hl, h]

theorem clip_below {w : Nat} {x : Int} (h : x < -(2 : Int) ^ (w - 1)) : clip w x = -2 ^ (w - 1) ∧ outside w x = true := by
  simp [clip, outside, h]

theorem clip_inside {w : Nat} {x : Int} (hl : -(2 : Int) ^ (w - 1) ≤ x) (hh : x < 2 ^ (w - 1)) :
    clip w x = x ∧ outside w x = false := by
  simp [clip, outside, Int.not_lt.2 hl, Int.not_le.2 hh]

/-- The two's-complement value of a number is that of its bit vector. -/
theorem sext_eq_toInt (w v : Nat) : sext w v = (BitVec.ofNat w v).toInt := by
  simp [sext, BitVec.toInt_eq_toNat_cond]

theorem sext_wrap (w : Nat) (x : Int) : sext w (wrap w x) = (BitVec.ofInt w x).toInt := by
  rw [sext_eq_toInt, wrap, ← BitVec.toNat_ofInt, BitVec.ofNat_toNat, BitVec.setWidth_eq]

/-- Wrapping gives the integer of the signed range that is congruent to `x`. -/
theorem sext_wrap_spec (w : Nat) (x : Int) :
    -2 ^ (w - 1) ≤ sext w (wrap w x) ∧ sext w (wrap w x) < 2 ^ (w - 1) ∧ sext w (wrap w x) % 2 ^ w = x % 2 ^ w := by
  rw [sext_wrap]
  refine ⟨BitVec.le_toInt _, BitVec.toInt_lt, ?_⟩
  rw [BitVec.toInt_ofInt]
  exact_mod_cast Int.bmod_emod

/-! ## Writes of an accumulator -/

/-- An accumulating result is written as R221 says. -/
theorem Arch.accPut_eq (a : Arch) (ad : AccNo) (sat : Bool) (t : Int) : a.accPut ad.val sat t = Claim.accumulated a ad sat t := by
  cases sat with
  | false => simp [Arch.accPut, Claim.accumulated]
  | true =>
    have hflg : ∀ v, (a.setAcc ad.val v).flg = a.flg := fun _ => rfl
    by_cases hh : (2 : Int) ^ 95 ≤ t
    · obtain ⟨hc, ho⟩ := clip_above (w := 96) hh
      simp only [Arch.accPut, Claim.accumulated, hc, ho, hh, hflg, Arch.saturate, if_true, true_and]
    · by_cases hl : t < -(2 : Int) ^ 95
      · obtain ⟨hc, ho⟩ := clip_below (w := 96) hl
        simp only [Arch.accPut, Claim.accumulated, hc, ho, hh, hl, hflg, Arch.saturate, if_true, if_false, true_and]
      · obtain ⟨hc, ho⟩ := clip_inside (w := 96) (Int.not_lt.1 hl) (Int.not_le.1 hh)
        simp only [Arch.accPut, Claim.accumulated, hc, ho, hh, hl, Arch.saturate, if_true, if_false, true_and,
          Bool.false_eq_true]

/-- A command that is an accumulator operation accumulates the exact result that the operation gives on the context. -/
theorem accumulates_of_exec {s : State} {k : CoreNo} {n : Nat} {c : Instr} {ad : AccNo} {sat : Bool} (hr : Claim.Runs s k n)
    (f : Arch → Int) (hx : exec c s = s.accOp k n ad sat f) : Claim.Accumulates s k n c ad sat (f (s.core k).arch) := by
  rw [Claim.Accumulates, hx, State.accOp, instrArch_of_runs hr, Arch.accPut_eq]

/-! ## Rounding (R223) -/

theorem roundAcc_floor (acc : Int) (s : Nat) : roundAcc acc s 0 = acc / 2 ^ s := by simp [roundAcc]

theorem roundAcc_zero (acc : Int) (rnd : Nat) : roundAcc acc 0 rnd = acc := by simp [roundAcc]

theorem roundAcc_halfUp (acc : Int) (s : Nat) : roundAcc acc (s + 1) 1 = (acc + 2 ^ s) / 2 ^ (s + 1) := by simp [roundAcc]

theorem roundAcc_halfEven (acc : Int) (s : Nat) : roundAcc acc (s + 1) 2 =
    if (acc + 2 ^ s) % 2 ^ (s + 1) = 0 ∧ (acc + 2 ^ s) / 2 ^ (s + 1) % 2 = 1 then (acc + 2 ^ s) / 2 ^ (s + 1) - 1
    else (acc + 2 ^ s) / 2 ^ (s + 1) := by
  simp [roundAcc]

theorem rounded_floor (acc : Int) (s : Nat) : acc / 2 ^ s * 2 ^ s ≤ acc ∧ acc < (acc / 2 ^ s + 1) * 2 ^ s :=
  have hp : (0 : Int) < 2 ^ s := Int.pow_pos (by decide)
  ⟨Int.ediv_mul_le _ (Int.ne_of_gt hp), Int.lt_ediv_add_one_mul_self _ hp⟩

/-- Where `acc` lies between the two neighbours of a tie: the remainder of acc + 2^s by 2^(s+1) is its distance above the tie below
the quotient. -/
theorem two_mul_acc (acc : Int) (s : Nat) :
    0 ≤ (acc + 2 ^ s) % 2 ^ (s + 1) ∧ (acc + 2 ^ s) % 2 ^ (s + 1) < 2 ^ (s + 1) ∧
    2 * acc = (2 * ((acc + 2 ^ s) / 2 ^ (s + 1)) - 1) * 2 ^ (s + 1) + 2 * ((acc + 2 ^ s) % 2 ^ (s + 1)) := by
  have hp : (0 : Int) < 2 ^ (s + 1) := Int.pow_pos (by decide)
  refine ⟨Int.emod_nonneg _ (Int.ne_of_gt hp), Int.emod_lt_of_pos _ hp, ?_⟩
  have h := Int.mul_ediv_add_emod (acc + 2 ^ s) (2 ^ (s + 1))
  grind

theorem rounded_roundAcc (acc : Int) (s rnd : Nat) : Claim.Rounded acc s rnd (roundAcc acc s rnd) := by
  refine ⟨?_, ?_, ?_⟩
  · rintro rfl
    rw [roundAcc_floor]
    exact rounded_floor acc s
  · rintro rfl
    cases s with
    | zero => rw [roundAcc_zero]; omega
    | succ s =>
      rw [roundAcc_halfUp]
      obtain ⟨h0, h1, h⟩ := two_mul_acc acc s
      constructor <;> grind
  · rintro rfl
    cases s with
    | zero => rw [roundAcc_zero]; omega
    | succ s =>
      rw [roundAcc_halfEven]
      obtain ⟨h0, h1, h⟩ := two_mul_acc acc s
      split
      · next hc =>
        obtain ⟨hm, hq⟩ := hc
        exact ⟨by grind, by grind, fun _ => by omega⟩
      · next hc =>
        refine ⟨by grind, by grind, fun ht => ?_⟩
        have hm : (acc + 2 ^ s) % 2 ^ (s + 1) = 0 := by
          obtain ht | ht := ht <;> grind
        have hq : ¬ (acc + 2 ^ s) / 2 ^ (s + 1) % 2 = 1 := fun hq => hc ⟨hm, hq⟩
        omega

/-! ## The operations -/

theorem accumulatorOperations : Claim.AccumulatorOperations := by
  intro s k ad as_ ra hr a acc x sh
  have hpow : (2 : Int) ^ sh = (2 ^ a.accSh ra : Nat) := (Int.natCast_pow 2 _).symm
  have hfloor : Claim.Rounded acc sh 0 (acc / 2 ^ sh) := roundAcc_floor acc sh ▸ rounded_roundAcc acc sh 0
  rw [hpow] at hfloor ⊢
  exact ⟨accumulates_of_exec hr (fun _ => 0) rfl,
    accumulates_of_exec hr (fun a => (a.gr ra).toInt) rfl,
    accumulates_of_exec hr (fun a => (a.accv as_).toInt) rfl,
    accumulates_of_exec hr (fun a => (a.accv ad).toInt + (a.gr ra).toInt) rfl,
    accumulates_of_exec hr (fun a => (a.accv ad).toInt + (a.gr ra).toInt) rfl,
    accumulates_of_exec hr (fun a => (a.accv ad).toInt - (a.gr ra).toInt) rfl,
    accumulates_of_exec hr (fun a => (a.accv ad).toInt - (a.gr ra).toInt) rfl,
    accumulates_of_exec hr (fun a => (a.accv ad).toInt + (a.accv as_).toInt) rfl,
    accumulates_of_exec hr (fun a => (a.accv ad).toInt + (a.accv as_).toInt) rfl,
    ⟨_, hfloor, accumulates_of_exec hr (fun a => (a.accv ad).toInt / (2 ^ a.accSh ra : Nat)) rfl⟩,
    accumulates_of_exec hr (fun a => (a.accv ad).toInt * (2 ^ a.accSh ra : Nat)) rfl,
    accumulates_of_exec hr (fun a => (a.accv ad).toInt * (2 ^ a.accSh ra : Nat)) rfl⟩

/-! ## AEXT (R223) -/

theorem extOk_iff (ext : BitVec 5) : extOk ext = true ↔ ext.toNat / 8 ≠ 3 ∧ ext.toNat / 2 % 4 ≠ 3 := by
  have := ext.isLt
  simp only [extOk, bits, Bool.and_eq_true, bne_iff_ne]
  omega

section
variable {s : State} {k : CoreNo} {ext : BitVec 5} (hr : Claim.Runs s k 4) (rd ra : Gr) (ad : AccNo)
include hr

theorem exec_aext_reserved (he : extOk ext = false) : exec (.aext k rd ra ad ext) s =
    .next (Claim.done s k 4 (s.core k).arch (.trap tIllegal (firstWord (.aext k rd ra ad ext)))) := by
  change execAext k rd ra ad ext s = _
  rw [execAext, instrArch_of_runs hr]
  simp only [he, Bool.not_false, if_true]

theorem exec_aext_clips (he : extOk ext = true) (hb : bit ext.toNat 0 = true) :
    exec (.aext k rd ra ad ext) s =
      (let a := (s.core k).arch
       let w := extWidth (bits ext.toNat 3 2)
       let r := roundAcc (a.accv ad).toInt (a.accSh ra) (bits ext.toNat 1 2)
       .next (Claim.done s k 4 ((a.setGr rd.val (BitVec.ofInt 64 (clip w r))).saturate (outside w r)) .seq)) := by
  change execAext k rd ra ad ext s = _
  rw [execAext, instrArch_of_runs hr]
  simp only [he, hb, Bool.not_true, Bool.false_eq_true, if_false, if_true]

theorem exec_aext_wraps (he : extOk ext = true) (hb : bit ext.toNat 0 = false) :
    exec (.aext k rd ra ad ext) s =
      (let a := (s.core k).arch
       let w := extWidth (bits ext.toNat 3 2)
       let r := roundAcc (a.accv ad).toInt (a.accSh ra) (bits ext.toNat 1 2)
       .next (Claim.done s k 4 (a.setGr rd.val (BitVec.ofInt 64 (sext w (wrap w r)))) .seq)) := by
  change execAext k rd ra ad ext s = _
  rw [execAext, instrArch_of_runs hr]
  simp only [he, hb, Bool.not_true, Bool.false_eq_true, if_false]

end

/-- A write of a general register leaves FLG. -/
theorem Arch.setGr_flg (a : Arch) (i : Nat) (v : Word) : (a.setGr i v).flg = a.flg := by
  rw [Arch.setGr]; split <;> rfl

theorem accumulatorExtract : Claim.AccumulatorExtract := by
  intro s k rd ra ad ext hr a wd rnd w puts
  have hwd : bits ext.toNat 3 2 = wd := by
    have := ext.isLt
    simp only [bits, wd]; omega
  have hbit : bit ext.toNat 0 = decide (ext.toNat % 2 = 1) := by
    simp only [bit, Nat.pow_zero, Nat.div_one]; rfl
  refine ⟨fun h => exec_aext_reserved hr rd ra ad ?_, fun h3 hr3 => ?_⟩
  · rw [Bool.eq_false_iff, Ne, extOk_iff]
    exact fun ⟨h1, h2⟩ => h.elim h1 h2
  have he : extOk ext = true := (extOk_iff ext).2 ⟨h3, hr3⟩
  let r := roundAcc (a.accv ad).toInt (a.accSh ra) rnd
  have clips (hb : ext.toNat % 2 = 1) : puts (clip w r) (outside w r) := by
    have run := exec_aext_clips hr rd ra ad he (by simp [hbit, hb])
    rw [hwd] at run
    simp only [Arch.saturate, Arch.setGr_flg] at run
    exact run
  refine ⟨r, rounded_roundAcc _ _ _, fun hb hh => ?_, fun hb hl => ?_, fun hb hl hh => ?_, fun hb => ?_⟩
  · obtain ⟨hc, ho⟩ := clip_above hh
    exact hc ▸ ho ▸ clips hb
  · obtain ⟨hc, ho⟩ := clip_below hl
    exact hc ▸ ho ▸ clips hb
  · obtain ⟨hc, ho⟩ := clip_inside hl hh
    have := clips hb
    rwa [hc, ho] at this
  · obtain ⟨hl, hh, hm⟩ := sext_wrap_spec w r
    have run := exec_aext_wraps hr rd ra ad he (by simp [hbit, hb])
    rw [hwd] at run
    exact ⟨_, hl, hh, hm, run⟩

/-- Settles O34: every accumulator operation is one write of an exact result (`Arch.accPut_eq`); AEXT rounds as `rounded_roundAcc`
says, then clips or wraps. -/
theorem accumulators : Obligations.Accumulators := ⟨accumulatorOperations, accumulatorExtract⟩

end Sys2Proof.Machine
end

section
/-! PROOF. Multiply-accumulate (R225) and the wide MAC forms with their fetches from local memory (R227 to R230). -/

namespace Sys2Proof.Machine

/-! ## Lane products -/

/-- A lane that lies in 64 bits is that of the number's word. -/
theorem laneOf_eq_lane {w i : Nat} (h : w * i + w ≤ 64) (v : Nat) : laneOf w i v = Claim.lane w i (BitVec.ofNat 64 v) := by
  rw [laneOf, Claim.lane, sext_eq_toInt]
  congr 1
  apply BitVec.eq_of_getLsbD_eq
  intro j hj
  have hlt : j + w * i < 64 := by omega
  simp only [BitVec.truncate_eq_setWidth, BitVec.getLsbD_setWidth, BitVec.getLsbD_ushiftRight, BitVec.getLsbD_ofNat,
    Nat.testBit_div_two_pow, Nat.add_comm (w * i) j, hj, hlt, decide_true, Bool.true_and]

/-- The sum of the products of the lanes below `n`. -/
theorem laneSum_eq_sumI {w n : Nat} (h : w * n ≤ 64) (x y : Nat) :
    laneSum w x y n = Claim.sumI ((List.range n).map (fun i =>
      Claim.lane w i (BitVec.ofNat 64 x) * Claim.lane w i (BitVec.ofNat 64 y))) := by
  induction n with
  | zero => rfl
  | succ n ih =>
    rw [Nat.mul_succ] at h
    have hs (l : List Int) : Claim.sumI l = l.sum := rfl
    rw [laneSum, ih (by omega), laneOf_eq_lane h, laneOf_eq_lane h]
    simp only [hs, List.range_succ, List.map_append, List.sum_append, List.map_cons, List.map_nil, List.sum_singleton]

/-- A command of the MAC form accumulates the sum `p` of its lane products, added or subtracted. -/
theorem accumulates_of_macOp {s : State} {k : CoreNo} {c : Instr} {ad : AccNo} {ra rb : Gr} {w n : Nat} {sub sat : Bool} {p : Int}
    (hr : Claim.Runs s k 4) (hp : laneSum w ((s.core k).arch.gr ra).toNat ((s.core k).arch.gr rb).toNat n = p)
    (hx : exec c s = s.macOp k ad ra rb w n sub sat) :
    Claim.Accumulates s k 4 c ad sat
      (if sub then ((s.core k).arch.accv ad).toInt - p else ((s.core k).arch.accv ad).toInt + p) := by
  rw [State.macOp] at hx
  have h := accumulates_of_exec hr _ hx
  rwa [hp] at h

theorem multiplyAccumulate : Claim.MultiplyAccumulate := by
  constructor
  · intro s k ad ra rb hr a acc p
    have lane {w i : Nat} (h : w * i + w ≤ 64) (r : Gr) : laneOf w i (a.gr r).toNat = Claim.lane w i (a.gr r) := by
      rw [laneOf_eq_lane h, BitVec.ofNat_toNat, BitVec.setWidth_eq]
    have one {w : Nat} (h : w ≤ 64) : laneSum w (a.gr ra).toNat (a.gr rb).toNat 1 = p w 0 := by
      rw [laneSum, laneSum, lane (by omega), lane (by omega), Int.zero_add]
    have two : laneSum 16 (a.gr ra).toNat (a.gr rb).toNat 2 = p 16 0 + p 16 1 := by
      rw [laneSum, one (by decide), lane (by decide), lane (by decide)]
    have four : laneSum 16 (a.gr ra).toNat (a.gr rb).toNat 4 = p 16 0 + p 16 1 + p 16 2 + p 16 3 := by
      rw [laneSum, laneSum, two, lane (by decide), lane (by decide), lane (by decide), lane (by decide)]
    have half := one (w := 16) (by decide)
    have word := one (w := 32) (by decide)
    have double := one (w := 64) (by decide)
    exact ⟨accumulates_of_macOp (sub := false) hr half rfl, accumulates_of_macOp (sub := false) hr half rfl,
      accumulates_of_macOp (sub := true) hr half rfl, accumulates_of_macOp (sub := true) hr half rfl,
      accumulates_of_macOp (sub := false) hr two rfl, accumulates_of_macOp (sub := false) hr two rfl,
      accumulates_of_macOp (sub := false) hr four rfl, accumulates_of_macOp (sub := false) hr four rfl,
      accumulates_of_macOp (sub := false) hr word rfl, accumulates_of_macOp (sub := false) hr word rfl,
      accumulates_of_macOp (sub := true) hr word rfl, accumulates_of_macOp (sub := true) hr word rfl,
      accumulates_of_macOp (sub := false) hr double rfl, accumulates_of_macOp (sub := false) hr double rfl⟩
  · intro s k ad ra imm hr a t
    exact ⟨accumulates_of_exec hr (fun a => (a.accv ad).toInt + (a.gr ra).toInt * imm.toInt) rfl,
      accumulates_of_exec hr (fun a => (a.accv ad).toInt + (a.gr ra).toInt * imm.toInt) rfl⟩

/-! ## Pointer updates (R166) -/

/-- Within its buffer a modulo update wraps into it. -/
theorem Arch.modupd_toNat {x : Arch} {n b l : Nat} {a : Word} (i : Word) (hb : (x.csrv (0x020 + 2 * n)).toNat = b)
    (hl : (x.csrv (0x021 + 2 * n)).toNat = l) (hlo : b ≤ a.toNat) (hhi : a.toNat < b + l) (hfit : b + l ≤ 2 ^ 64) :
    ((x.modupd n a i).toNat : Int) = b + ((a.toNat : Int) - b + i.toInt) % l ∧
    b ≤ (x.modupd n a i).toNat ∧ (x.modupd n a i).toNat < b + l := by
  have hpos : l ≠ 0 := by omega
  have h0 := Int.emod_nonneg ((a.toNat : Int) - b + i.toInt) (b := l) (by omega)
  have h1 := Int.emod_lt_of_pos ((a.toNat : Int) - b + i.toInt) (b := l) (by omega)
  simp only [Arch.modupd, hb, hl, hpos, hlo, hhi, ne_eq, not_false_eq_true, decide_true, Bool.and_self, if_true]
  rw [BitVec.toNat_ofNat, Nat.mod_eq_of_lt (by omega)]
  omega

/-- Outside its buffer a modulo update is linear. -/
theorem Arch.modupd_outside {x : Arch} {n : Nat} {a : Word} (i : Word)
    (h : (x.csrv (0x021 + 2 * n)).toNat = 0 ∨ a.toNat < (x.csrv (0x020 + 2 * n)).toNat ∨
      (x.csrv (0x020 + 2 * n)).toNat + (x.csrv (0x021 + 2 * n)).toNat ≤ a.toNat) : x.modupd n a i = a + i := by
  simp only [Arch.modupd]
  rw [if_neg]
  simp only [Bool.and_eq_true, decide_eq_true_eq]
  omega

theorem pointerUpdate : Claim.PointerUpdate := by
  intro x n a i b l
  have hmod : x.updated (n + 1) a i = x.modupd n a i := by simp [Arch.updated]
  refine ⟨by simp [Arch.updated], fun hlo hhi hfit => ?_, fun h => by rw [hmod, Arch.modupd_outside i h]⟩
  obtain ⟨hv, hb, hl⟩ := Arch.modupd_toNat (x := x) i rfl rfl hlo hhi hfit
  rw [hmod]
  refine ⟨hb, hl, ?_⟩
  rw [hv, Int.add_emod_emod]
  congr 1
  omega

/-- Flags with SAT set are no cleared FLG. -/
theorem Flg.toWord_ne_zero {f : Flg} (h : f.sat = true) : f.toWord ≠ 0 := by
  obtain ⟨z, n, c, v, sat, dz⟩ := f
  subst h
  revert z n c v dz
  decide

/-- A write of an accumulator leaves every control register other than FLG. -/
theorem accumulated_csrv (a : Arch) (ad : AccNo) (sat : Bool) (t : Int) {i : Nat} (hi : i ≠ 0) :
    (Claim.accumulated a ad sat t).csrv i = a.csrv i := by
  have flags (v : AccWord) : Arch.csrv ((a.setAcc ad v).setFlg { a.flg with sat := true }) i = a.csrv i := by
    have hne : Flg.toWord { a.flg with sat := true } ≠ csrReset 0 := Flg.toWord_ne_zero rfl
    simp only [Arch.setFlg, Arch.setCsrv, Arch.csrv, Arch.setAcc, tabPut, tabGet, hne, if_false, tabFind_ins_other _ _ hi]
  unfold Claim.accumulated
  split
  · exact flags _
  · split
    · exact flags _
    · rfl

/-- A pointer update does not depend on the accumulators. -/
theorem accumulated_updated (a : Arch) (ad : AccNo) (sat : Bool) (t : Int) (ms : Nat) (p i : Word) :
    (Claim.accumulated a ad sat t).updated ms p i = a.updated ms p i := by
  simp only [Arch.updated, Arch.modupd, accumulated_csrv a ad sat t (show 0x020 + 2 * (ms - 1) ≠ 0 by omega),
    accumulated_csrv a ad sat t (show 0x021 + 2 * (ms - 1) ≠ 0 by omega)]

/-! ## The fetches of a MACD (R229) -/

section
variable {s : State} {k base lane n : Nat} {a : Word}

theorem State.macdFault_misaligned (h : a.toNat % lane ≠ 0) : s.macdFault k base lane n a = some tMisaligned := by
  simp [State.macdFault, h]

theorem State.macdFault_local (h : a.toNat % lane = 0) (hb : ¬(base ≤ a.toNat ∧ a.toNat + n ≤ base + s.bankBytes k)) :
    s.macdFault k base lane n a = some tLocal := by
  simp [State.macdFault, h, hb]

theorem State.macdFault_none (h : a.toNat % lane = 0) (hb : base ≤ a.toNat ∧ a.toNat + n ≤ base + s.bankBytes k) :
    s.macdFault k base lane n a = none := by
  simp [State.macdFault, h, hb]

end

theorem macdOk_iff (m : MacdOp) : macdOk m = true ↔ ¬(m.msx = 3 ∨ m.msy = 3 ∨ m.rd = m.ra) := by
  have code (v : BitVec 2) : v.toNat ≠ 3 ↔ ¬v = 3 := not_congr (BitVec.toNat_inj (y := 3))
  simp only [macdOk, Bool.and_eq_true, bne_iff_ne, code, not_or, and_assoc, ne_eq]

/-- An instruction has begun in the context of its core. -/
theorem opened_arch (s : State) (k : CoreNo) (n : Nat) : ((Claim.opened s k n).core k).arch = (s.core k).arch :=
  (State.beginInstr_spec s k n).1

section
variable {s : State} {k : CoreNo} {m : MacdOp} {w n t : Nat} (i : Instr) (sub sat : Bool) (hr : Claim.Runs s k 8)
include hr

theorem State.macd_illegal (hm : macdOk m = false) :
    s.macd k m i w n sub sat = .next (Claim.ended s k 8 (Claim.opened s k 8) (.trap tIllegal (firstWord i))) := by
  rw [State.macd, instrState_of_runs hr]
  simp only [hm, Bool.not_false, if_true]

variable (hm : macdOk m = true)
include hm

/-- The fetch at the X pointer is checked first. -/
theorem State.macd_faultX
    (hx : (Claim.opened s k 8).macdFault k ownBase (w / 8) (w * n / 8) ((s.core k).arch.gr m.rd) = some t) :
    s.macd k m i w n sub sat = .next (Claim.ended s k 8 (Claim.opened s k 8) (.trap t ((s.core k).arch.gr m.rd))) := by
  rw [State.macd, instrState_of_runs hr]
  simp only [opened_arch, hm, hx, Bool.not_true, Bool.false_eq_true, if_false]

variable (hx : (Claim.opened s k 8).macdFault k ownBase (w / 8) (w * n / 8) ((s.core k).arch.gr m.rd) = none)
include hx

theorem State.macd_faultY
    (hy : (Claim.opened s k 8).macdFault k (ownBase + 0x8000) (w / 8) (w * n / 8) ((s.core k).arch.gr m.ra) = some t) :
    s.macd k m i w n sub sat = .next (Claim.ended s k 8 (Claim.opened s k 8) (.trap t ((s.core k).arch.gr m.ra))) := by
  rw [State.macd, instrState_of_runs hr]
  simp only [opened_arch, hm, hx, hy, Bool.not_true, Bool.false_eq_true, if_false]

variable (hy : (Claim.opened s k 8).macdFault k (ownBase + 0x8000) (w / 8) (w * n / 8) ((s.core k).arch.gr m.ra) = none)
include hy

theorem State.macd_waits
    (hq : ((Claim.opened s k 8).core k).overlap .loc ((s.core k).arch.gr m.rd).toNat (w * n / 8) = .part ∨
      ((Claim.opened s k 8).core k).overlap .loc ((s.core k).arch.gr m.ra).toNat (w * n / 8) = .part) :
    s.macd k m i w n sub sat = .next (Claim.ended s k 8 (Claim.opened s k 8) .stall) := by
  rw [State.macd, instrState_of_runs hr]
  simp only [opened_arch, hm, hx, hy, Bool.not_true, Bool.false_eq_true, if_false, ← Bool.decide_or, hq, decide_true,
    if_true]

theorem State.macd_accumulates
    (hq : ¬(((Claim.opened s k 8).core k).overlap .loc ((s.core k).arch.gr m.rd).toNat (w * n / 8) = .part ∨
      ((Claim.opened s k 8).core k).overlap .loc ((s.core k).arch.gr m.ra).toNat (w * n / 8) = .part)) :
    s.macd k m i w n sub sat = .next
      (let o := Claim.opened s k 8
       let a := (s.core k).arch
       let x := a.gr m.rd
       let y := a.gr m.ra
       let p := laneSum w (o.seen k .loc x.toNat (w * n / 8)) (o.seen k .loc y.toNat (w * n / 8)) n
       let b := Claim.accumulated a m.acc sat (if sub then (a.accv m.acc).toInt - p else (a.accv m.acc).toInt + p)
       Claim.done s k 8 ((b.setGr m.rd (a.updated m.msx.toNat x (m.xinc.signExtend 64))).setGr m.ra
         (a.updated m.msy.toNat y (m.yinc.signExtend 64))) .seq) := by
  rw [State.macd, instrState_of_runs hr]
  simp only [opened_arch, hm, hx, hy, Bool.not_true, Bool.false_eq_true, if_false, ← Bool.decide_or, hq, decide_false,
    Arch.accPut_eq, accumulated_updated, sextW]
  rfl

end

/-- A command that is a MACD of `n` lanes of `w` bits checks, fetches, accumulates and updates its pointers as the statement
says. -/
theorem dualFetch_of_exec {s : State} {k : CoreNo} {m : MacdOp} {c : Instr} {w n : Nat} {sub sat : Bool} (hr : Claim.Runs s k 8)
    (hw : w * n ≤ 64) (hc : exec c s = s.macd k m c w n sub sat) : Claim.DualFetch s k m c w n sub sat := by
  unfold Claim.DualFetch
  rw [hc]
  intro o a x y sz bank traps bad inBank xOk waits acc sum b
  have ok (h : ¬bad) : macdOk m = true := (macdOk_iff m).2 h
  have xNone : xOk → o.macdFault k ownBase (w / 8) sz x = none := fun h => State.macdFault_none h.1 h.2
  refine ⟨fun hb => ?_, fun hg => ⟨fun hx => ?_, fun hx hxb => ?_, fun hx hy => ?_, fun hx hy hyb => ?_,
    fun hx hy hyb => ⟨fun hq => ?_, fun hq => ?_⟩⟩⟩
  · exact State.macd_illegal c sub sat hr (Bool.eq_false_iff.2 fun h => (macdOk_iff m).1 h hb)
  · exact State.macd_faultX c sub sat hr (ok hg) (State.macdFault_misaligned hx)
  · exact State.macd_faultX c sub sat hr (ok hg) (State.macdFault_local hx hxb)
  · exact State.macd_faultY c sub sat hr (ok hg) (xNone hx) (State.macdFault_misaligned hy)
  · exact State.macd_faultY c sub sat hr (ok hg) (xNone hx) (State.macdFault_local hy hyb)
  · exact State.macd_waits c sub sat hr (ok hg) (xNone hx) (State.macdFault_none hy hyb) hq
  · have run := State.macd_accumulates c sub sat hr (ok hg) (xNone hx) (State.macdFault_none hy hyb) hq
    simp only [laneSum_eq_sumI hw] at run
    exact run

theorem dualFetchMac : Claim.DualFetchMac := by
  refine ⟨pointerUpdate, fun s k m hr => ?_⟩
  exact ⟨dualFetch_of_exec hr (by decide) rfl, dualFetch_of_exec hr (by decide) rfl,
    dualFetch_of_exec hr (by decide) rfl, dualFetch_of_exec hr (by decide) rfl,
    dualFetch_of_exec hr (by decide) rfl, dualFetch_of_exec hr (by decide) rfl,
    dualFetch_of_exec hr (by decide) rfl, dualFetch_of_exec hr (by decide) rfl⟩

/-- Settles O35: every MAC form accumulates its sum of lane products; every MACD form runs through the checks and the effect of
`State.macd`, one lemma for each way it can end. -/
theorem multiplyAccumulateForms : Obligations.MultiplyAccumulateForms := ⟨multiplyAccumulate, dualFetchMac⟩

end Sys2Proof.Machine
end
